-- ==== Sys2Proof/Word.lean ====
section
/-! DEFINITION. The byte, the one quantity of the manual that is a word of bits (chapter 1, section 1.1.1).
Every other quantity of the part (an address, a time, a tag, an index) is a natural number. -/

namespace Sys2Proof

/-- One byte of a frame on the wing link (section 1.1.1). -/
abbrev Byte := BitVec 8

end Sys2Proof
end

