-- ==== Sys2Proof/Syntax.lean ====
section
/-! DEFINITION. The commands of the part, one constructor for each row of spec/opcode_table.json. A unit is
named by its index, a scalar of a telegram body by a word of its width, and an entry of a WRITE by the values
of its fields as they are carried (a value may lie outside its field's range: the part judges it). -/

namespace Sys2Proof

/-- The two link ports: U faces the gateway, D the field segment (section 1.1). -/
inductive Port where
  | u | d
  deriving DecidableEq, Repr

/-- What the wire of a local line presents to the pin: a level, or nothing (R177 speaks of a line "whose
wiring is open"). -/
inductive Wiring where
  | low | high | unwired
  deriving DecidableEq, Repr

/-- A point as a telegram carries it: point kind, face, level and column, one byte each (R28). -/
structure RawPoint where
  kind : BitVec 8
  face : BitVec 8
  level : BitVec 8
  column : BitVec 8
  deriving DecidableEq, Repr

/-- A slot as a telegram carries it: aisle, face, level and column, one byte each (section 2.5, R23). -/
structure RawSlot where
  aisle : BitVec 8
  face : BitVec 8
  level : BitVec 8
  column : BitVec 8
  deriving DecidableEq, Repr

/-- One listed item of an ORDER: item tag, bin id and category (R85). -/
structure OrderItem where
  item : BitVec 48
  bin : BitVec 16
  category : BitVec 8
  deriving DecidableEq, Repr

/-- An ADDRESS entry as carried: role, then the unit index and the zone, each behind a presence field
(R8, R23). -/
structure AddressEntry where
  role : Nat
  unitPresence : Nat
  unit : Nat
  zonePresence : Nat
  zone : Nat
  deriving DecidableEq, Repr

/-- An AISLE entry as carried, the 25 fields in the order of section 2.1. -/
structure AisleEntry where
  levels : Nat
  columns : Nat
  frontOffset : Nat
  columnPitch : Nat
  levelPitch : Nat
  leftMirrored : Nat
  rightMirrored : Nat
  frontLevel : Nat
  infeedLevel : Nat
  frontSize : Nat
  infeedSize : Nat
  parkColumn : Nat
  parkLevel : Nat
  travelVmax : Nat
  travelAccel : Nat
  hoistVmax : Nat
  hoistAccel : Nat
  handling : Nat
  lowerZone : Nat
  upperZone : Nat
  split : Nat
  mode : Nat
  patronWeight : Nat
  restoreWeight : Nat
  houseWeight : Nat
  deriving DecidableEq, Repr

/-- The examined fields of a BIN entry (section 2.5; R34 leaves the rest unexamined). -/
structure BinEntry where
  presence : Nat
  aisle : Nat
  face : Nat
  level : Nat
  column : Nat
  state : Nat
  deriving DecidableEq, Repr

/-- The examined fields of a STATION entry (R82). -/
structure StationEntry where
  kind : Nat
  zone : Nat
  laneSize : Nat
  slack : Nat
  deriving DecidableEq, Repr

/-- The examined fields of a LIFT entry (R107). Bit k of the mask is the flag of station k. -/
structure LiftEntry where
  zone : Nat
  mask : Nat
  carriers : Nat
  carryLimit : Nat
  answerLimit : Nat
  deriving DecidableEq, Repr

/-- An ITEM entry as carried (R123). -/
structure ItemEntry where
  presence : Nat
  item : Nat
  bin : Nat
  category : Nat
  state : Nat
  order : Nat
  lendDay : Nat
  dueDay : Nat
  renewals : Nat
  scanDay : Nat
  deriving DecidableEq, Repr

/-- A CLASS entry as carried (R127). -/
structure ClassEntry where
  cls : Nat
  period : Nat
  renewLimit : Nat
  deriving DecidableEq, Repr

/-- The examined fields of a ZONE entry: the five settings (R153). -/
structure ZoneEntry where
  debounce : Nat
  parkAllowance : Nat
  brakeSettle : Nat
  shutterLimit : Nat
  readyLimit : Nat
  deriving DecidableEq, Repr

/-- The examined fields of a LINE entry (R176). -/
structure LineEntry where
  selection : Nat
  polarity : Nat
  output : Nat
  deriving DecidableEq, Repr

/-- The commands of the part. In a request, `tag` is the telegram's header tag; in a station report too.
A field report names the unit that R6 identified. -/
inductive Instr where
  /-- FRAME_ARRIVAL (R2): the receiver of a port delivers a whole frame. -/
  | frameArrival (port : Port) (frame : List Byte)
  /-- TRANSMISSION_BEGINS (R12): the telegram at the head of a port's send queue comes to be sent. -/
  | transmissionBegins (port : Port)
  /-- ORDER (R85). -/
  | order (tag : BitVec 16) (number : BitVec 16) (station : BitVec 8) (patron : BitVec 32) (items : List OrderItem)
  /-- CANCEL (R99). -/
  | cancel (tag : BitVec 16) (number : BitVec 16)
  /-- RENEW (R134). -/
  | renew (tag : BitVec 16) (item : BitVec 48)
  /-- SHIFT (R58). -/
  | shift (tag : BitVec 16) (bin : BitVec 16) (target : RawSlot)
  /-- WRITE of the ADDRESS table (R9). -/
  | addressWrite (tag first : BitVec 16) (entries : List AddressEntry)
  /-- WRITE of the TRAFFIC table (R10). -/
  | trafficWrite (tag first : BitVec 16) (entries : List Nat)
  /-- WRITE of the COUNTERS table (R14). -/
  | countersWrite (tag first : BitVec 16) (entries : List Nat)
  /-- WRITE of the PARAMS table (R16). -/
  | paramsWrite (tag first : BitVec 16) (entries : List Nat)
  /-- WRITE of the AISLE table (R27). -/
  | aisleWrite (tag first : BitVec 16) (entries : List AisleEntry)
  /-- WRITE of the BIN table (R39). -/
  | binWrite (tag first : BitVec 16) (entries : List BinEntry)
  /-- WRITE of the STATION table (R82). -/
  | stationWrite (tag first : BitVec 16) (entries : List StationEntry)
  /-- WRITE of the LIFT table (R107). -/
  | liftWrite (tag first : BitVec 16) (entries : List LiftEntry)
  /-- WRITE of the ITEM table (R135). -/
  | itemWrite (tag first : BitVec 16) (entries : List ItemEntry)
  /-- WRITE of the CLASS table (R127). -/
  | classWrite (tag first : BitVec 16) (entries : List ClassEntry)
  /-- WRITE of the ZONE table (R153). -/
  | zoneWrite (tag first : BitVec 16) (entries : List ZoneEntry)
  /-- WRITE of the LINE table (R178). -/
  | lineWrite (tag first : BitVec 16) (entries : List LineEntry)
  /-- WRITE of the PULL table (R177). -/
  | pullWrite (tag first : BitVec 16) (entries : List Nat)
  /-- READ (R19). -/
  | read (tag : BitVec 16) (table : BitVec 8) (first : BitVec 16) (count : BitVec 8)
  /-- READ of the RESET table (R193). -/
  | resetRead (tag : BitVec 16) (first : BitVec 16) (count : BitVec 8)
  /-- COMMAND QUIET (R186). -/
  | quiet (tag : BitVec 16)
  /-- COMMAND WAKE (R190). -/
  | wake (tag : BitVec 16)
  /-- COMMAND RESTART (R191). -/
  | restart (tag : BitVec 16)
  /-- COMMAND JOIN (R109). -/
  | join (tag : BitVec 16) (lift : Fin 6)
  /-- COMMAND LEAVE (R112). -/
  | leave (tag : BitVec 16) (lift : Fin 6)
  /-- COMMAND ZONE_SHUT (R156). -/
  | zoneShut (tag : BitVec 16) (zone : Fin 8)
  /-- COMMAND ZONE_RESTORE (R164). -/
  | zoneRestore (tag : BitVec 16) (zone : Fin 8)
  /-- COMMAND SEAL_NOW (R163). -/
  | sealNow (tag : BitVec 16) (zone : Fin 8)
  /-- COMMAND CLEAR_FAULT (R72). -/
  | clearFault (tag : BitVec 16) (aisle : Fin 12)
  /-- COMMAND FLUSH (R79). -/
  | flush (tag : BitVec 16) (aisle : Fin 12)
  /-- COMMAND DAY (R128). -/
  | day (tag : BitVec 16) (day : BitVec 16)
  /-- DONE from the crane of an aisle (R67). -/
  | done (aisle : Fin 12) (job : BitVec 16) (position : RawPoint) (load : BitVec 16)
  /-- FAULT from the crane of an aisle (R71); the job tag may be absent. -/
  | fault (aisle : Fin 12) (code : BitVec 8) (job : Option (BitVec 16))
  /-- PARKED from the crane of an aisle (R75). -/
  | parked (aisle : Fin 12) (position : RawPoint) (load : BitVec 16)
  /-- STATUS from the crane of an aisle (R62): READY with a position and a load, or NOT_READY. -/
  | status (aisle : Fin 12) (ready : Bool) (position : RawPoint) (load : BitVec 16)
  /-- INFEED from the crane of an aisle (R77). -/
  | infeed (aisle : Fin 12) (bin : BitVec 16)
  /-- FITNESS from a lift: FIT or UNFIT (R110). -/
  | fitness (lift : Fin 6) (fit : Bool)
  /-- CARRIED from a lift (R118). -/
  | carried (lift : Fin 6) (carry : BitVec 16)
  /-- ITEM_OUT from a station (R131). -/
  | itemOut (station : Fin 24) (tag : BitVec 16) (item : BitVec 48)
  /-- BIN_DONE from a station (R96). -/
  | binDone (station : Fin 24) (bin : BitVec 16)
  /-- ITEM_IN from a station (R140). -/
  | itemIn (station : Fin 24) (tag : BitVec 16) (item : BitVec 48)
  /-- INTO_BIN from a station (R148). -/
  | intoBin (station : Fin 24) (tag : BitVec 16) (item : BitVec 48)
  /-- The move deadline of an aisle's job in flight expires (R70). -/
  | moveDeadlineExpiry (aisle : Fin 12)
  /-- The gather timer of an order expires (R93). -/
  | gatherTimerExpiry (number : BitVec 16)
  /-- The hold-off repeat timer expires (R104). -/
  | holdRepeatExpiry
  /-- A lift's answer timer expires (R109). -/
  | answerTimerExpiry (lift : Fin 6)
  /-- The deadline of one of a lift's carries expires (R119). -/
  | carryDeadlineExpiry (lift : Fin 6) (carry : BitVec 16)
  /-- The minute timer expires (R142). -/
  | minuteTimerExpiry
  /-- A zone's alarm debounce timer expires (R155). -/
  | alarmDebounceExpiry (zone : Fin 8)
  /-- A zone's park deadline expires (R159). -/
  | parkDeadlineExpiry (zone : Fin 8)
  /-- A zone's brake settle timer expires (R160). -/
  | brakeSettleExpiry (zone : Fin 8)
  /-- A zone's shutter timer expires in CLOSING (R161). -/
  | shutterCloseLimitExpiry (zone : Fin 8)
  /-- A zone's shutter timer expires in OPENING (R165). -/
  | shutterOpenLimitExpiry (zone : Fin 8)
  /-- A zone's ready timer expires (R167). -/
  | zoneReadyExpiry (zone : Fin 8)
  /-- Mode Control's park wait timer expires (R187). -/
  | parkWaitExpiry
  /-- Mode Control's wake ready timer expires (R190). -/
  | wakeReadyExpiry
  /-- The wiring of a local line presents something else (R176). -/
  | lineInputChange (line : Fin 48) (wiring : Wiring)
  /-- A line's call-key debounce timer expires (R181). -/
  | callKeyDebounceExpiry (line : Fin 48)
  /-- The supply is applied (R192). -/
  | powerOnReset
  /-- The reset line becomes asserted (R192). -/
  | pinReset
  /-- The reset line is released (R192). -/
  | resetLineRelease
  /-- The transmission of the ANSWER to RESTART has ended (R191). -/
  | commandReset
  /-- The reset period ends (R193). -/
  | resetPeriodEnd
  /-- The supply is lost (R192). -/
  | lossOfSupply
  deriving DecidableEq, Repr

end Sys2Proof
end

