-- ==== Sys2Proof/Decode.lean ====
section
/-! DEFINITION. The command that a word spells by the bits of spec/opcode_table.json. No row of the table gives
bits: the part takes telegrams and events, not instruction words (log entry 2). -/

namespace Sys2Proof

/-- The command that `nbits` bits spell by the table: none, since no row of the table gives bits. -/
def decodeTableWord (_nbits _w : Nat) : Option Instr := none

end Sys2Proof
end

