-- ==== Sys2Proof/Config.lean ====
section
/-! DEFINITION. What the part fixes once (capacities and fixed times), and the free values: constants with
no body, of which nothing can be proved. -/

namespace Sys2Proof.Config

/-- Most telegrams a send queue holds (R7). -/
def queueCapacity : Nat := 64

/-- Job records in the shared pool (R55). -/
def poolSize : Nat := 512

/-- Free records kept back for recovery stores (R55). -/
def poolReserve : Nat := 32

/-- Most item-table entries (R123). -/
def itemCapacity : Nat := 65536

/-- Most staging-list entries (R139). -/
def stagingCapacity : Nat := 4096

/-- Top of a bin's staged count (R139). -/
def stagedMax : Nat := 64

/-- Order records (R84). -/
def orderRecords : Nat := 256

/-- Bin ids run from 0 to one below this (section 2.5). -/
def binCount : Nat := 49152

/-- Most bytes of a telegram body (section 1.1.1). -/
def bodyMax : Nat := 240

/-- The bin id that stands for "no load" in every telegram and table (R80). -/
def noLoad : Nat := 65535

/-- The value at which a 32-bit count stays (R14, R80, R83, R121). -/
def countMax : Nat := 4294967295

/-- The length of a call-key debounce, in ms (R181). -/
def callKeyDebounce : Nat := 50

/-- The period of the minute timer, in ms (R142). -/
def minute : Nat := 60000

/-- From the release of the reset line (or the beginning of a command reset) to the end of the reset
period, in ms (R192). -/
def resetHold : Nat := 10

/-- The part's own station address (section 4.3 of the scope file). -/
def ownAddress : Nat := 126

/-- The broadcast address (section 4.3 of the scope file). -/
def broadcast : Nat := 127

/-- FREE VALUE. What an input pin reads while its wire is left open and its group has no pull: R177 says
only that the line "follows whatever the wiring presents". The argument counts the samples taken so, so
that each one is fresh. True stands for HIGH. Log entry 4. -/
opaque floatingPin : Nat → Bool

end Sys2Proof.Config
end

