-- ==== Sys2Proof/Machine/Tables.lean ====
section
/-! DEFINITION. The tables of the part as plain data. A table is a list of (index, value) pairs with the
indices strictly rising. Where every index of a table has a value, an index that the list does not name
reads as the table's default value, and no pair of the list holds that default (so that equal tables are
equal lists). Where entries may be absent (R15), an index that the list does not name is absent. -/

namespace Sys2Proof.Machine

/-- A table: (index, value) pairs, indices strictly rising. -/
abbrev Tab (α : Type) := List (Nat × α)

/-- The value listed at an index, if any. -/
def Tab.find {α : Type} : Tab α → Nat → Option α
  | [], _ => none
  | (i, a) :: t, k => if k = i then some a else Tab.find t k

/-- List a value at an index, in place of the one listed there. -/
def Tab.put {α : Type} : Tab α → Nat → α → Tab α
  | [], k, v => [(k, v)]
  | (i, a) :: t, k, v =>
    if k < i then (k, v) :: (i, a) :: t
    else if k = i then (k, v) :: t
    else (i, a) :: Tab.put t k v

/-- Strike the value listed at an index. -/
def Tab.del {α : Type} : Tab α → Nat → Tab α
  | [], _ => []
  | (i, a) :: t, k => if k = i then t else (i, a) :: Tab.del t k

/-- The value at an index of a table whose unlisted indices read as `d`. -/
def Tab.get {α : Type} (t : Tab α) (d : α) (k : Nat) : α := (t.find k).getD d

/-- Give an index of a table whose unlisted indices read as `d` the value `v`, keeping the table free of
listed defaults. -/
def Tab.set {α : Type} [DecidableEq α] (t : Tab α) (d : α) (k : Nat) (v : α) : Tab α :=
  if v = d then t.del k else t.put k v

/-- Change every listed value. -/
def Tab.mapVals {α β : Type} (t : Tab α) (f : α → β) : Tab β := t.map fun p => (p.1, f p.2)

/-- Change every entry of a table whose unlisted indices read as `d`, a value that the change keeps. -/
def Tab.mapSet {α : Type} [DecidableEq α] (t : Tab α) (d : α) (f : α → α) : Tab α :=
  (t.mapVals f).filter fun p => decide (p.2 ≠ d)

/-- The indices strictly rise. -/
abbrev Tab.wf {α : Type} (t : Tab α) : Prop := t.Pairwise fun p q => p.1 < q.1

/-- The indices strictly rise and no listed value is the default. -/
abbrev Tab.canonical {α : Type} [DecidableEq α] (t : Tab α) (d : α) : Prop :=
  t.wf ∧ ∀ p ∈ t, p.2 ≠ d

/-- `f` applied `n` times. -/
def repeatTimes {σ : Type} (f : σ → σ) : Nat → σ → σ
  | 0, s => s
  | n + 1, s => repeatTimes f n (f s)

/-- Run `f` over a list of keys, first to last, carrying the state along. -/
def forEach {α σ : Type} (xs : List α) (f : α → σ → σ) (s : σ) : σ := xs.foldl (fun s x => f x s) s

end Sys2Proof.Machine
end

