-- ==== Sys2Proof/Machine/State.lean ====
section
/-! DEFINITION. The state of the part: everything chapters 1 to 11 say it holds, grouped by the block that
owns it, and the queue of waiting commands. INVENTORY.md lists every field with the rule that names it. An
enumeration's constructors stand in the order in which the owning chapter first lists the values, because a
value travels as its position in that list (R23). A timer is held as the instant of the millisecond timebase
at which it expires, absent while it does not run. -/

namespace Sys2Proof.Machine

/-! ## Values named by the manual -/

/-- The two rack faces of an aisle (R25). -/
inductive Face where
  | left | right
  deriving DecidableEq, Repr

/-- A slot (R25, section 2.5). -/
structure Slot where
  aisle : Nat
  face : Face
  level : Nat
  column : Nat
  deriving DecidableEq, Repr

/-- A point of one aisle (R28). -/
inductive Point where
  | slot (face : Face) (level column : Nat)
  | front
  | infeed
  | park
  | crane
  deriving DecidableEq, Repr

/-- The reasons of section 1.7.2; a reason travels as its position, counting from 1. -/
inductive Reason where
  | badForm | unknownTable | indexRange | valueRange | slotTaken | binUnknown | binBusy | binInUse
  | itemBusy | itemUnknown | duplicate | itemTableFull | orderTableFull | orderUnknown | orderExists
  | tooLarge | stationUnfit | zoneShut | zoneBusy | alarmActive | aisleBusy | stationBusy | queueFull
  | wrongState | notLendable | notRequested | notStaged | stagingFull | renewLimit | noExtension
  deriving DecidableEq, Repr

/-- The outcomes of an ANSWER (R23). -/
inductive Verdict where
  | done | refused | clamped | partially
  deriving DecidableEq, Repr

/-- An address-table entry: a role with its unit index or zone (R8). -/
inductive AddrEntry where
  | none
  | crane (aisle : Nat)
  | lift (lift : Nat)
  | station (station : Nat)
  | device (zone : Nat)
  deriving DecidableEq, Repr

/-- A traffic-table entry (section 1.5). -/
inductive Treatment where
  | pass | guard | drop
  deriving DecidableEq, Repr

/-- One telegram: its header fields and its body; the check is computed when it is framed (section 1.1.1). -/
structure Telegram where
  dest : Nat
  src : Nat
  kind : Nat
  tag : Nat
  body : List Byte
  deriving DecidableEq, Repr

/-- How a queued telegram is treated (R7, R12): forwarded (and whether it was GUARD at arrival), a NOTICE,
one of the part's own kept telegrams, or a kept MOVE to the crane of an aisle. -/
inductive QueueClass where
  | forwarded (guarded : Bool)
  | notice
  | kept
  | move (aisle : Nat)
  deriving DecidableEq, Repr

/-- An entry of a send queue. -/
structure Queued where
  telegram : Telegram
  cls : QueueClass
  deriving DecidableEq, Repr

/-- Scheduling modes (R64, R65). -/
inductive SchedMode where
  | strict | weighted
  deriving DecidableEq, Repr

/-- Job classes (section 4.1). -/
inductive JobClass where
  | patron | restore | house
  deriving DecidableEq, Repr

/-- Job kinds (R56). -/
inductive JobKind where
  | fetch | store | relocate
  deriving DecidableEq, Repr

/-- A member of an order: order number and member position (R56, R115). That positions count from 0 is the model's
choice (log entry 40). -/
structure MemberRef where
  order : Nat
  pos : Nat
  deriving DecidableEq, Repr

/-- The owner of a job (R56). -/
inductive Owner where
  | member (ref : MemberRef)
  | shift
  | recovery
  deriving DecidableEq, Repr

/-- Crane states (R61). -/
inductive CraneState where
  | offline | ready | busy | parking | parked | faulted
  deriving DecidableEq, Repr

/-- Bin states (section 2.5). -/
inductive BinState where
  | stored | reserved | out | moving | blocked | stranded | adrift
  deriving DecidableEq, Repr

/-- Station kinds (R82). -/
inductive StationKind where
  | pick | reshelve | chute
  deriving DecidableEq, Repr

/-- Marks of a lane bin (R83). -/
inductive LaneMark where
  | lined | window | outbound
  deriving DecidableEq, Repr

/-- Order kinds (R84). -/
inductive OrderKind where
  | patron | restore
  deriving DecidableEq, Repr

/-- Order states (R84). -/
inductive OrderState where
  | waiting | admitted | presenting
  deriving DecidableEq, Repr

/-- Member states (R84). -/
inductive MemberState where
  | waitBin | queued | fetching | atFront | carrying | inLane | atWindow | returning | done | stranded
  | failed | cancelled
  deriving DecidableEq, Repr

/-- Membership words of a lift; ON and TAIL carry the lift's sequence number (section 6.2, R108). -/
inductive Word where
  | off
  | ask
  | on (seq : Nat)
  | tail (seq : Nat)
  | bar
  deriving DecidableEq, Repr

/-- Legs of a carry (R115). -/
inductive Leg where
  | up | down
  deriving DecidableEq, Repr

/-- Lending classes (R127). -/
inductive LendClass where
  | loanable | inhouseOnly | notLendable
  deriving DecidableEq, Repr

/-- The names of the item states (R123). -/
inductive ItemWord where
  | requested | lent | inhouse | returned
  deriving DecidableEq, Repr

/-- Zone states (R154). -/
inductive ZoneState where
  | clear | stopping | settling | closing | sealed | opening | enabling
  deriving DecidableEq, Repr

/-- Causes of a shutdown (R154). -/
inductive ZoneCause where
  | alarm | manual
  deriving DecidableEq, Repr

/-- Line selections (R175). -/
inductive Selection where
  | generalIn | generalOut | first | second
  deriving DecidableEq, Repr

/-- Line polarities (R176). -/
inductive Polarity where
  | activeHigh | activeLow
  deriving DecidableEq, Repr

/-- Pull settings (R177). -/
inductive Pull where
  | none | up | down
  deriving DecidableEq, Repr

/-- Part modes (R184). -/
inductive Mode where
  | run | draining | quiet | waking
  deriving DecidableEq, Repr

/-- Drain phases (R184). -/
inductive DrainPhase where
  | work | parkWait
  deriving DecidableEq, Repr

/-- Causes of a change of mode (R184). -/
inductive ModeCause where
  | command | staging | orders | drained | ready | readyLate | reset
  deriving DecidableEq, Repr

/-- Causes of NOTICE CRANE_FAULT: R71 names the first, R73 the other two, and no rule lists the three; their order is
the model's choice (log entry 58). -/
inductive FaultCause where
  | reported | parkLate | readyLate
  deriving DecidableEq, Repr

/-- Causes of NOTICE SHIFT_ENDED. The spec names none of them: one cause for each rule that R58 cites (R71, R72, R76,
R79), in the order of the citations, is the model's choice (log entry 48). -/
inductive ShiftCause where
  | fault | clearFault | parked | flush
  deriving DecidableEq, Repr

/-- Causes of NOTICE JOIN_FAILED (R121). -/
inductive JoinCause where
  | unfit | noAnswer
  deriving DecidableEq, Repr

/-- Causes of NOTICE LIFT_BARRED (R113). -/
inductive BarCause where
  | unfit | zone | carryLate
  deriving DecidableEq, Repr

/-- Causes of NOTICE NOT_TAKEN (R126). -/
inductive NotTakenCause where
  | binDone | cancel | orderEnd
  deriving DecidableEq, Repr

/-- Shutter directions (R174). -/
inductive ShutterDirection where
  | close | opening
  deriving DecidableEq, Repr

/-! ## Records of the tables -/

/-- The link's tables and counters (sections 1.4 to 1.6). Traffic entries are kept by direction: an
unlisted D-bound kind reads GUARD, an unlisted U-bound kind PASS (R10). -/
structure Link where
  addresses : Tab AddrEntry
  trafficDown : Tab Treatment
  trafficUp : Tab Treatment
  counters : Tab Nat
  deriving DecidableEq, Repr

/-- The two ports: send queues, notice sequence (R7, R22), and the frame whose transmission began last at
each port. -/
structure Ports where
  uQueue : List Queued
  dQueue : List Queued
  noticeSeq : Nat
  uLine : Option (List Byte)
  dLine : Option (List Byte)
  deriving DecidableEq, Repr

/-- The single-valued settings of the PARAMS table, in index order (R15). -/
structure Params where
  watermark : Nat
  holdTime : Nat
  holdRepeat : Nat
  moveMargin : Nat
  moveAllowance : Nat
  termEnd : Nat
  restoreThreshold : Nat
  restoreAge : Nat
  stagingWake : Nat
  orderWake : Nat
  wakeReadyLimit : Nat
  callKeyInhibit : Bool
  deriving DecidableEq, Repr

/-- The power-on values of the settings (R44, R105, R129, R143, R181, R185). -/
def Params.powerOn : Params :=
  { watermark := 192, holdTime := 10000, holdRepeat := 5000, moveMargin := 25, moveAllowance := 5000,
    termEnd := 0, restoreThreshold := 8, restoreAge := 240, stagingWake := 0, orderWake := 0,
    wakeReadyLimit := 60000, callKeyInhibit := false }

/-- An aisle record (section 2.1). -/
structure Aisle where
  levels : Nat
  columns : Nat
  frontOffset : Nat
  columnPitch : Nat
  levelPitch : Nat
  leftMirrored : Bool
  rightMirrored : Bool
  frontLevel : Nat
  infeedLevel : Nat
  frontSize : Nat
  infeedSize : Nat
  parkColumn : Nat
  parkLevel : Nat
  travelVmax : Nat
  travelAccel : Nat
  hoistVmax : Nat
  hoistAccel : Nat
  handling : Nat
  lowerZone : Nat
  upperZone : Nat
  split : Nat
  mode : SchedMode
  patronWeight : Nat
  restoreWeight : Nat
  houseWeight : Nat
  deriving DecidableEq, Repr

/-- An unconfigured aisle: every field reads as 0 (R25). -/
def Aisle.unconfigured : Aisle :=
  { levels := 0, columns := 0, frontOffset := 0, columnPitch := 0, levelPitch := 0, leftMirrored := false,
    rightMirrored := false, frontLevel := 0, infeedLevel := 0, frontSize := 0, infeedSize := 0,
    parkColumn := 0, parkLevel := 0, travelVmax := 0, travelAccel := 0, hoistVmax := 0, hoistAccel := 0,
    handling := 0, lowerZone := 0, upperZone := 0, split := 0, mode := .strict, patronWeight := 0,
    restoreWeight := 0, houseWeight := 0 }

/-- A present bin record (section 2.5). -/
structure Bin where
  home : Slot
  state : BinState
  target : Option Slot
  staged : Nat
  pending : Bool
  itemRefs : Nat
  deriving DecidableEq, Repr

/-- The Storage Map. -/
structure StorageMap where
  aisles : Tab Aisle
  bins : Tab Bin
  deriving DecidableEq, Repr

/-- A job record in use (R56). -/
structure Job where
  kind : JobKind
  cls : JobClass
  bin : Nat
  origin : Point
  dest : Point
  owner : Owner
  deriving DecidableEq, Repr

/-- A job in flight, with the fields present only then (R56) and its deadline timer (R50). -/
structure Flight where
  job : Job
  tag : Nat
  estimate : Nat
  deadline : Nat
  late : Bool
  timer : Option Nat
  deriving DecidableEq, Repr

/-- A crane's recorded position, with its load: the load is absent whenever the position is (R61). -/
structure Place where
  point : Point
  load : Option Nat
  deriving DecidableEq, Repr

/-- The crane record of an aisle with the aisle's class queues, credits, front list and infeed list
(R57, R60, R61, R65) and the three counts of R80. -/
structure Crane where
  state : CraneState
  place : Option Place
  flight : Option Flight
  faultCode : Option Nat
  patronQueue : List Job
  restoreQueue : List Job
  houseQueue : List Job
  patronCredit : Nat
  restoreCredit : Nat
  houseCredit : Nat
  front : List Nat
  infeed : List Nat
  unmatched : Nat
  rejected : Nat
  refusedRecoveries : Nat
  deriving DecidableEq, Repr

/-- A crane and its aisle's work after a power-on reset (R81). -/
def Crane.idle : Crane :=
  { state := .offline, place := none, flight := none, faultCode := none, patronQueue := [],
    restoreQueue := [], houseQueue := [], patronCredit := 0, restoreCredit := 0, houseCredit := 0,
    front := [], infeed := [], unmatched := 0, rejected := 0, refusedRecoveries := 0 }

/-- Crane Dispatch: the crane records and the job-tag counter (R56). -/
structure CraneDispatch where
  cranes : Tab Crane
  jobTag : Nat
  deriving DecidableEq, Repr

/-- A bin in a station's lane, with its mark and the member it serves (R83). -/
structure LaneBin where
  bin : Nat
  mark : LaneMark
  ref : MemberRef
  deriving DecidableEq, Repr

/-- A station record: configuration (R82) and state (R83). Queues and owner name orders by number. -/
structure Station where
  kind : StationKind
  zone : Nat
  laneSize : Nat
  slack : Nat
  orderQueue : List Nat
  lane : List LaneBin
  reservations : Nat
  owner : Option Nat
  presQueue : List Nat
  unmatched : Nat
  deriving DecidableEq, Repr

/-- A station after a power-on reset (R82, R106). -/
def Station.powerOn : Station :=
  { kind := .chute, zone := 0, laneSize := 2, slack := 0, orderQueue := [], lane := [], reservations := 0,
    owner := none, presQueue := [], unmatched := 0 }

/-- A member of an order (R84). -/
structure Member where
  bin : Nat
  items : List Nat
  state : MemberState
  held : Nat
  deriving DecidableEq, Repr

/-- An order record (R84). `admission` is the order's place in the sequence of admissions, and `listOpen`
says that a restore order's item list is open (R147). -/
structure Order where
  number : Nat
  kind : OrderKind
  station : Nat
  patron : Nat
  state : OrderState
  gathered : Bool
  gatherLimit : Option Nat
  gatherStart : Option Nat
  gatherTimer : Option Nat
  taken : Nat
  notTaken : Nat
  members : List Member
  admission : Nat
  listOpen : Bool
  deriving DecidableEq, Repr

/-- The Order Unit (chapter 5). `admissions` counts the admissions since the last reset. -/
structure OrderUnit where
  stations : Tab Station
  orders : Tab Order
  restoreNumber : Nat
  holding : Bool
  holdTimer : Option Nat
  admissions : Nat
  deriving DecidableEq, Repr

/-- A carry in flight (R117). -/
structure Carry where
  tag : Nat
  bin : Nat
  leg : Leg
  aisle : Nat
  station : Nat
  ref : MemberRef
  late : Bool
  timer : Option Nat
  deriving DecidableEq, Repr

/-- A lift record (R107, R121). -/
structure Lift where
  zone : Nat
  mask : BitVec 24
  carriers : Nat
  carryLimit : Nat
  answerLimit : Nat
  word : Word
  answerTimer : Option Nat
  carries : List Carry
  unmatched : Nat
  deriving DecidableEq, Repr

/-- A lift after a power-on reset (R107, R122). -/
def Lift.powerOn : Lift :=
  { zone := 0, mask := 0, carriers := 1, carryLimit := 60000, answerLimit := 5000, word := .off,
    answerTimer := none, carries := [], unmatched := 0 }

/-- An entry of the carry wait list (R115). -/
structure WaitEntry where
  bin : Nat
  leg : Leg
  aisle : Nat
  station : Nat
  ref : MemberRef
  deriving DecidableEq, Repr

/-- The Lift Pool (chapter 6). -/
structure LiftPool where
  lifts : Tab Lift
  pointer : Nat
  carryTag : Nat
  waitList : List WaitEntry
  deriving DecidableEq, Repr

/-- The fields of a loan (R123). -/
structure Loan where
  lendDay : Nat
  dueDay : Nat
  renewals : Nat
  deriving DecidableEq, Repr

/-- The state of an item entry with the fields present in it (R123). -/
inductive ItemState where
  | requested (order : Nat)
  | lent (loan : Loan)
  | inhouse (loan : Loan)
  | returned (loan : Loan) (scanDay : Nat)
  deriving DecidableEq, Repr

/-- An item entry, keyed by its tag (R123). -/
structure Item where
  bin : Nat
  category : Nat
  state : ItemState
  deriving DecidableEq, Repr

/-- A lending class entry (R127). -/
structure ClassRecord where
  cls : LendClass
  period : Nat
  renewLimit : Nat
  deriving DecidableEq, Repr

/-- The power-on lending class entry (R127). -/
def ClassRecord.powerOn : ClassRecord := { cls := .loanable, period := 28, renewLimit := 2 }

/-- The Loan Table (chapter 7). -/
structure LoanTable where
  items : Tab Item
  classes : Tab ClassRecord
  today : Nat
  deriving DecidableEq, Repr

/-- A staging entry (R139). -/
structure StageEntry where
  item : Nat
  bin : Nat
  scanDay : Nat
  age : Nat
  deriving DecidableEq, Repr

/-- The Return Unit (chapter 8). -/
structure ReturnUnit where
  staging : List StageEntry
  minuteTimer : Option Nat
  deriving DecidableEq, Repr

/-- A zone record: settings (R153), state (R154), the alarm level handed last and the debounce timer (R155),
the zone's own timer, and the awaited set of its STOPPING (R158). -/
structure Zone where
  debounce : Nat
  parkAllowance : Nat
  brakeSettle : Nat
  shutterLimit : Nat
  readyLimit : Nat
  state : ZoneState
  cause : Option ZoneCause
  fault : Bool
  timer : Option Nat
  alarm : Bool
  debounceTimer : Option Nat
  awaited : List Nat
  deriving DecidableEq, Repr

/-- A zone after a power-on reset (R153, R173). -/
def Zone.powerOn : Zone :=
  { debounce := 500, parkAllowance := 10000, brakeSettle := 2000, shutterLimit := 30000, readyLimit := 60000,
    state := .clear, cause := none, fault := false, timer := none, alarm := false, debounceTimer := none,
    awaited := [] }

/-- A local line: the fields of its record (R175, R176), what its wire presents, the pin level of an input
(true is HIGH), and its call-key debounce timer (R181). -/
structure Line where
  selection : Selection
  polarity : Polarity
  output : Bool
  wiring : Wiring
  pin : Bool
  keyTimer : Option Nat
  deriving DecidableEq, Repr

/-- A line after a power-on reset (R182), its wire presenting LOW (log entry 3). -/
def Line.powerOn : Line :=
  { selection := .generalIn, polarity := .activeHigh, output := false, wiring := .low, pin := false,
    keyTimer := none }

/-- The Line Block's tables (chapter 10). -/
structure LineBlock where
  lines : Tab Line
  pulls : Tab Pull
  deriving DecidableEq, Repr

/-- The levels kept for the outputs (R179, R180): the aisles whose drive-enable level and the zones whose
shutter-close level is asserted, each list rising, and the beacon level. -/
structure Outputs where
  drives : List Nat
  shutters : List Nat
  beacon : Bool
  deriving DecidableEq, Repr

/-- Mode Control (chapter 11), less the reset record. -/
structure ModeControl where
  mode : Mode
  phase : Option DrainPhase
  timer : Option Nat
  awaited : List Nat
  lastStaging : Nat
  lastWaiting : Nat
  deriving DecidableEq, Repr

/-- The reset record (R193). -/
structure ResetRecord where
  power : Bool
  pin : Bool
  command : Bool
  count : Nat
  deriving DecidableEq, Repr

/-- Whether the part takes events: it runs; it waits for the ANSWER to RESTART to leave (R191); it is in a
reset period (R192); or it has no supply. -/
inductive Phase where
  | running | restarting | resetting | unpowered
  deriving DecidableEq, Repr

/-- The course of resets: the phase, the level of the reset line, the instant at which a running reset
period ends (absent while it waits for the line), and the reset record. -/
structure ResetControl where
  phase : Phase
  lineAsserted : Bool
  ending : Option Nat
  record : ResetRecord
  deriving DecidableEq, Repr

/-! ## The workspace of an event -/

/-- A NOTICE with its fields (the notice tables of chapters 1 and 4 to 11). -/
inductive Notice where
  | guardDrop (dest kind : Nat)
  | moveLate (aisle tag : Nat) (kind : JobKind) (bin : Nat)
  | moveLateDone (aisle tag : Nat) (kind : JobKind) (bin : Nat)
  | craneFault (aisle : Nat) (cause : FaultCause) (code : Option Nat) (job : Option (Nat × Nat))
  | shiftDone (bin : Nat) (home : Slot)
  | shiftEnded (bin : Nat) (state : BinState) (cause : ShiftCause)
  | recoveryQueued (aisle bin : Nat) (origin : Point)
  | unexpectedLoad (aisle bin : Nat)
  | gatherPartial (order inLane expected : Nat)
  | orderEnd (order : Nat) (kind : OrderKind) (station patron taken notTaken stranded failed cancelled : Nat)
  | memberLost (order pos bin : Nat) (state : MemberState)
  | joinFailed (lift : Nat) (cause : JoinCause)
  | liftBarred (lift : Nat) (cause : BarCause) (stranded : Nat)
  | carryLate (lift tag bin : Nat)
  | carryLateDone (lift tag bin : Nat)
  | carryGivenUp (lift tag bin : Nat)
  | lent (order patron item : Nat) (state : ItemWord) (due : Nat)
  | notTaken (order patron item : Nat) (cause : NotTakenCause)
  | returned (station item bin : Nat) (before : ItemWord) (due scan : Nat)
  | exception (station item : Nat) (reason : Reason)
  | restored (order item bin : Nat)
  | zoneState (zone : Nat) (state : ZoneState) (cause : Option ZoneCause) (fault : Bool)
  | shutterFault (zone : Nat) (direction : ShutterDirection)
  | callKey (line : Nat)
  | modeState (mode : Mode) (cause : ModeCause)
  | resetDone (record : ResetRecord)
  deriving DecidableEq, Repr

/-- What an event sends up besides its ANSWER. -/
inductive UpMsg where
  | notice (n : Notice)
  | holdoff (ms : Nat)
  deriving DecidableEq, Repr

/-- A restore test owed at the end of an event (R145): an attempt for one bin, or a pass. -/
inductive RestoreTest where
  | bin (bin : Nat)
  | pass
  deriving DecidableEq, Repr

/-- The MODEL's own workspace, empty between events: what the event now being taken has to send, and the
follow-on tests that the rules put at its end. `testsHeld` suspends dispatch tests (R79). `bars` holds, while a WRITE
may shut several zones in one event, the lifts that they bar (R111). `control` says that a crane has changed state
(R61), `zoneTests` names the zones whose own tests came to be owed by an entry or a change of drive level, and
`modeTest` says so of Mode Control's (R158, R166, R187, R190). -/
structure Work where
  up : List UpMsg
  down : List Queued
  testsHeld : Bool
  bars : Option (List Nat)
  control : Bool
  zoneTests : List Nat
  modeTest : Bool
  drain : Bool
  scan : Bool
  admission : Bool
  restore : List RestoreTest
  waiting : Bool
  hold : Bool
  deriving DecidableEq, Repr

/-- An empty workspace. -/
def Work.empty : Work :=
  { up := [], down := [], testsHeld := false, bars := none, control := false, zoneTests := [], modeTest := false
    drain := false, scan := false, admission := false, restore := [], waiting := false, hold := false }

/-! ## The state -/

/-- The state of the part. `now` is the millisecond timebase (section 4.1 of the scope file); `floats` counts
the free pin samples taken; `pending` is the queue of commands that wait, the first to come at its head. -/
structure State where
  link : Link
  ports : Ports
  params : Params
  store : StorageMap
  dispatch : CraneDispatch
  desk : OrderUnit
  pool : LiftPool
  loans : LoanTable
  returns : ReturnUnit
  zones : Tab Zone
  lines : LineBlock
  outputs : Outputs
  mode : ModeControl
  resets : ResetControl
  now : Nat
  floats : Nat
  work : Work
  pending : List Instr
  deriving DecidableEq, Repr

/-- Why the part stops. The manual names no event that stops the part: nothing raises this, and the type
is inhabited only so that it can be written. Safe. -/
inductive Fault where
  /-- Raised by no meaning. Safe. -/
  | unraised
  deriving DecidableEq, Repr

/-- Why a command is refused. -/
inductive Refusal where
  /-- Raised by exec's arm of a command that has no meaning yet. Safe. -/
  | notModelled (mnemonic : String)
  deriving DecidableEq, Repr

/-- The NOTICE telegram with a sequence number and a body (R22). -/
def noticeTelegram (seq : Nat) (body : List Byte) : Queued :=
  { telegram := { dest := 0, src := 126, kind := 17, tag := seq, body := body }, cls := .notice }

/-- The part right after a power-on reset: every table at its power-on values, the mode RUN reached in the
event that ended the reset period, and that event's three NOTICEs still in the U send queue: RESET_DONE,
MODE_STATE WAKING with cause RESET and MODE_STATE RUN with cause READY (R24, R41, R54, R81, R106, R122, R137,
R151, R173, R182, R193). The minute timer has just started (R142). -/
def State.reset : State :=
  { link := { addresses := [], trafficDown := [], trafficUp := [], counters := [] }
    ports :=
      { uQueue := [noticeTelegram 0 [111, 0, 1, 1, 0], noticeTelegram 1 [110, 3, 6],
          noticeTelegram 2 [110, 0, 4]]
        dQueue := [], noticeSeq := 3, uLine := none, dLine := none }
    params := Params.powerOn
    store := { aisles := [], bins := [] }
    dispatch := { cranes := [], jobTag := 0 }
    desk :=
      { stations := [], orders := [], restoreNumber := 32768, holding := false, holdTimer := none,
        admissions := 0 }
    pool := { lifts := [], pointer := 0, carryTag := 0, waitList := [] }
    loans := { items := [], classes := [], today := 0 }
    returns := { staging := [], minuteTimer := some 60000 }
    zones := []
    lines := { lines := [], pulls := [] }
    outputs := { drives := [], shutters := [], beacon := false }
    mode := { mode := .run, phase := none, timer := none, awaited := [], lastStaging := 0, lastWaiting := 0 }
    resets :=
      { phase := .running, lineAsserted := false, ending := none,
        record := { power := true, pin := false, command := false, count := 0 } }
    now := 0
    floats := 0
    work := Work.empty
    pending := [] }

end Sys2Proof.Machine
end

