-- ==== Sys2Proof/Machine/Wire.lean ====
section
/-! DEFINITION. Bytes on the wing link: fields high byte first (R23), the check and the frame of a telegram
(section 1.1.1, R3), and the codes of named values (R23: the position in the list in which the owning chapter
first gives the set; reasons count from 1). -/

namespace Sys2Proof.Machine

/-! ## Fields -/

/-- A number as `w` bytes, high byte first (R23). -/
def be : (w n : Nat) → List Byte
  | 0, _ => []
  | w + 1, n => BitVec.ofNat 8 (n / 256 ^ w) :: be w n

/-- The number that bytes carry, high byte first. -/
def ofBe (bs : List Byte) : Nat := bs.foldl (fun n b => n * 256 + b.toNat) 0

/-- The field values that a body carries in fields of the given widths, in order; a body that ends early
gives no further values. -/
def splitFields : (widths : List Nat) → List Byte → List Nat
  | [], _ => []
  | w :: ws, bs => ofBe (bs.take w) :: splitFields ws (bs.drop w)

/-- A body cut into entries of `w` bytes, `n` of them. -/
def splitEntries (w : Nat) : (n : Nat) → List Byte → List (List Byte)
  | 0, _ => []
  | n + 1, bs => bs.take w :: splitEntries w n (bs.drop w)

/-! ## The check and the frame -/

/-- One bit of the CRC register with the generator x¹⁶ + x¹² + x⁵ + 1 (R3). -/
def crcBit (c : BitVec 16) : BitVec 16 := if c.msb then (c <<< 1) ^^^ 0x1021#16 else c <<< 1

/-- One byte into the CRC register, most significant bit first (R3). -/
def crcByte (c : BitVec 16) (b : Byte) : BitVec 16 :=
  repeatTimes crcBit 8 (c ^^^ ((b.setWidth 16) <<< 8))

/-- The check over bytes, the register preset to all ones, with no final inversion (R3). -/
def crc (bs : List Byte) : BitVec 16 := bs.foldl crcByte 0xFFFF#16

/-- The bytes of a telegram before its check (section 1.1.1). -/
def Telegram.unchecked (t : Telegram) : List Byte :=
  be 1 t.dest ++ be 1 t.src ++ be 1 t.kind ++ be 1 t.body.length ++ be 2 t.tag ++ t.body

/-- The frame of a telegram (section 1.1.1). -/
def Telegram.frame (t : Telegram) : List Byte := t.unchecked ++ be 2 (crc t.unchecked).toNat

/-- The telegram that a frame carries, if the frame passes the tests of R3. -/
def parseFrame (f : List Byte) : Option Telegram :=
  match f with
  | d :: s :: k :: l :: t1 :: t0 :: rest =>
    if l.toNat ≤ Config.bodyMax ∧ f.length = 8 + l.toNat ∧ d.toNat < 128 ∧ s.toNat < 128 ∧ k.toNat < 64 ∧
        ofBe (rest.drop l.toNat) = (crc (f.take (6 + l.toNat))).toNat then
      some { dest := d.toNat, src := s.toNat, kind := k.toNat, tag := ofBe [t1, t0], body := rest.take l.toNat }
    else none
  | _ => none

/-! ## Codes of named values -/

/-- A presence field: PRESENT 0, ABSENT 1 (R15). -/
def presenceCode (b : Bool) : Nat := if b then 0 else 1

/-- A flag: SET 0, CLEAR 1 (section 2.5, R56, R193). -/
def flagCode (b : Bool) : Nat := if b then 0 else 1

/-- A logical level: ASSERTED 0, DEASSERTED 1 (R176). -/
def levelCode (b : Bool) : Nat := if b then 0 else 1

/-- A timer's state: RUNNING 0, STOPPED 1 (R174, R176). -/
def timerCode (b : Bool) : Nat := if b then 0 else 1

/-- Kinds of telegram have the codes of R1; these are the part's own. -/
def kindAnswer : Nat := 16
/-- NOTICE (R1). -/
def kindNotice : Nat := 17
/-- HOLDOFF (R1). -/
def kindHoldoff : Nat := 18
/-- MOVE (R1). -/
def kindMove : Nat := 24
/-- PARK (R1). -/
def kindPark : Nat := 25
/-- MEMBER (R1). -/
def kindMember : Nat := 26
/-- CARRY (R1). -/
def kindCarry : Nat := 27
/-- PRESENT (R1). -/
def kindPresent : Nat := 28
/-- WITHDRAW (R1). -/
def kindWithdraw : Nat := 29
/-- VERDICT (R1). -/
def kindVerdict : Nat := 30

/-- NORMAL 0, MIRRORED 1 (section 2.1). -/
def mirrorCode (b : Bool) : Nat := if b then 1 else 0

/-- The outcome's code (R23). -/
def Verdict.code : Verdict → Nat
  | .done => 0 | .refused => 1 | .clamped => 2 | .partially => 3

/-- The reason's code, counting from 1 (section 1.7.2). -/
def Reason.code : Reason → Nat
  | .badForm => 1 | .unknownTable => 2 | .indexRange => 3 | .valueRange => 4 | .slotTaken => 5
  | .binUnknown => 6 | .binBusy => 7 | .binInUse => 8 | .itemBusy => 9 | .itemUnknown => 10
  | .duplicate => 11 | .itemTableFull => 12 | .orderTableFull => 13 | .orderUnknown => 14 | .orderExists => 15
  | .tooLarge => 16 | .stationUnfit => 17 | .zoneShut => 18 | .zoneBusy => 19 | .alarmActive => 20
  | .aisleBusy => 21 | .stationBusy => 22 | .queueFull => 23 | .wrongState => 24 | .notLendable => 25
  | .notRequested => 26 | .notStaged => 27 | .stagingFull => 28 | .renewLimit => 29 | .noExtension => 30

/-- A reason's code, 0 for none (section 1.7.2). -/
def reasonCode : Option Reason → Nat
  | some r => r.code
  | none => 0

/-- LEFT 0, RIGHT 1 (R25). -/
def Face.code : Face → Nat
  | .left => 0 | .right => 1

/-- The code of a traffic entry (section 1.5). -/
def Treatment.code : Treatment → Nat
  | .pass => 0 | .guard => 1 | .drop => 2

/-- The code of a scheduling mode (section 2.1). -/
def SchedMode.code : SchedMode → Nat
  | .strict => 0 | .weighted => 1

/-- The code of a job class (R56). -/
def JobClass.code : JobClass → Nat
  | .patron => 0 | .restore => 1 | .house => 2

/-- The code of a job kind (R56). -/
def JobKind.code : JobKind → Nat
  | .fetch => 0 | .store => 1 | .relocate => 2

/-- The code of a crane state (R61). -/
def CraneState.code : CraneState → Nat
  | .offline => 0 | .ready => 1 | .busy => 2 | .parking => 3 | .parked => 4 | .faulted => 5

/-- The code of a bin state (section 2.5). -/
def BinState.code : BinState → Nat
  | .stored => 0 | .reserved => 1 | .out => 2 | .moving => 3 | .blocked => 4 | .stranded => 5 | .adrift => 6

/-- The code of a station kind (R82). -/
def StationKind.code : StationKind → Nat
  | .pick => 0 | .reshelve => 1 | .chute => 2

/-- The code of a lane mark (R83). -/
def LaneMark.code : LaneMark → Nat
  | .lined => 0 | .window => 1 | .outbound => 2

/-- The code of an order kind (R84). -/
def OrderKind.code : OrderKind → Nat
  | .patron => 0 | .restore => 1

/-- The code of an order state (R84). -/
def OrderState.code : OrderState → Nat
  | .waiting => 0 | .admitted => 1 | .presenting => 2

/-- The code of a member state (R84). -/
def MemberState.code : MemberState → Nat
  | .waitBin => 0 | .queued => 1 | .fetching => 2 | .atFront => 3 | .carrying => 4 | .inLane => 5
  | .atWindow => 6 | .returning => 7 | .done => 8 | .stranded => 9 | .failed => 10 | .cancelled => 11

/-- The code of a membership word (R121). -/
def Word.code : Word → Nat
  | .off => 0 | .ask => 1 | .on _ => 2 | .tail _ => 3 | .bar => 4

/-- The sequence number of a word that has one (R108). -/
def Word.seq : Word → Option Nat
  | .on q => some q
  | .tail q => some q
  | _ => none

/-- The code of a leg (R115). -/
def Leg.code : Leg → Nat
  | .up => 0 | .down => 1

/-- The code of a lending class (R127). -/
def LendClass.code : LendClass → Nat
  | .loanable => 0 | .inhouseOnly => 1 | .notLendable => 2

/-- The code of an item state (R123). -/
def ItemWord.code : ItemWord → Nat
  | .requested => 0 | .lent => 1 | .inhouse => 2 | .returned => 3

/-- The code of a zone state (R154). -/
def ZoneState.code : ZoneState → Nat
  | .clear => 0 | .stopping => 1 | .settling => 2 | .closing => 3 | .sealed => 4 | .opening => 5 | .enabling => 6

/-- The code of a shutdown cause (R154). -/
def ZoneCause.code : ZoneCause → Nat
  | .alarm => 0 | .manual => 1

/-- The code of a line selection (R175). -/
def Selection.code : Selection → Nat
  | .generalIn => 0 | .generalOut => 1 | .first => 2 | .second => 3

/-- The code of a polarity (R176). -/
def Polarity.code : Polarity → Nat
  | .activeHigh => 0 | .activeLow => 1

/-- The code of a pull (R177). -/
def Pull.code : Pull → Nat
  | .none => 0 | .up => 1 | .down => 2

/-- The code of a part mode (R184). -/
def Mode.code : Mode → Nat
  | .run => 0 | .draining => 1 | .quiet => 2 | .waking => 3

/-- The code of a drain phase (R184). -/
def DrainPhase.code : DrainPhase → Nat
  | .work => 0 | .parkWait => 1

/-- The code of a mode cause (R184). -/
def ModeCause.code : ModeCause → Nat
  | .command => 0 | .staging => 1 | .orders => 2 | .drained => 3 | .ready => 4 | .readyLate => 5 | .reset => 6

/-- The code of a crane fault's cause (R71, R73), in the order in which chapter 4 first names the three: the model's
choice (log entry 58). -/
def FaultCause.code : FaultCause → Nat
  | .reported => 0 | .parkLate => 1 | .readyLate => 2

/-- The code of the cause of a SHIFT's end (R58): the model's choice (log entry 48). -/
def ShiftCause.code : ShiftCause → Nat
  | .fault => 0 | .clearFault => 1 | .parked => 2 | .flush => 3

/-- The code of a failed join's cause (R121). -/
def JoinCause.code : JoinCause → Nat
  | .unfit => 0 | .noAnswer => 1

/-- The code of a bar's cause (R121). -/
def BarCause.code : BarCause → Nat
  | .unfit => 0 | .zone => 1 | .carryLate => 2

/-- The code of the cause of NOT_TAKEN (section 7.10). -/
def NotTakenCause.code : NotTakenCause → Nat
  | .binDone => 0 | .cancel => 1 | .orderEnd => 2

/-- The code of a shutter direction (R174). -/
def ShutterDirection.code : ShutterDirection → Nat
  | .close => 0 | .opening => 1

/-! ## Composite fields -/

/-- A field given as "X or none": a presence field followed by X, X being zeros where it is absent (R23). -/
def optional (w : Nat) : Option Nat → List Byte
  | some v => be 1 (presenceCode true) ++ be w v
  | none => be 1 (presenceCode false) ++ be w 0

/-- A point: kind, face, level and column, the last three 0 where it is no SLOT (R28). -/
def Point.bytes : Point → List Byte
  | .slot f l c => be 1 0 ++ be 1 f.code ++ be 1 l ++ be 1 c
  | .front => be 1 1 ++ be 3 0
  | .infeed => be 1 2 ++ be 3 0
  | .park => be 1 3 ++ be 3 0
  | .crane => be 1 4 ++ be 3 0

/-- A slot: aisle, face, level and column (section 2.5). -/
def Slot.bytes (t : Slot) : List Byte := be 1 t.aisle ++ be 1 t.face.code ++ be 1 t.level ++ be 1 t.column

/-- A load: the bin id, 65535 for none (R80). -/
def loadBytes : Option Nat → List Byte
  | some b => be 2 b
  | none => be 2 Config.noLoad

end Sys2Proof.Machine
end

