-- ==== Sys2Proof/Machine/Forms.lean ====
section
/-! DEFINITION. From a telegram taken by the part to the command it carries: the form of each kind (R1, R5), the
fields of its body (R23), and the entries of a WRITE (R15, R16). -/

namespace Sys2Proof.Machine

/-- What becomes of a telegram taken from the U port: it has bad form, it is refused under its kind with a
reason, or it is a request to be handed on (R5, R16, R20). -/
inductive TakenUp where
  | badForm
  | refused (r : Reason)
  | writeRefused (r : Reason)
  | request (c : Instr)
  deriving DecidableEq, Repr

/-- A report taken from the D port, the unit not yet identified (R5, R6). -/
inductive Report where
  | crane (make : Fin 12 → Instr)
  | lift (make : Fin 6 → Instr)
  | station (make : Fin 24 → Instr)
  | ignored (role : Nat)

/-- A number as a bit vector of a field's width. -/
abbrev word (w n : Nat) : BitVec w := BitVec.ofNat w n

/-! ## ORDER, CANCEL, RENEW, SHIFT and READ -/

/-- A listed item of an ORDER. -/
def itemOf (bs : List Byte) : OrderItem :=
  let f := splitFields [6, 2, 1] bs
  { item := word 48 (f.getD 0 0), bin := word 16 (f.getD 1 0), category := word 8 (f.getD 2 0) }

/-- ORDER: 7 bytes and 1 to 8 items of 9 bytes (R5, R85). -/
def orderForm (tag : BitVec 16) (b : List Byte) : TakenUp :=
  let n := (b.length - 7) / 9
  if b.length = 7 + 9 * n ∧ 1 ≤ n ∧ n ≤ 8 then
    let f := splitFields [2, 1, 4] b
    .request (.order tag (word 16 (f.getD 0 0)) (word 8 (f.getD 1 0)) (word 32 (f.getD 2 0))
      ((splitEntries 9 n (b.drop 7)).map itemOf))
  else .badForm

/-- CANCEL (R1, R99). -/
def cancelForm (tag : BitVec 16) (b : List Byte) : TakenUp :=
  if b.length = 2 then .request (.cancel tag (word 16 (ofBe b))) else .badForm

/-- RENEW (R1, R134). -/
def renewForm (tag : BitVec 16) (b : List Byte) : TakenUp :=
  if b.length = 6 then .request (.renew tag (word 48 (ofBe b))) else .badForm

/-- A slot of a body (R23). -/
def slotAt (f : List Nat) (i : Nat) : RawSlot :=
  { aisle := word 8 (f.getD i 0), face := word 8 (f.getD (i + 1) 0), level := word 8 (f.getD (i + 2) 0),
    column := word 8 (f.getD (i + 3) 0) }

/-- SHIFT (R1, R58). -/
def shiftForm (tag : BitVec 16) (b : List Byte) : TakenUp :=
  let f := splitFields [2, 1, 1, 1, 1] b
  if b.length = 6 then .request (.shift tag (word 16 (f.getD 0 0)) (slotAt f 1)) else .badForm

/-- READ; the RESET table has a command of its own (R1, R19, R193). -/
def readForm (tag : BitVec 16) (b : List Byte) : TakenUp :=
  let f := splitFields [1, 2, 1] b
  if b.length = 4 then
    if f.getD 0 0 = 18 then .request (.resetRead tag (word 16 (f.getD 1 0)) (word 8 (f.getD 2 0)))
    else .request (.read tag (word 8 (f.getD 0 0)) (word 16 (f.getD 1 0)) (word 8 (f.getD 2 0)))
  else .badForm

/-! ## COMMAND -/

/-- A command with a unit argument below a bound (R20). -/
def unitCommand (n arg : Nat) (make : Fin n → Instr) : TakenUp :=
  if h : arg < n then .request (make ⟨arg, h⟩) else .refused .valueRange

/-- COMMAND: a name, by its place in the list of R20, and an argument (R20). -/
def commandForm (tag : BitVec 16) (b : List Byte) : TakenUp :=
  let f := splitFields [1, 2] b
  let arg := f.getD 1 0
  if b.length = 3 then
    match f.getD 0 0 with
    | 0 => .request (.quiet tag)
    | 1 => .request (.wake tag)
    | 2 => .request (.restart tag)
    | 3 => unitCommand 6 arg (.join tag)
    | 4 => unitCommand 6 arg (.leave tag)
    | 5 => unitCommand 8 arg (.zoneShut tag)
    | 6 => unitCommand 8 arg (.zoneRestore tag)
    | 7 => unitCommand 8 arg (.sealNow tag)
    | 8 => unitCommand 12 arg (.clearFault tag)
    | 9 => unitCommand 12 arg (.flush tag)
    | 10 => .request (.day tag (word 16 arg))
    | _ => .refused .valueRange
  else .badForm

/-! ## WRITE -/

/-- The entry length of a table in bytes (R15; log entry 7). -/
def entryLength (table : Nat) : Option Nat :=
  match table with
  | 1 => some 5
  | 2 => some 1
  | 3 => some 4
  | 4 => some 4
  | 5 => some 33
  | 6 => some 16
  | 7 => some 50
  | 8 => some 46
  | 9 => some 55
  | 10 => some 47
  | 11 => some 20
  | 12 => some 4
  | 13 => some 12
  | 14 => some 30
  | 15 => some 8
  | 16 => some 1
  | 17 => some 12
  | 18 => some 4
  | _ => none

/-- A carried ADDRESS entry (R8). -/
def addressEntryOf (bs : List Byte) : AddressEntry :=
  let f := splitFields [1, 1, 1, 1, 1] bs
  { role := f.getD 0 0, unitPresence := f.getD 1 0, unit := f.getD 2 0, zonePresence := f.getD 3 0, zone := f.getD 4 0 }

/-- A carried AISLE entry (section 2.1). -/
def aisleEntryOf (bs : List Byte) : AisleEntry :=
  let f := splitFields [1, 1, 2, 2, 2, 1, 1, 1, 1, 1, 1, 1, 1, 2, 2, 2, 2, 2, 1, 1, 1, 1, 1, 1, 1] bs
  { levels := f.getD 0 0, columns := f.getD 1 0, frontOffset := f.getD 2 0, columnPitch := f.getD 3 0
    levelPitch := f.getD 4 0, leftMirrored := f.getD 5 0, rightMirrored := f.getD 6 0, frontLevel := f.getD 7 0
    infeedLevel := f.getD 8 0, frontSize := f.getD 9 0, infeedSize := f.getD 10 0, parkColumn := f.getD 11 0
    parkLevel := f.getD 12 0, travelVmax := f.getD 13 0, travelAccel := f.getD 14 0, hoistVmax := f.getD 15 0
    hoistAccel := f.getD 16 0, handling := f.getD 17 0, lowerZone := f.getD 18 0, upperZone := f.getD 19 0
    split := f.getD 20 0, mode := f.getD 21 0, patronWeight := f.getD 22 0, restoreWeight := f.getD 23 0
    houseWeight := f.getD 24 0 }

/-- A carried BIN entry (section 2.5). -/
def binEntryOf (bs : List Byte) : BinEntry :=
  let f := splitFields [1, 1, 1, 1, 1, 1] bs
  { presence := f.getD 0 0, aisle := f.getD 1 0, face := f.getD 2 0, level := f.getD 3 0, column := f.getD 4 0
    state := f.getD 5 0 }

/-- A carried STATION entry (R82). -/
def stationEntryOf (bs : List Byte) : StationEntry :=
  let f := splitFields [1, 1, 1, 3] bs
  { kind := f.getD 0 0, zone := f.getD 1 0, laneSize := f.getD 2 0, slack := f.getD 3 0 }

/-- A carried LIFT entry (R107). -/
def liftEntryOf (bs : List Byte) : LiftEntry :=
  let f := splitFields [1, 3, 1, 3, 2] bs
  { zone := f.getD 0 0, mask := f.getD 1 0, carriers := f.getD 2 0, carryLimit := f.getD 3 0, answerLimit := f.getD 4 0 }

/-- A carried ITEM entry (R123). -/
def itemEntryOf (bs : List Byte) : ItemEntry :=
  let f := splitFields [1, 6, 2, 1, 1, 2, 2, 2, 1, 2] bs
  { presence := f.getD 0 0, item := f.getD 1 0, bin := f.getD 2 0, category := f.getD 3 0, state := f.getD 4 0
    order := f.getD 5 0, lendDay := f.getD 6 0, dueDay := f.getD 7 0, renewals := f.getD 8 0, scanDay := f.getD 9 0 }

/-- A carried CLASS entry (R127). -/
def classEntryOf (bs : List Byte) : ClassEntry :=
  let f := splitFields [1, 2, 1] bs
  { cls := f.getD 0 0, period := f.getD 1 0, renewLimit := f.getD 2 0 }

/-- A carried ZONE entry: the settings stand after the four line fields of two bytes each (R153, R174). -/
def zoneEntryOf (bs : List Byte) : ZoneEntry :=
  let f := splitFields [2, 2, 2, 3, 3] (bs.drop 8)
  { debounce := f.getD 0 0, parkAllowance := f.getD 1 0, brakeSettle := f.getD 2 0, shutterLimit := f.getD 3 0
    readyLimit := f.getD 4 0 }

/-- A carried LINE entry (R176). -/
def lineEntryOf (bs : List Byte) : LineEntry :=
  let f := splitFields [1, 1, 1] bs
  { selection := f.getD 0 0, polarity := f.getD 1 0, output := f.getD 2 0 }

/-- The WRITE of a table; a read-only table is refused with UNKNOWN_TABLE (R16). -/
def writeOf (tag : BitVec 16) (table : Nat) (first : BitVec 16) (es : List (List Byte)) : TakenUp :=
  match table with
  | 1 => .request (.addressWrite tag first (es.map addressEntryOf))
  | 2 => .request (.trafficWrite tag first (es.map ofBe))
  | 3 => .request (.countersWrite tag first (es.map ofBe))
  | 4 => .request (.paramsWrite tag first (es.map ofBe))
  | 5 => .request (.aisleWrite tag first (es.map aisleEntryOf))
  | 6 => .request (.binWrite tag first (es.map binEntryOf))
  | 8 => .request (.stationWrite tag first (es.map stationEntryOf))
  | 10 => .request (.liftWrite tag first (es.map liftEntryOf))
  | 11 => .request (.itemWrite tag first (es.map itemEntryOf))
  | 12 => .request (.classWrite tag first (es.map classEntryOf))
  | 14 => .request (.zoneWrite tag first (es.map zoneEntryOf))
  | 15 => .request (.lineWrite tag first (es.map lineEntryOf))
  | 16 => .request (.pullWrite tag first (es.map ofBe))
  | _ => .writeRefused .unknownTable

/-- WRITE: a table, a first index, and a whole, nonzero number of entries; a table of no name is refused before
its length is judged (R5, R16). R5 gives both outcomes for a body of 1 or 2 bytes that begins with no table's code: that
a body shorter than the fixed body has bad form whatever it begins with is the model's choice (log entry 61). -/
def writeForm (tag : BitVec 16) (b : List Byte) : TakenUp :=
  let f := splitFields [1, 2] b
  if b.length < 3 then .badForm
  else
    match entryLength (f.getD 0 0) with
    | none => .writeRefused .unknownTable
    | some w =>
      let n := (b.length - 3) / w
      if b.length = 3 + w * n ∧ 1 ≤ n then
        writeOf tag (f.getD 0 0) (word 16 (f.getD 1 0)) (splitEntries w n (b.drop 3))
      else .badForm

/-- What a telegram taken from the U port carries (R5). -/
def takenUp (t : Telegram) : TakenUp :=
  let tag := word 16 t.tag
  match t.kind with
  | 1 => orderForm tag t.body
  | 2 => cancelForm tag t.body
  | 3 => renewForm tag t.body
  | 4 => shiftForm tag t.body
  | 5 => writeForm tag t.body
  | 6 => readForm tag t.body
  | 7 => commandForm tag t.body
  | _ => .badForm

/-- A kind that the part takes from the U port (R5, R13). -/
def requestKind (k : Nat) : Bool := decide (1 ≤ k) && decide (k ≤ 7)

/-! ## Field reports -/

/-- A point of a body (R28). -/
def pointAt (f : List Nat) (i : Nat) : RawPoint :=
  { kind := word 8 (f.getD i 0), face := word 8 (f.getD (i + 1) 0), level := word 8 (f.getD (i + 2) 0),
    column := word 8 (f.getD (i + 3) 0) }

/-- The form of a report: its body has the kind's fixed length (R1, R5). -/
def reportForm (n : Nat) (b : List Byte) (r : Report) : Option Report := if b.length = n then some r else none

/-- The report that a telegram taken from the D port carries; none where it has bad form (R5). A word that is
neither of the two named is not acted on (log entry 8). -/
def takenDown (t : Telegram) : Option Report :=
  let tag := word 16 t.tag
  let b := t.body
  match t.kind with
  | 40 =>
    let f := splitFields [2, 1, 1, 1, 1, 2] b
    reportForm 8 b (.crane fun a => .done a (word 16 (f.getD 0 0)) (pointAt f 1) (word 16 (f.getD 5 0)))
  | 41 =>
    let f := splitFields [1, 1, 2] b
    reportForm 4 b (.crane fun a =>
      .fault a (word 8 (f.getD 0 0)) (if f.getD 1 0 = 0 then some (word 16 (f.getD 2 0)) else none))
  | 42 =>
    let f := splitFields [1, 1, 1, 1, 2] b
    reportForm 6 b (.crane fun a => .parked a (pointAt f 0) (word 16 (f.getD 4 0)))
  | 43 =>
    let f := splitFields [1, 1, 1, 1, 1, 2] b
    reportForm 7 b
      (if f.getD 0 0 ≤ 1 then .crane fun a => .status a (decide (f.getD 0 0 = 0)) (pointAt f 1) (word 16 (f.getD 5 0))
       else .ignored 1)
  | 44 => reportForm 2 b (.crane fun a => .infeed a (word 16 (ofBe b)))
  | 45 => reportForm 1 b (if ofBe b ≤ 1 then .lift fun l => .fitness l (decide (ofBe b = 0)) else .ignored 2)
  | 46 => reportForm 2 b (.lift fun l => .carried l (word 16 (ofBe b)))
  | 48 => reportForm 6 b (.station fun st => .itemOut st tag (word 48 (ofBe b)))
  | 49 => reportForm 6 b (.station fun st => .intoBin st tag (word 48 (ofBe b)))
  | 50 => reportForm 2 b (.station fun st => .binDone st (word 16 (ofBe b)))
  | 51 => reportForm 6 b (.station fun st => .itemIn st tag (word 48 (ofBe b)))
  | _ => none

end Sys2Proof.Machine
end

