-- ==== Sys2Proof/Machine/Ops.lean ====
section
/-! DEFINITION. The named operations over the tables of the state, the sends of an event, and the owing of
follow-on tests. Every block's rules read and write the state through these. -/

namespace Sys2Proof.Machine

/-! ## Counts and timers -/

/-- A 32-bit count raised by one; it stays at its top (R14, R80, R83, R121). -/
def countUp (n : Nat) : Nat := if n < Config.countMax then n + 1 else n

/-- A 16-bit tag counter raised by one, 65535 being followed by 0 (R22, R56, R117). -/
def tagUp (n : Nat) : Nat := if n < 65535 then n + 1 else 0

/-- A timer started now for `ms` milliseconds. -/
def State.after (s : State) (ms : Nat) : Option Nat := some (s.now + ms)

/-- The milliseconds left before a timer's expiry. -/
def State.left (s : State) (expiry : Nat) : Nat := expiry - s.now

/-! ## Link tables -/

/-- The address-table entry of an address (R8). -/
def State.addr (s : State) (a : Nat) : AddrEntry := s.link.addresses.get .none a

/-- Write an address-table entry. -/
def State.setAddr (s : State) (a : Nat) (e : AddrEntry) : State :=
  { s with link := { s.link with addresses := s.link.addresses.set .none a e } }

/-- The first address whose entry is `e`. -/
def addressOf (e : AddrEntry) (t : Tab AddrEntry) : Option Nat := (t.find? fun p => p.2 = e).map (·.1)

/-- The address of an aisle's crane (R8). -/
def State.craneAddress (s : State) (a : Nat) : Option Nat := addressOf (.crane a) s.link.addresses

/-- The address of a lift (R8). -/
def State.liftAddress (s : State) (l : Nat) : Option Nat := addressOf (.lift l) s.link.addresses

/-- The address of a station (R8). -/
def State.stationAddress (s : State) (st : Nat) : Option Nat := addressOf (.station st) s.link.addresses

/-- The D-bound traffic entry of a kind (R10). -/
def State.treatDown (s : State) (k : Nat) : Treatment := s.link.trafficDown.get .guard k

/-- The U-bound traffic entry of a kind (R10). -/
def State.treatUp (s : State) (k : Nat) : Treatment := s.link.trafficUp.get .pass k

/-- A link counter (R14). -/
def State.counter (s : State) (i : Nat) : Nat := s.link.counters.get 0 i

/-- Write a link counter. -/
def State.setCounter (s : State) (i v : Nat) : State :=
  { s with link := { s.link with counters := s.link.counters.set 0 i v } }

/-- Raise a link counter by one (R14). -/
def State.raise (s : State) (i : Nat) : State := s.setCounter i (countUp (s.counter i))

/-! ## Storage Map -/

/-- The aisle record of an aisle (R25). -/
def State.aisle (s : State) (a : Nat) : Aisle := s.store.aisles.get Aisle.unconfigured a

/-- Write an aisle record. -/
def State.setAisle (s : State) (a : Nat) (r : Aisle) : State :=
  { s with store := { s.store with aisles := s.store.aisles.set Aisle.unconfigured a r } }

/-- The bin record of a bin id, if present. -/
def State.bin (s : State) (b : Nat) : Option Bin := s.store.bins.find b

/-- Write a bin record. -/
def State.putBin (s : State) (b : Nat) (r : Bin) : State :=
  { s with store := { s.store with bins := s.store.bins.put b r } }

/-- Remove a bin record. -/
def State.delBin (s : State) (b : Nat) : State :=
  { s with store := { s.store with bins := s.store.bins.del b } }

/-- Change a bin record, if present. -/
def State.modBin (s : State) (b : Nat) (f : Bin → Bin) : State :=
  match s.bin b with
  | some r => s.putBin b (f r)
  | none => s

/-- Set a bin's state. -/
def State.setBinState (s : State) (b : Nat) (st : BinState) : State := s.modBin b fun r => { r with state := st }

/-- The state of a bin, if present. -/
def State.binState (s : State) (b : Nat) : Option BinState := (s.bin b).map (·.state)

/-- The aisle of a bin: the aisle of its home slot (R34). An absent bin's is given as 0. -/
def State.binAisle (s : State) (b : Nat) : Nat :=
  match s.bin b with
  | some r => r.home.aisle
  | none => 0

/-! ## The blocks' records as wholes -/

/-- Write Crane Dispatch's record. -/
def State.modDispatch (s : State) (f : CraneDispatch → CraneDispatch) : State := { s with dispatch := f s.dispatch }

/-- Write the Order Unit's record. -/
def State.modDesk (s : State) (f : OrderUnit → OrderUnit) : State := { s with desk := f s.desk }

/-- Write the Lift Pool's record. -/
def State.modPool (s : State) (f : LiftPool → LiftPool) : State := { s with pool := f s.pool }

/-- Write the Loan Table's record. -/
def State.modLoans (s : State) (f : LoanTable → LoanTable) : State := { s with loans := f s.loans }

/-- Write the Return Unit's record. -/
def State.modReturns (s : State) (f : ReturnUnit → ReturnUnit) : State := { s with returns := f s.returns }

/-- Write the course of resets. -/
def State.modResets (s : State) (f : ResetControl → ResetControl) : State := { s with resets := f s.resets }

/-- Write the workspace. -/
def State.modWork (s : State) (f : Work → Work) : State := { s with work := f s.work }

/-! ## Cranes, stations, lifts, zones, lines, classes -/

/-- The crane record of an aisle, with the aisle's work. -/
def State.crane (s : State) (a : Nat) : Crane := s.dispatch.cranes.get Crane.idle a

/-- Change a crane record. -/
def State.modCrane (s : State) (a : Nat) (f : Crane → Crane) : State :=
  s.modDispatch fun d => { d with cranes := d.cranes.set Crane.idle a (f (s.crane a)) }

/-- A station record. -/
def State.station (s : State) (st : Nat) : Station := s.desk.stations.get Station.powerOn st

/-- Change a station record. -/
def State.modStation (s : State) (st : Nat) (f : Station → Station) : State :=
  s.modDesk fun d => { d with stations := d.stations.set Station.powerOn st (f (s.station st)) }

/-- A lift record. -/
def State.lift (s : State) (l : Nat) : Lift := s.pool.lifts.get Lift.powerOn l

/-- Change a lift record. -/
def State.modLift (s : State) (l : Nat) (f : Lift → Lift) : State :=
  s.modPool fun p => { p with lifts := p.lifts.set Lift.powerOn l (f (s.lift l)) }

/-- A zone record. -/
def State.zone (s : State) (z : Nat) : Zone := s.zones.get Zone.powerOn z

/-- Change a zone record. -/
def State.modZone (s : State) (z : Nat) (f : Zone → Zone) : State :=
  { s with zones := s.zones.set Zone.powerOn z (f (s.zone z)) }

/-- A line record. -/
def State.line (s : State) (n : Nat) : Line := s.lines.lines.get Line.powerOn n

/-- Change a line record. -/
def State.modLine (s : State) (n : Nat) (f : Line → Line) : State :=
  { s with lines := { s.lines with lines := s.lines.lines.set Line.powerOn n (f (s.line n)) } }

/-- The pull of a group of lines (R177). -/
def State.pull (s : State) (g : Nat) : Pull := s.lines.pulls.get .none g

/-- Write the pull of a group of lines. -/
def State.setPull (s : State) (g : Nat) (p : Pull) : State :=
  { s with lines := { s.lines with pulls := s.lines.pulls.set .none g p } }

/-- A lending class entry (R127). -/
def State.lendClass (s : State) (c : Nat) : ClassRecord := s.loans.classes.get ClassRecord.powerOn c

/-- Write a lending class entry. -/
def State.setLendClass (s : State) (c : Nat) (r : ClassRecord) : State :=
  s.modLoans fun l => { l with classes := l.classes.set ClassRecord.powerOn c r }

/-! ## Items -/

/-- The item entry of a tag, if present. -/
def State.item (s : State) (t : Nat) : Option Item := s.loans.items.find t

/-- Write an item entry. -/
def State.putItem (s : State) (t : Nat) (e : Item) : State :=
  s.modLoans fun l => { l with items := l.items.put t e }

/-- Remove an item entry. -/
def State.delItem (s : State) (t : Nat) : State :=
  s.modLoans fun l => { l with items := l.items.del t }

/-- Create an item entry, counting it at its home bin (R38, R124). -/
def State.createItem (s : State) (t : Nat) (e : Item) : State :=
  (s.putItem t e).modBin e.bin fun r => { r with itemRefs := r.itemRefs + 1 }

/-- Remove an item entry, uncounting it at its home bin (R38, R124). -/
def State.removeItem (s : State) (t : Nat) : State :=
  match s.item t with
  | some e => (s.delItem t).modBin e.bin fun r => { r with itemRefs := r.itemRefs - 1 }
  | none => s

/-- The name of an item state. -/
def ItemState.word : ItemState → ItemWord
  | .requested _ => .requested
  | .lent _ => .lent
  | .inhouse _ => .inhouse
  | .returned _ _ => .returned

/-- The loan fields of an item state that has them. -/
def ItemState.loan : ItemState → Option Loan
  | .requested _ => none
  | .lent l => some l
  | .inhouse l => some l
  | .returned l _ => some l

/-! ## Orders -/

/-- The order in use that holds a number. -/
def State.order (s : State) (num : Nat) : Option Order :=
  (s.desk.orders.find? fun p => p.2.number = num).map (·.2)

/-- Change the order that holds a number. -/
def State.modOrder (s : State) (num : Nat) (f : Order → Order) : State :=
  s.modDesk fun d => { d with orders := d.orders.mapVals fun o => if o.number = num then f o else o }

/-- Strike the order that holds a number: its record becomes absent. -/
def State.dropOrder (s : State) (num : Nat) : State :=
  s.modDesk fun d => { d with orders := d.orders.filter fun p => ¬ p.2.number = num }

/-- A member of an order in use. -/
def State.member (s : State) (r : MemberRef) : Option Member :=
  match s.order r.order with
  | some o => o.members[r.pos]?
  | none => none

/-- Change a member of an order. -/
def State.modMember (s : State) (r : MemberRef) (f : Member → Member) : State :=
  s.modOrder r.order fun o => { o with members := o.members.modify r.pos f }

/-- The state of a member, if its order is in use. -/
def State.memberState (s : State) (r : MemberRef) : Option MemberState := (s.member r).map (·.state)

/-- The members of an order as references, in member order. -/
def Order.refs (o : Order) : List MemberRef := (List.range o.members.length).map fun i => ⟨o.number, i⟩

/-- A member is live while it is in none of DONE, STRANDED, FAILED and CANCELLED (R84). -/
def MemberState.live : MemberState → Bool
  | .done | .stranded | .failed | .cancelled => false
  | _ => true

/-- A member is expected while it is WAIT_BIN, QUEUED, FETCHING, AT_FRONT or CARRYING (R84). -/
def MemberState.expected : MemberState → Bool
  | .waitBin | .queued | .fetching | .atFront | .carrying => true
  | _ => false

/-- The class of an order's crane jobs (R57). -/
def OrderKind.cls : OrderKind → JobClass
  | .patron => .patron
  | .restore => .restore

/-! ## Sends -/

/-- Send a NOTICE in this event (R22). -/
def State.notice (s : State) (n : Notice) : State :=
  s.modWork fun w => { w with up := w.up ++ [.notice n] }

/-- Send a HOLDOFF in this event (R22). -/
def State.holdoff (s : State) (ms : Nat) : State :=
  s.modWork fun w => { w with up := w.up ++ [.holdoff ms] }

/-- Hand a telegram to the D send queue in this event. -/
def State.sendDown (s : State) (q : Queued) : State :=
  s.modWork fun w => { w with down := w.down ++ [q] }

/-- Send one of the part's own telegrams to a unit, if the unit has an address (R8, R22). -/
def State.sendUnit (s : State) (address : Option Nat) (kind : Nat) (body : List Byte) (cls : QueueClass) :
    State :=
  match address with
  | some a => s.sendDown { telegram := { dest := a, src := Config.ownAddress, kind, tag := 0, body }, cls }
  | none => s

/-! ## What an event owes -/

/-- A crane has changed state: every zone's tests and Mode Control's are owed (R61, R159, R166, R187, R190). -/
def State.oweControl (s : State) : State := s.modWork fun w => { w with control := true }

/-- A zone has entered STOPPING or ENABLING: its own tests are owed (R158, R166). -/
def State.oweZone (s : State) (z : Nat) : State := s.modWork fun w => { w with zoneTests := w.zoneTests ++ [z] }

/-- The park wait or WAKING has begun: Mode Control's tests are owed (R187, R190). -/
def State.oweMode (s : State) : State := s.modWork fun w => { w with modeTest := true }

/-- A drain test is owed (R186). -/
def State.oweDrain (s : State) : State := s.modWork fun w => { w with drain := true }

/-- A scan of the carry wait list is owed (R116). -/
def State.oweScan (s : State) : State := s.modWork fun w => { w with scan := true }

/-- An admission pass is owed (R88). -/
def State.oweAdmission (s : State) : State := s.modWork fun w => { w with admission := true }

/-- A restore test is owed (R145). -/
def State.oweRestore (s : State) (t : RestoreTest) : State :=
  s.modWork fun w => { w with restore := w.restore ++ [t] }

/-- The waiting count has changed: it is owed to Mode Control (R189) and to the watermark (R104). -/
def State.oweWaiting (s : State) : State := s.modWork fun w => { w with waiting := true, hold := true }

/-- The watermark has been written: its comparison is owed to the end of the event (R104, R105). -/
def State.oweHold (s : State) : State := s.modWork fun w => { w with hold := true }

/-- Records of the job pool have returned to free: admission and the drain are to be tested (R55, R186). -/
def State.recordsFreed (s : State) : State := s.oweAdmission.oweDrain

end Sys2Proof.Machine
end

