-- ==== Sys2Proof/Machine/Telegrams.lean ====
section
/-! DEFINITION. The bodies of the telegrams that the part sends: ANSWER, NOTICE and HOLDOFF to the gateway
(section 1.8) and the seven kinds to field units. -/

namespace Sys2Proof.Machine

/-- An ANSWER before it is handed over: the request's tag and kind, the outcome, the reason, and the fields of
that kind of request (R21). -/
structure Answer where
  tag : Nat
  kind : Nat
  outcome : Verdict
  reason : Option Reason
  fields : List Byte
  deriving DecidableEq, Repr

/-- The ANSWER telegram (R21, R23). -/
def Answer.queued (a : Answer) : Queued :=
  { telegram :=
      { dest := 0, src := Config.ownAddress, kind := kindAnswer, tag := a.tag,
        body := be 1 a.kind ++ be 1 a.outcome.code ++ be 1 (reasonCode a.reason) ++ a.fields }
    cls := .kept }

/-- An ANSWER with outcome DONE. -/
def Answer.done (tag kind : Nat) (fields : List Byte := []) : Answer := ⟨tag, kind, .done, none, fields⟩

/-- An ANSWER with outcome REFUSED. -/
def Answer.refused (tag kind : Nat) (r : Reason) (fields : List Byte := []) : Answer :=
  ⟨tag, kind, .refused, some r, fields⟩

/-- The HOLDOFF telegram (R22). -/
def holdoffQueued (ms : Nat) : Queued :=
  { telegram := { dest := 0, src := Config.ownAddress, kind := kindHoldoff, tag := 0, body := be 2 ms }, cls := .kept }

/-- A job tag with its bin, or none (section 4.11). -/
def jobBytes : Option (Nat × Nat) → List Byte
  | some (t, b) => be 1 (presenceCode true) ++ be 2 t ++ be 2 b
  | none => be 1 (presenceCode false) ++ be 2 0 ++ be 2 0

/-- The body of a NOTICE: its code followed by its fields in the order of the owning chapter's notice table
(R22, R23). -/
def Notice.body : Notice → List Byte
  | .guardDrop d k => be 1 10 ++ be 1 d ++ be 1 k
  | .moveLate a t k b => be 1 40 ++ be 1 a ++ be 2 t ++ be 1 k.code ++ be 2 b
  | .moveLateDone a t k b => be 1 41 ++ be 1 a ++ be 2 t ++ be 1 k.code ++ be 2 b
  | .craneFault a c f j => be 1 42 ++ be 1 a ++ be 1 c.code ++ optional 1 f ++ jobBytes j
  | .shiftDone b h => be 1 43 ++ be 2 b ++ h.bytes
  | .shiftEnded b st c => be 1 44 ++ be 2 b ++ be 1 st.code ++ be 1 c.code
  | .recoveryQueued a b o => be 1 45 ++ be 1 a ++ be 2 b ++ o.bytes
  | .unexpectedLoad a b => be 1 46 ++ be 1 a ++ be 2 b
  | .gatherPartial o n e => be 1 50 ++ be 2 o ++ be 1 n ++ be 1 e
  | .orderEnd o k st p t n s f c =>
    be 1 51 ++ be 2 o ++ be 1 k.code ++ be 1 st ++ be 4 p ++ be 1 t ++ be 1 n ++ be 1 s ++ be 1 f ++ be 1 c
  | .memberLost o p b st => be 1 52 ++ be 2 o ++ be 1 p ++ be 2 b ++ be 1 st.code
  | .joinFailed l c => be 1 60 ++ be 1 l ++ be 1 c.code
  | .liftBarred l c n => be 1 61 ++ be 1 l ++ be 1 c.code ++ be 1 n
  | .carryLate l t b => be 1 62 ++ be 1 l ++ be 2 t ++ be 2 b
  | .carryLateDone l t b => be 1 63 ++ be 1 l ++ be 2 t ++ be 2 b
  | .carryGivenUp l t b => be 1 64 ++ be 1 l ++ be 2 t ++ be 2 b
  | .lent o p i st d => be 1 70 ++ be 2 o ++ be 4 p ++ be 6 i ++ be 1 st.code ++ be 2 d
  | .notTaken o p i c => be 1 71 ++ be 2 o ++ be 4 p ++ be 6 i ++ be 1 c.code
  | .returned st i b w d sc => be 1 80 ++ be 1 st ++ be 6 i ++ be 2 b ++ be 1 w.code ++ be 2 d ++ be 2 sc
  | .exception st i r => be 1 81 ++ be 1 st ++ be 6 i ++ be 1 r.code
  | .restored o i b => be 1 82 ++ be 2 o ++ be 6 i ++ be 2 b
  | .zoneState z st c f => be 1 90 ++ be 1 z ++ be 1 st.code ++ optional 1 (c.map (·.code)) ++ be 1 (flagCode f)
  | .shutterFault z d => be 1 91 ++ be 1 z ++ be 1 d.code
  | .callKey n => be 1 100 ++ be 1 n
  | .modeState m c => be 1 110 ++ be 1 m.code ++ be 1 c.code
  | .resetDone r =>
    be 1 111 ++ be 1 (flagCode r.power) ++ be 1 (flagCode r.pin) ++ be 1 (flagCode r.command) ++ be 1 r.count

/-- MOVE: job tag, kind, origin, destination and bin (R66). -/
def State.sendMove (s : State) (a : Nat) (tag : Nat) (j : Job) : State :=
  s.sendUnit (s.craneAddress a) kindMove
    (be 2 tag ++ be 1 j.kind.code ++ j.origin.bytes ++ j.dest.bytes ++ be 2 j.bin) (.move a)

/-- PARK: the aisle's PARK point (R74). -/
def State.sendPark (s : State) (a : Nat) : State :=
  s.sendUnit (s.craneAddress a) kindPark Point.park.bytes .kept

/-- MEMBER: the word, and the sequence number for ON and TAIL (R108). R1 gives MEMBER 2 bytes, and no rule says what the
second holds for OFF, ASK and BAR: that it is 0 is the model's choice (log entry 7). -/
def State.sendMember (s : State) (l : Nat) : State :=
  s.sendUnit (s.liftAddress l) kindMember
    (be 1 (s.lift l).word.code ++ be 1 (((s.lift l).word.seq).getD 0)) .kept

/-- A place a carry starts from or ends at: a code byte, front 0, station 1, infeed 2, then the index of the aisle or
station. R1 leaves 2 bytes for each place, and R117 gives no codes: these are the model's choice (log entry 60). -/
def carryEnd (code unit : Nat) : List Byte := be 1 code ++ be 1 unit

/-- CARRY: carry tag, bin, origin and destination (R117). -/
def State.sendCarry (s : State) (l : Nat) (c : Carry) : State :=
  s.sendUnit (s.liftAddress l) kindCarry
    (be 2 c.tag ++ be 2 c.bin ++
      match c.leg with
      | .up => carryEnd 0 c.aisle ++ carryEnd 1 c.station
      | .down => carryEnd 1 c.station ++ carryEnd 2 c.aisle) .kept

/-- PRESENT: the bin (R95). -/
def State.sendPresent (s : State) (st b : Nat) : State :=
  s.sendUnit (s.stationAddress st) kindPresent (be 2 b) .kept

/-- WITHDRAW: the bin (R100). -/
def State.sendWithdraw (s : State) (st b : Nat) : State :=
  s.sendUnit (s.stationAddress st) kindWithdraw (be 2 b) .kept

/-- VERDICT: the report's tag, ACCEPT 0 or REFUSE 1, the reason and the due day (R132). -/
def State.sendVerdict (s : State) (st tag : Nat) (r : Option Reason) (due : Nat) : State :=
  s.sendUnit (s.stationAddress st) kindVerdict
    (be 2 tag ++ be 1 (if r.isNone then 0 else 1) ++ be 1 (reasonCode r) ++ be 2 due) .kept

end Sys2Proof.Machine
end

