-- ==== Sys2Proof/Machine/Operands.lean ====
section
/-! DEFINITION. Points, slots and loads as telegrams carry them, and their places in an aisle
(sections 2.1 and 2.2). -/

namespace Sys2Proof.Machine

/-- An aisle is configured when its levels field is 1–64 (R25). -/
def Aisle.configured (r : Aisle) : Bool := decide (1 ≤ r.levels)

/-- A face, level and column name a slot of the aisle (R25). -/
def Aisle.hasSlot (r : Aisle) (level column : Nat) : Bool :=
  decide (1 ≤ level) && decide (level ≤ r.levels) && decide (1 ≤ column) && decide (column ≤ r.columns)

/-- A face as carried: LEFT 0, RIGHT 1 (R23). -/
def faceOf (n : Nat) : Option Face :=
  match n with
  | 0 => some .left
  | 1 => some .right
  | _ => none

/-- The position of an aisle that a telegram's point names, if it names one: a valid point that is not
CRANE (R28). The last three fields of a point that is no SLOT are not examined. -/
def Aisle.position (r : Aisle) (p : RawPoint) : Option Point :=
  if r.configured then
    match p.kind.toNat with
    | 0 =>
      match faceOf p.face.toNat with
      | some f => if r.hasSlot p.level.toNat p.column.toNat then some (.slot f p.level.toNat p.column.toNat) else none
      | none => none
    | 1 => some .front
    | 2 => some .infeed
    | 3 => some .park
    | _ => none
  else none

/-- A load as carried: the bin id 65535 stands for none (R80). -/
def loadOf (b : BitVec 16) : Option Nat := if b.toNat = Config.noLoad then none else some b.toNat

/-- The slot of a configured aisle that four carried fields name, if they name one (R39, R33). -/
def State.slotOf (s : State) (aisle face level column : Nat) : Option Slot :=
  if aisle < 12 && (s.aisle aisle).configured && (s.aisle aisle).hasSlot level column then
    (faceOf face).map fun f => { aisle, face := f, level, column }
  else none

/-- A slot as a point of its aisle. -/
def Slot.point (t : Slot) : Point := .slot t.face t.level t.column

/-- The face's columns count from the far end (R29). -/
def Aisle.mirrored (r : Aisle) : Face → Bool
  | .left => r.leftMirrored
  | .right => r.rightMirrored

/-- The horizontal position of a point in mm (R29). CRANE has none of its own. -/
def Aisle.x (r : Aisle) : Point → Nat
  | .slot f _ c =>
    if r.mirrored f then r.frontOffset + (r.columns + 1 - c) * r.columnPitch
    else r.frontOffset + c * r.columnPitch
  | .park => r.frontOffset + r.parkColumn * r.columnPitch
  | _ => 0

/-- The vertical position of a point in mm (R30). CRANE has none of its own. -/
def Aisle.y (r : Aisle) : Point → Nat
  | .slot _ l _ => l * r.levelPitch
  | .front => r.frontLevel * r.levelPitch
  | .infeed => r.infeedLevel * r.levelPitch
  | .park => r.parkLevel * r.levelPitch
  | .crane => 0

/-- The zone a level of the aisle belongs to (R31). -/
def Aisle.zoneOfLevel (r : Aisle) (level : Nat) : Nat := if level < r.split then r.lowerZone else r.upperZone

/-- The zone of the aisle front (R31). -/
def Aisle.frontZone (r : Aisle) : Nat := r.zoneOfLevel r.frontLevel

/-- The zone of the aisle infeed (R31). -/
def Aisle.infeedZone (r : Aisle) : Nat := r.zoneOfLevel r.infeedLevel

/-- The zones an aisle touches: those that own any of its levels 1 to levels, its front or its infeed
(R31). An unconfigured aisle touches none. Levels 1 and `levels` stand for the levels between them, since
the split gives the lower levels to one zone and the upper ones to the other. -/
def Aisle.zones (r : Aisle) : List Nat :=
  if r.configured then
    [r.zoneOfLevel 1, r.zoneOfLevel r.levels, r.frontZone, r.infeedZone].dedup
  else []

end Sys2Proof.Machine
end

