-- ==== Sys2Proof/Machine/Flags.lean ====
section
/-! DEFINITION. What the rules read off the state: zones clear, cranes held parked, slots claimed, the free
count of the job pool, what work holds a bin, the levels of the outputs. -/

namespace Sys2Proof.Machine

/-- The aisle numbers 0–11. -/
def allAisles : List Nat := List.range 12
/-- The station numbers 0–23. -/
def allStations : List Nat := List.range 24
/-- The lift numbers 0–5. -/
def allLifts : List Nat := List.range 6
/-- The zone numbers 0–7. -/
def allZones : List Nat := List.range 8
/-- The line numbers 0–47. -/
def allLines : List Nat := List.range 48

/-! ## Zones -/

/-- A zone is CLEAR (R154: asked of its state alone). -/
def State.zoneClear (s : State) (z : Nat) : Bool := decide ((s.zone z).state = .clear)

/-- Every zone the aisle touches is CLEAR. -/
def State.aisleClear (s : State) (a : Nat) : Bool := (s.aisle a).zones.all fun z => s.zoneClear z

/-- The aisles that touch a zone, in ascending number: the order in which park and fault requests and dispatch tests
take them is the model's choice (R74, R73, R158, R168; log entry 22). -/
def State.aislesTouching (s : State) (z : Nat) : List Nat := allAisles.filter fun a => decide (z ∈ (s.aisle a).zones)

/-- A zone in which a crane's drive may be on: CLEAR, STOPPING or ENABLING (R170). -/
def ZoneState.drives : ZoneState → Bool
  | .clear | .stopping | .enabling => true
  | _ => false

/-- A zone that holds no crane parked: CLEAR or ENABLING (R62). -/
def ZoneState.releasesCranes : ZoneState → Bool
  | .clear | .enabling => true
  | _ => false

/-- The drive-enable level of an aisle (R170). -/
def State.driveLevel (s : State) (a : Nat) : Bool :=
  (s.aisle a).configured && ((s.aisle a).zones.all fun z => (s.zone z).state.drives) && decide (s.mode.mode ≠ .quiet)

/-- The shutter-close level of a zone (R171). -/
def State.shutterLevel (s : State) (z : Nat) : Bool :=
  match (s.zone z).state with
  | .closing | .sealed => true
  | _ => false

/-- The beacon level: some zone is not CLEAR (R180). -/
def State.beaconLevel (s : State) : Bool := allZones.any fun z => !s.zoneClear z

/-- The output levels that the zone states, the part mode and the aisles give (R170, R171, R180). -/
def State.outputLevels (s : State) : Outputs :=
  { drives := allAisles.filter s.driveLevel, shutters := allZones.filter s.shutterLevel, beacon := s.beaconLevel }

/-! ## Cranes -/

/-- A crane state in which STOPPING or the park wait still waits: READY, BUSY or PARKING (R159, R187). -/
def CraneState.unparked : CraneState → Bool
  | .ready | .busy | .parking => true
  | _ => false

/-- A PARKED crane is held parked (R62): a touched zone is neither CLEAR nor ENABLING, or the mode is QUIET,
or the park wait runs. -/
def State.heldParked (s : State) (a : Nat) : Bool :=
  ((s.aisle a).zones.any fun z => !(s.zone z).state.releasesCranes) || decide (s.mode.mode = .quiet) ||
    (decide (s.mode.mode = .draining) && decide (s.mode.phase = some .parkWait))

/-- The cranes a ready test counts (R166, R190): of a configured aisle, with an address, drive-enable
asserted, and not FAULTED. -/
def State.counted (s : State) (a : Nat) : Bool :=
  (s.aisle a).configured && (s.craneAddress a).isSome && s.driveLevel a && decide ((s.crane a).state ≠ .faulted)

/-- The load a crane reports aboard, if a position is recorded. -/
def Crane.load (c : Crane) : Option Nat :=
  match c.place with
  | some p => p.load
  | none => none

/-! ## The job pool -/

/-- The class queue of a class. -/
def Crane.queue (c : Crane) : JobClass → List Job
  | .patron => c.patronQueue
  | .restore => c.restoreQueue
  | .house => c.houseQueue

/-- Replace the class queue of a class. -/
def Crane.setQueue (c : Crane) (k : JobClass) (q : List Job) : Crane :=
  match k with
  | .patron => { c with patronQueue := q }
  | .restore => { c with restoreQueue := q }
  | .house => { c with houseQueue := q }

/-- The queued jobs of an aisle, queue by queue in class order, oldest first in each. -/
def Crane.queued (c : Crane) : List Job := c.patronQueue ++ c.restoreQueue ++ c.houseQueue

/-- The jobs of an aisle, queued and in flight. -/
def Crane.jobs (c : Crane) : List Job :=
  match c.flight with
  | some f => c.queued ++ [f.job]
  | none => c.queued

/-- Every job in use (R55). -/
def State.jobs (s : State) : List Job := s.dispatch.cranes.flatMap fun p => p.2.jobs

/-- The records held for members (R55). -/
def State.heldRecords (s : State) : Nat := (s.desk.orders.map fun p => (p.2.members.map (·.held)).sum).sum

/-- The free count: 512 less the held and in-use records (R55). -/
def State.freeCount (s : State) : Nat := Config.poolSize - (s.heldRecords + s.jobs.length)

/-! ## What holds a bin -/

/-- Every carry in flight. -/
def State.carries (s : State) : List Carry := s.pool.lifts.flatMap fun p => p.2.carries

/-- A carry in flight names the bin. -/
def State.carryNames (s : State) (b : Nat) : Bool := s.carries.any fun c => decide (c.bin = b)

/-- A carry wait-list entry names the bin. -/
def State.waits (s : State) (b : Nat) : Bool := s.pool.waitList.any fun w => decide (w.bin = b)

/-- The bin stands in some station's lane (the window included). -/
def State.inLane (s : State) (b : Nat) : Bool :=
  s.desk.stations.any fun p => p.2.lane.any fun l => decide (l.bin = b)

/-- A job, carry, carry wait-list entry, lane or window holds the bin (R77). -/
def State.binHeld (s : State) (b : Nat) : Bool :=
  (s.jobs.any fun j => decide (j.bin = b)) || s.carryNames b || s.waits b || s.inLane b

/-- Some bin claims the slot, as its home slot or its target slot (R32). -/
def State.slotClaimed (s : State) (t : Slot) : Bool :=
  s.store.bins.any fun p => decide (p.2.home = t) || decide (p.2.target = some t)

/-- An order is held for its members: a job, a carry, a carry wait-list entry or a lane place serves one of
them (R84). -/
def State.orderHeld (s : State) (num : Nat) : Bool :=
  (s.jobs.any fun j => match j.owner with
    | .member r => decide (r.order = num)
    | _ => false) ||
  (s.carries.any fun c => decide (c.ref.order = num)) ||
  (s.pool.waitList.any fun w => decide (w.ref.order = num)) ||
  (s.desk.stations.any fun p => p.2.lane.any fun l => decide (l.ref.order = num))

/-- The waiting count: the orders in state WAITING at all stations (R104). -/
def State.waitingCount (s : State) : Nat := s.desk.orders.countP fun p => decide (p.2.state = .waiting)

/-- The bin marked WINDOW in a station's lane (R83). -/
def Station.window (w : Station) : Option LaneBin := w.lane.find? fun l => decide (l.mark = .window)

end Sys2Proof.Machine
end

