-- ==== Sys2Proof/Machine/Travel.lean ====
section
/-! DEFINITION. The Travel Estimator (chapter 3): axis times, legs, move estimates, move deadlines, gather
limits and park deadlines, in whole numbers. -/

namespace Sys2Proof.Machine

/-- A quotient rounded up to the next whole number when it is not whole. -/
def ceilDiv (n d : Nat) : Nat := if n % d = 0 then n / d else n / d + 1

/-- The greatest number below `2 ^ bits` whose square times `a` stays below `n`, found bit by bit from the
highest. -/
def rootBelow (a n : Nat) : (bits acc : Nat) → Nat
  | 0, acc => acc
  | b + 1, acc =>
    if (acc + 2 ^ b) * (acc + 2 ^ b) * a < n then rootBelow a n b (acc + 2 ^ b) else rootBelow a n b acc

/-- The axis time of a run of distance `d` mm at speed limit `v` and acceleration `a`, in ms (R45). In the
short run it is the smallest whole t with t²·a ≥ 4,000,000·d: one more than the greatest that falls short. -/
def axisTime (d v a : Nat) : Nat :=
  if d = 0 then 0
  else if v * v ≤ d * a then ceilDiv (1000 * d * a + 1000 * (v * v)) (v * a)
  else rootBelow a (4000000 * d) 24 0 + 1

/-- The distance between two coordinates. -/
def gap (m n : Nat) : Nat := (m - n) + (n - m)

/-- The leg time between two positions of an aisle (R47). -/
def Aisle.leg (r : Aisle) (p q : Point) : Nat :=
  max (axisTime (gap (r.x p) (r.x q)) r.travelVmax r.travelAccel)
    (axisTime (gap (r.y p) (r.y q)) r.hoistVmax r.hoistAccel)

/-- The point CRANE takes the place of the crane's recorded position (R30). -/
def Point.resolve (p : Point) (craneAt : Point) : Point :=
  match p with
  | .crane => craneAt
  | q => q

/-- The move estimate of a job from the crane's position (R48, R49). -/
def Aisle.jobEstimate (r : Aisle) (from_ origin dest : Point) : Nat :=
  min 600000
    (match origin with
      | .crane => r.leg from_ dest + r.handling
      | o => r.leg from_ o + r.handling + r.leg o dest + r.handling)

/-- The PARK estimate from a position (R48, R49). -/
def Aisle.parkEstimate (r : Aisle) (from_ : Point) : Nat := min 600000 (r.leg from_ .park)

/-- The move deadline for an estimate (R50). -/
def Params.moveDeadline (p : Params) (estimate : Nat) : Nat :=
  min 900000 (estimate + estimate * p.moveMargin / 100 + p.moveAllowance)

/-- The FETCH estimate of a bin from its own aisle's front (R51, step 1). -/
def State.fetchFromFront (s : State) (b : Nat) : Nat :=
  match s.bin b with
  | some r => (s.aisle r.home.aisle).jobEstimate .front r.home.point .front
  | none => 0

/-- The gather limit of an order's bins at a station with gather slack `slack` (R51). -/
def State.gatherLimit (s : State) (bins : List Nat) (slack : Nat) : Nat :=
  let estimates := bins.map s.fetchFromFront
  let spread := estimates.foldr max 0 - estimates.foldr min (estimates.headD 0)
  max slack (min 600000 (spread + slack))

/-- A crane's contribution to a park deadline, absent where it is not counted (R52). -/
def State.parkContribution (s : State) (a : Nat) : Option Nat :=
  let r := s.aisle a
  let c := s.crane a
  if r.configured then
    match c.place with
    | none => none
    | some p =>
      match c.state, c.flight with
      | .ready, _ => some (r.parkEstimate p.point)
      | .parked, _ => some (r.parkEstimate p.point)
      | .busy, none => some (r.parkEstimate p.point)
      | .parking, none => some (r.parkEstimate p.point)
      | .busy, some f =>
        some (max (r.parkEstimate (f.job.origin.resolve p.point)) (r.parkEstimate (f.job.dest.resolve p.point)))
      | .parking, some f =>
        some (max (r.parkEstimate (f.job.origin.resolve p.point)) (r.parkEstimate (f.job.dest.resolve p.point)))
      | .offline, _ => none
      | .faulted, _ => none
  else none

/-- The park deadline of a set of cranes with an allowance (R52). -/
def State.parkDeadline (s : State) (aisles : List Nat) (allowance : Nat) : Nat :=
  min 900000 ((aisles.filterMap s.parkContribution).foldr max 0 + allowance)

end Sys2Proof.Machine
end

