-- ==== Sys2Proof/Machine/Jobs.lean ====
section
/-! DEFINITION. The crane jobs: the choice and the dispatch of a job (R63 to R66), the queueing of jobs on the
requests of R57, the lists of R60, and the offer of a STORED bin (R37). -/

namespace Sys2Proof.Machine

/-! ## Member states, seen from the cranes -/

/-- Set a member's state. -/
def State.setMember (s : State) (r : MemberRef) (st : MemberState) : State :=
  s.modMember r fun m => { m with state := st }

/-- A member's held record becomes in use (R55). -/
def State.useHeld (s : State) (r : MemberRef) : State := s.modMember r fun m => { m with held := m.held - 1 }

/-- Release the held records of a member to the pool (R55). -/
def State.releaseHeld (s : State) (r : MemberRef) : State :=
  match s.member r with
  | some m => if m.held = 0 then s else (s.modMember r fun m => { m with held := 0 }).recordsFreed
  | none => s

/-! ## The choice of a job -/

/-- The job classes in order (R64). -/
def classOrder : List JobClass := [.patron, .restore, .house]

/-- The FETCH jobs in flight in an aisle (R63). -/
def Crane.fetchesInFlight (c : Crane) : Nat :=
  match c.flight with
  | some f => if f.job.kind = .fetch then 1 else 0
  | none => 0

/-- A queued job of an aisle is dispatchable (R63). -/
def State.dispatchable (s : State) (a : Nat) (j : Job) : Bool :=
  let c := s.crane a
  if j.origin = .crane then decide (c.load = some j.bin)
  else
    c.load.isNone &&
      (decide (j.kind ≠ .fetch) || decide (c.front.length + c.fetchesInFlight < (s.aisle a).frontSize))

/-- A class queue of the aisle holds a dispatchable job. -/
def State.classReady (s : State) (a : Nat) (k : JobClass) : Bool := ((s.crane a).queue k).any (s.dispatchable a)

/-- The credit of a class (R65). -/
def Crane.credit (c : Crane) : JobClass → Nat
  | .patron => c.patronCredit
  | .restore => c.restoreCredit
  | .house => c.houseCredit

/-- Lower the credit of a class by one (R65). -/
def Crane.spend (c : Crane) : JobClass → Crane
  | .patron => { c with patronCredit := c.patronCredit - 1 }
  | .restore => { c with restoreCredit := c.restoreCredit - 1 }
  | .house => { c with houseCredit := c.houseCredit - 1 }

/-- Set each credit of an aisle to its weight (R65). -/
def State.refill (s : State) (a : Nat) : State :=
  let r := s.aisle a
  s.modCrane a fun c =>
    { c with patronCredit := r.patronWeight, restoreCredit := r.restoreWeight, houseCredit := r.houseWeight }

/-- The first class with a dispatchable job and a credit above 0 (R65). -/
def State.creditedClass (s : State) (a : Nat) : Option JobClass :=
  classOrder.find? fun k => s.classReady a k && decide (0 < (s.crane a).credit k)

/-- The class chosen at a test, with the credits as the choice leaves them (R64, R65). -/
def State.chooseClass (s : State) (a : Nat) : Option (JobClass × State) :=
  match (s.aisle a).mode with
  | .strict => (classOrder.find? (s.classReady a)).map fun k => (k, s)
  | .weighted =>
    match s.creditedClass a with
    | some k => some (k, s.modCrane a fun c => c.spend k)
    | none =>
      if classOrder.any (s.classReady a) then
        let t := s.refill a
        (t.creditedClass a).map fun k => (k, t.modCrane a fun c => c.spend k)
      else none

/-- The oldest job of a queue that passes a test, with the others in their order (R64). -/
def oldestJob (p : Job → Bool) (q : List Job) : Option (Job × List Job) := (q.find? p).map fun j => (j, q.eraseP p)

/-! ## Dispatch -/

/-- The bin state that a dispatch gives (R35, R66). -/
def JobKind.dispatched : JobKind → BinState
  | .fetch => .out
  | .store => .out
  | .relocate => .moving

/-- The Order Unit is told of a dispatch: a QUEUED member's FETCH makes it FETCHING (R66, R91). -/
def State.tellDispatched (s : State) (j : Job) : State :=
  match j.owner, j.kind with
  | .member r, .fetch => if s.memberState r = some .queued then s.setMember r .fetching else s
  | _, _ => s

/-- Dispatch a job that has left its queue, the crane standing at `at_` (R66). -/
def State.dispatchJob (s : State) (a : Nat) (j : Job) (at_ : Point) : State :=
  let tag := s.dispatch.jobTag
  let estimate := (s.aisle a).jobEstimate at_ j.origin j.dest
  let deadline := s.params.moveDeadline estimate
  let flight : Flight := { job := j, tag, estimate, deadline, late := false, timer := s.after deadline }
  let t := s.modDispatch fun d => { d with jobTag := tagUp tag }
  let t := (t.modCrane a fun c => { c with state := .busy, flight := some flight }).oweControl
  ((t.setBinState j.bin j.kind.dispatched).tellDispatched j).sendMove a tag j

/-- The conditions of a dispatch test on the aisle, its crane and the part (R63). -/
def State.mayDispatch (s : State) (a : Nat) : Bool :=
  (s.aisle a).configured && decide ((s.crane a).state = .ready) && (s.craneAddress a).isSome && s.aisleClear a &&
    (decide (s.mode.mode = .run) || decide (s.mode.mode = .draining))

/-- Test an aisle for a dispatch (R63); R79 holds the tests back while it removes jobs. -/
def State.dispatchTest (s : State) (a : Nat) : State :=
  if !s.work.testsHeld && s.mayDispatch a then
    match (s.crane a).place, s.chooseClass a with
    | some p, some (k, t) =>
      match oldestJob (t.dispatchable a) ((t.crane a).queue k) with
      | some (j, rest) => (t.modCrane a fun c => c.setQueue k rest).dispatchJob a j p.point
      | none => s
    | _, _ => s
  else s

/-- Append a job to its class queue and test the aisle (R57). -/
def State.appendJob (s : State) (a : Nat) (j : Job) : State :=
  (s.modCrane a fun c => c.setQueue j.cls (c.queue j.cls ++ [j])).dispatchTest a

/-- A job goes to the head of its class queue (R76). -/
def State.requeue (s : State) (a : Nat) (j : Job) : State :=
  s.modCrane a fun c => c.setQueue j.cls (j :: c.queue j.cls)

/-! ## Requests of R57 -/

/-- The job class of a member's jobs. -/
def State.memberClass (s : State) (r : MemberRef) : JobClass :=
  match s.order r.order with
  | some o => o.kind.cls
  | none => .patron

/-- The home slot of a bin as a point of its aisle. -/
def State.homePoint (s : State) (b : Nat) : Point :=
  match s.bin b with
  | some r => r.home.point
  | none => .front

/-- Fetch a member's STORED bin: the bin becomes RESERVED and the member QUEUED (R57, R35). -/
def State.requestFetch (s : State) (r : MemberRef) (b : Nat) : State :=
  let j : Job := { kind := .fetch, cls := s.memberClass r, bin := b, origin := s.homePoint b, dest := .front,
                   owner := .member r }
  (((s.useHeld r).setMember r .queued).setBinState b .reserved).appendJob (s.binAisle b) j

/-- Store a member's bin from the front or the infeed with the member's held record (R57). -/
def State.requestStore (s : State) (r : MemberRef) (b : Nat) (origin : Point) : State :=
  let j : Job := { kind := .store, cls := s.memberClass r, bin := b, origin, dest := s.homePoint b,
                   owner := .member r }
  (s.useHeld r).appendJob (s.binAisle b) j

/-- Queue a recovery store, if a record is free: its bin becomes OUT, and `leave` takes it off the lists that
the rule names (R77, R78). With no record free the refused-recovery count rises. -/
def State.requestRecovery (s : State) (a b : Nat) (origin : Point) (leave : State → State) : State :=
  if 1 ≤ s.freeCount then
    let j : Job := { kind := .store, cls := .house, bin := b, origin, dest := s.homePoint b, owner := .recovery }
    (((leave s).setBinState b .out).notice (.recoveryQueued a b origin)).appendJob a j
  else s.modCrane a fun c => { c with refusedRecoveries := countUp c.refusedRecoveries }

/-! ## Fronts and infeeds -/

/-- A bin joins an aisle's front list (R60). -/
def State.joinFront (s : State) (a b : Nat) : State := s.modCrane a fun c => { c with front := c.front ++ [b] }

/-- A bin joins an aisle's infeed list (R60). -/
def State.joinInfeed (s : State) (a b : Nat) : State := s.modCrane a fun c => { c with infeed := c.infeed ++ [b] }

/-- A bin leaves an aisle's front list, if it is on it; the aisle is tested (R60). -/
def State.leaveFront (s : State) (a b : Nat) : State :=
  if b ∈ (s.crane a).front then (s.modCrane a fun c => { c with front := c.front.erase b }).dispatchTest a else s

/-- A bin leaves an aisle's infeed list, if it is on it; the Lift Pool is told (R60). -/
def State.leaveInfeed (s : State) (a b : Nat) : State :=
  if b ∈ (s.crane a).infeed then (s.modCrane a fun c => { c with infeed := c.infeed.erase b }).oweScan else s

/-- A bin leaves the lists of an aisle. -/
def State.leaveLists (s : State) (a b : Nat) : State := (s.leaveFront a b).leaveInfeed a b

/-! ## Becoming STORED -/

/-- The member in WAIT_BIN for a bin whose order was admitted earliest (R90). -/
def State.waitingMember (s : State) (b : Nat) : Option MemberRef :=
  let waits (o : Order) : Option (Nat × MemberRef) :=
    if o.state = .waiting then none
    else (o.members.findIdx? fun m => decide (m.bin = b) && decide (m.state = .waitBin)).map fun i =>
      (o.admission, ⟨o.number, i⟩)
  let all := s.desk.orders.filterMap fun p => waits p.2
  (all.foldl (fun (best : Option (Nat × MemberRef)) x =>
    match best with
    | none => some x
    | some y => if x.1 < y.1 then some x else some y) none).map (·.2)

/-- Offer a STORED bin: to the member that waits for it, else to the Return Unit (R37, R90, R145). -/
def State.offer (s : State) (b : Nat) : State :=
  match s.waitingMember b with
  | some r => s.requestFetch r b
  | none => s.oweRestore (.bin b)

/-- A bin becomes STORED: it leaves every list and is offered (R37, R60). R68 puts the leaving before the offer for a
STORE; that a WRITE which makes a bin STORED does the same, the dispatch test of the aisle coming first, is the model's
choice (log entry 59). -/
def State.becomeStored (s : State) (b : Nat) : State :=
  (forEach allAisles (fun a s => s.leaveLists a b) (s.setBinState b .stored)).offer b

/-! ## Claims of a SHIFT -/

/-- Release a bin's target slot (R33). -/
def State.releaseTarget (s : State) (b : Nat) : State := s.modBin b fun r => { r with target := none }

end Sys2Proof.Machine
end

