-- ==== Sys2Proof/Machine/Lending.lean ====
section
/-! DEFINITION. What the Loan Table does for its neighbours: the removal of requests (R126), due days (R130),
and the lending classes. -/

namespace Sys2Proof.Machine

/-- Remove one listed tag, if its entry is REQUESTED and names the order: the order counts it as not taken and
NOTICE NOT_TAKEN is sent (R126). -/
def State.giveUpItem (num : Nat) (cause : NotTakenCause) (t : Nat) (s : State) : State :=
  match s.item t, s.order num with
  | some e, some o =>
    if e.state = .requested num then
      ((s.removeItem t).modOrder num fun o => { o with notTaken := o.notTaken + 1 }).notice
        (.notTaken num o.patron t cause)
    else s
  | _, _ => s

/-- Remove the listed tags that are REQUESTED for the order, in list order (R126). -/
def State.giveUpItems (s : State) (num : Nat) (cause : NotTakenCause) (tags : List Nat) : State :=
  forEach tags (State.giveUpItem num cause) s

/-- Every item tag of an order, member by member, each member's in its own list order (R126; log entry 53). -/
def Order.tags (o : Order) : List Nat := o.members.flatMap (·.items)

/-- The due day computed today for a period (R130). -/
def State.dueDay (s : State) (period : Nat) : Nat :=
  let first := s.loans.today + period
  let term := s.params.termEnd
  min 65535 (if term ≠ 0 ∧ s.loans.today ≤ term ∧ term < first then term else first)

/-- The entries LENT, or the entries INHOUSE, whose due day lies before today (R128). -/
def State.overdue (s : State) (w : ItemWord) : Nat :=
  s.loans.items.countP fun p =>
    decide (p.2.state.word = w) &&
      match p.2.state.loan with
      | some l => decide (l.dueDay < s.loans.today)
      | none => false

/-- The loan that an accepted ITEM_OUT makes of an item, by its category's class; none for a class that is
not lent (R131). -/
def State.newLoan (s : State) (category : Nat) : Option ItemState :=
  let c := s.lendClass category
  match c.cls with
  | .loanable => some (.lent { lendDay := s.loans.today, dueDay := s.dueDay c.period, renewals := 0 })
  | .inhouseOnly => some (.inhouse { lendDay := s.loans.today, dueDay := s.loans.today, renewals := 0 })
  | .notLendable => none

end Sys2Proof.Machine
end

