-- ==== Sys2Proof/Machine/Orders.lean ====
section
/-! DEFINITION. The Order Unit: gathering (R93), presentation (R94, R95), the end of an order (R98), losses
(R92), arrivals (R91, R101, R102), the cancellation of a member (R100), and shut zones at a station
(R102, R103). -/

namespace Sys2Proof.Machine

/-! ## Places and records -/

/-- Release one lane place reserved at a station (R88, R92, R100). -/
def State.releaseReservation (s : State) (st : Nat) : State :=
  (s.modStation st fun w => { w with reservations := w.reservations - 1 }).oweAdmission

/-- A reservation becomes a lane bin (R83). -/
def State.joinLane (s : State) (st : Nat) (b : LaneBin) : State :=
  s.modStation st fun w => { w with reservations := w.reservations - 1, lane := w.lane ++ [b] }

/-- A bin leaves a station's lane: an admission pass is owed (R88). -/
def State.leaveLane (s : State) (st b : Nat) : State :=
  (s.modStation st fun w => { w with lane := w.lane.filter fun l => ¬ l.bin = b }).oweAdmission.oweDrain

/-- Mark a bin of a station's lane (R83). -/
def State.markLane (s : State) (st b : Nat) (m : LaneMark) : State :=
  s.modStation st fun w => { w with lane := w.lane.map fun l => if l.bin = b then { l with mark := m } else l }

/-- An entry joins the tail of the carry wait list: a scan is owed (R115, R116). -/
def State.joinWaitList (s : State) (e : WaitEntry) : State :=
  (s.modPool fun p => { p with waitList := p.waitList ++ [e] }).oweScan

/-- Take entries off the carry wait list. -/
def State.dropWaiting (s : State) (p : WaitEntry → Bool) : State :=
  s.modPool fun q => { q with waitList := q.waitList.filter fun e => !p e }

/-- Hand an AT_FRONT member's bin to the carry wait list for its up leg (R91, R103). -/
def State.toUpLeg (s : State) (r : MemberRef) (b st : Nat) : State :=
  s.joinWaitList { bin := b, leg := .up, aisle := s.binAisle b, station := st, ref := r }

/-- Hand an OUTBOUND bin to the carry wait list for its down leg (R97). -/
def State.toDownLeg (s : State) (r : MemberRef) (b st : Nat) : State :=
  s.joinWaitList { bin := b, leg := .down, aisle := s.binAisle b, station := st, ref := r }

/-! ## Gathering -/

/-- Stop the gather timer of an order (R93). -/
def State.stopGather (s : State) (num : Nat) : State := s.modOrder num fun o => { o with gatherTimer := none }

/-- The gather of an order completes: the timer stops, the flag is set, and the order joins its station's
presentation queue (R93). -/
def State.completeGather (s : State) (num st : Nat) : State :=
  (s.modOrder num fun o => { o with gatherTimer := none, gathered := true }).modStation st fun w =>
    { w with presQueue := w.presQueue ++ [num] }

/-- The test of an admitted order's gather (R93). -/
def State.gatherTest (s : State) (num : Nat) : State :=
  match s.order num with
  | some o =>
    if o.state = .admitted ∧ o.gathered = false then
      let live := o.members.filter fun m => m.state.live
      if live = [] then s.stopGather num
      else if live.all fun m => decide (m.state = .inLane) then s.completeGather num o.station
      else s
    else s
  | none => s

/-! ## Presentation -/

/-- Present a member: its bin is marked WINDOW, PRESENT is sent, and a restore member's list closes
(R95, R147). -/
def State.present (s : State) (st : Nat) (r : MemberRef) (b : Nat) : State :=
  (((s.markLane st b .window).setMember r .atWindow).modOrder r.order fun o => { o with listOpen := false }).sendPresent
    st b

/-- The IN_LANE member of lowest position (R94). -/
def Order.nextInLane (o : Order) : Option (MemberRef × Nat) :=
  (o.members.zipIdx.find? fun p => decide (p.1.state = .inLane)).map fun p => (⟨o.number, p.2⟩, p.1.bin)

/-- One step of a window: it gets an owner, the owner's next member is presented, or the owner gives the
window up (R94). Nothing is done while the station's zone is not CLEAR, or while a bin is at the window. -/
def State.windowStep (st : Nat) (s : State) : State :=
  let w := s.station st
  if !s.zoneClear w.zone || w.window.isSome then s
  else
    match w.owner with
    | none =>
      match w.presQueue with
      | [] => s
      | n :: rest =>
        (s.modStation st fun w => { w with owner := some n, presQueue := rest }).modOrder n fun o =>
          { o with state := .presenting }
    | some n =>
      match s.order n with
      | none => s.modStation st fun w => { w with owner := none }
      | some o =>
        match o.nextInLane with
        | some (r, b) => s.present st r b
        | none =>
          if o.members.any fun m => m.state.expected && decide (m.state ≠ .waitBin) then s
          else s.modStation st fun w => { w with owner := none }

/-- The window of a station after an event: steps until none changes anything. Each order that waits takes at
most two, the owner of the moment two more. -/
def State.windowPass (s : State) (st : Nat) : State :=
  repeatTimes (State.windowStep st) (2 * (s.station st).presQueue.length + 3) s

/-! ## The end of an order -/

/-- A member has come to its end (R98). -/
def MemberState.ended (m : MemberState) : Bool := !m.live

/-- The end notice of an order (R98). -/
def Order.endNotice (o : Order) : Notice :=
  let count (st : MemberState) : Nat := o.members.countP fun m => decide (m.state = st)
  .orderEnd o.number o.kind o.station o.patron o.taken o.notTaken (count .stranded) (count .failed)
    (count .cancelled)

/-- Clear the restore-pending flag of a restore order's bin; an attempt for it follows (R149). -/
def State.clearPending (s : State) (o : Order) : State :=
  if o.kind = .restore then
    forEach (o.members.map (·.bin)) (fun b s => (s.modBin b fun r => { r with pending := false }).oweRestore (.bin b)) s
  else s

/-- An order's record becomes absent: a restore pass is owed (R145). -/
def State.freeRecord (s : State) (num : Nat) : State := (s.dropOrder num).oweDrain.oweRestore .pass

/-- The end of an order (R98). -/
def State.endOrder (s : State) (o : Order) : State :=
  let s := s.giveUpItems o.number .orderEnd o.tags
  let s := forEach o.refs (fun r s => s.releaseHeld r) s
  let s := s.modStation o.station fun w =>
    { w with owner := if w.owner = some o.number then none else w.owner
             presQueue := w.presQueue.filter fun n => ¬ n = o.number }
  let s := s.clearPending o
  let s := match s.order o.number with
    | some o => s.notice o.endNotice
    | none => s
  s.freeRecord o.number

/-- The test of an admitted order for its end (R98). -/
def State.endTest (s : State) (num : Nat) : State :=
  match s.order num with
  | some o =>
    if o.state ≠ .waiting ∧ (o.members.all fun m => m.state.ended) = true ∧ s.orderHeld num = false then
      (s.endOrder o).windowPass o.station
    else s
  | none => s

/-- The tests that follow a change of an order's members: the gather, the window, the end (R93, R94, R98). -/
def State.settleOrder (s : State) (num : Nat) : State :=
  match s.order num with
  | some o => ((s.gatherTest num).windowPass o.station).endTest num
  | none => s

/-! ## Losses -/

/-- The station of an order. -/
def State.orderStation (s : State) (num : Nat) : Nat :=
  match s.order num with
  | some o => o.station
  | none => 0

/-- A member is lost: it takes the new state, unless it is CANCELLED or in that state already, and NOTICE
MEMBER_LOST is sent (R92). -/
def State.loseMember (s : State) (r : MemberRef) (st : MemberState) : State :=
  match s.member r with
  | some m =>
    if m.state = .cancelled ∨ m.state = st then s
    else (s.setMember r st).notice (.memberLost r.order r.pos m.bin st)
  | none => s

/-- A member's FETCH has ended without bringing its bin: the member is lost, its reservation, unless its
cancellation gave it up before, and its held record are released (R92, R101). -/
def State.fetchLost (s : State) (r : MemberRef) (st : MemberState) : State :=
  let t := s.loseMember r st
  let t := if s.memberState r = some .cancelled then t else t.releaseReservation (s.orderStation r.order)
  (t.releaseHeld r).settleOrder r.order

/-- A member's STORE has ended without bringing its bin home (R92). -/
def State.storeLost (s : State) (r : MemberRef) : State := (s.loseMember r .stranded).settleOrder r.order

/-- A member's bin is home (R97). -/
def State.binHome (s : State) (r : MemberRef) : State :=
  (if s.memberState r = some .returning then s.setMember r .done else s).settleOrder r.order

/-- A member's FETCH has completed (R68, R91, R101). -/
def State.fetchDone (s : State) (r : MemberRef) (b : Nat) : State :=
  let st := s.orderStation r.order
  if s.memberState r = some .cancelled then s.requestStore r b .front
  else
    let t := s.setMember r .atFront
    if t.zoneClear (t.station st).zone then t.toUpLeg r b st else t

/-! ## Arrivals -/

/-- Start the gather timer of an order at its first arrival in the lane (R93). -/
def State.startGather (s : State) (num : Nat) : State :=
  match s.order num with
  | some o =>
    if o.gatherStart.isNone ∧ o.gathered = false then
      s.modOrder num fun o =>
        { o with gatherStart := some s.now, gatherTimer := s.after (o.gatherLimit.getD 0) }
    else s
  | none => s

/-- A former owner of the window joins the tail of the presentation queue as a member arrives (R94). -/
def State.rejoin (s : State) (num st : Nat) : State :=
  match s.order num with
  | some o =>
    let w := s.station st
    if o.state = .presenting ∧ w.owner ≠ some num ∧ num ∉ w.presQueue then
      s.modStation st fun w => { w with presQueue := w.presQueue ++ [num] }
    else s
  | none => s

/-- An up leg has arrived at its station (R91, R101, R102). -/
def State.upArrived (s : State) (r : MemberRef) (b st : Nat) : State :=
  if s.zoneClear (s.station st).zone then
    if s.memberState r = some .cancelled then
      (s.joinLane st { bin := b, mark := .outbound, ref := r }).toDownLeg r b st
    else
      ((((s.joinLane st { bin := b, mark := .lined, ref := r }).setMember r .inLane).startGather r.order).rejoin
        r.order st).settleOrder r.order
  else
    ((((s.setBinState b .stranded).loseMember r .stranded).releaseReservation st).releaseHeld r).settleOrder r.order

/-- A down leg has arrived at its infeed: the member's STORE is queued (R97, R118). -/
def State.downArrived (s : State) (r : MemberRef) (b a : Nat) : State :=
  let t := if s.memberState r = some .stranded then s.setMember r .returning else s
  (t.joinInfeed a b).requestStore r b .infeed

/-! ## CANCEL -/

/-- A queued job of a class queue is the FETCH of a member. -/
def Job.fetchOf (r : MemberRef) (j : Job) : Bool := decide (j.kind = .fetch) && decide (j.owner = .member r)

/-- Remove a member's FETCH, if it is QUEUED: its record returns to free, and the bin becomes STORED and is
offered (R59). Answers whether it was removed. -/
def State.removeFetch (s : State) (r : MemberRef) (b : Nat) : State × Bool :=
  let a := s.binAisle b
  let k := s.memberClass r
  match oldestJob (Job.fetchOf r) ((s.crane a).queue k) with
  | some (_, rest) => (((s.modCrane a fun c => c.setQueue k rest).recordsFreed).becomeStored b, true)
  | none => (s, false)

/-- The FETCH of a cancelled member is removed, or runs on; a removal releases the STORE record (R100). -/
def State.cancelFetch (s : State) (r : MemberRef) (b : Nat) : State :=
  let t := s.removeFetch r b
  if t.2 then t.1.releaseHeld r else t.1

/-- What a member's stage asks of its cancellation, the member being CANCELLED already (R100). -/
def State.cancelStage (s : State) (st : Nat) (r : MemberRef) (m : Member) : State :=
  match m.state with
  | .waitBin => (s.releaseReservation st).releaseHeld r
  | .queued => (s.releaseReservation st).cancelFetch r m.bin
  | .fetching => (s.releaseReservation st).cancelFetch r m.bin
  | .atFront =>
    ((s.dropWaiting fun e => decide (e.ref = r)).releaseReservation st).requestStore r m.bin .front
  | .carrying => s
  | .inLane => (s.markLane st m.bin .outbound).toDownLeg r m.bin st
  | .atWindow => s.sendWithdraw st m.bin
  | .returning => s
  | .done => s
  | .stranded => s
  | .failed => s
  | .cancelled => s

/-- A member in this state is cancelled by a CANCEL (R100). -/
def MemberState.cancellable : MemberState → Bool
  | .returning | .done | .stranded | .failed | .cancelled => false
  | _ => true

/-- Cancel one member of an order, if its stage allows (R100). -/
def State.cancelMember (st : Nat) (r : MemberRef) (s : State) : State :=
  match s.member r with
  | some m =>
    if m.state.cancellable then
      ((s.setMember r .cancelled).cancelStage st r m).giveUpItems r.order .cancel m.items
    else s
  | none => s

/-! ## Shut zones at a station -/

/-- One lane bin of a station whose zone has left CLEAR (R102). -/
def State.strandLaneBin (l : LaneBin) (s : State) : State :=
  ((s.setBinState l.bin .stranded).loseMember l.ref .stranded).releaseHeld l.ref

/-- The former window owner of a station whose zone has left CLEAR (R102). -/
def State.oustOwner (s : State) (st : Nat) (owner : Option Nat) : State :=
  match owner with
  | none => s
  | some n =>
    match s.order n with
    | some o =>
      if o.members.any fun m => m.state.live then
        s.modStation st fun w => { w with presQueue := w.presQueue ++ [n] }
      else s
    | none => s

/-- The zone of a station has left CLEAR (R102). The lane bins are taken in lane order, each with its NOTICE MEMBER_LOST,
and the tests of their orders follow after the last (log entry 49). -/
def State.stationShut (st : Nat) (s : State) : State :=
  let w := s.station st
  let t := s.dropWaiting fun e => decide (e.station = st)
  let t := (t.modStation st fun w => { w with lane := [], owner := none }).oweDrain
  let t := if w.lane = [] then t else t.oweAdmission
  let t := forEach w.lane State.strandLaneBin t
  let t := t.oustOwner st w.owner
  forEach (w.lane.map fun l => l.ref.order).dedup (fun n s => s.settleOrder n) t

/-- Insert an order into a list of orders kept in order of admission. -/
def insertByAdmission (o : Order) : List Order → List Order
  | [] => [o]
  | p :: ps => if o.admission < p.admission then o :: p :: ps else p :: insertByAdmission o ps

/-- The orders past admission placed at a station, in order of admission (R103). -/
def State.admittedAt (s : State) (st : Nat) : List Order :=
  ((s.desk.orders.map (·.2)).filter fun o => decide (o.station = st) && decide (o.state ≠ .waiting)).foldr
    insertByAdmission []

/-- The AT_FRONT members of an order with their bins, in member order. -/
def Order.atFront (o : Order) : List (MemberRef × Nat) :=
  o.members.zipIdx.filterMap fun p => if p.1.state = .atFront then some (⟨o.number, p.2⟩, p.1.bin) else none

/-- The zone of a station has become CLEAR: its AT_FRONT members are handed on and its window gets an owner (R103). The
admission pass follows for all the zone's stations together (R168). -/
def State.stationOpen (st : Nat) (s : State) : State :=
  let fronts := (s.admittedAt st).flatMap Order.atFront
  (forEach fronts (fun f s => s.toUpLeg f.1 f.2 st) s).windowPass st

/-! ## Admission -/

/-- The orders WAITING at a station hold its admission conditions for the head (R88). -/
def State.admissible (s : State) (st : Nat) (o : Order) : Bool :=
  let w := s.station st
  decide (s.mode.mode = .run) && s.zoneClear w.zone &&
    decide (o.members.length + (w.lane.length + w.reservations) ≤ w.laneSize) &&
    decide (Config.poolReserve + 2 * o.members.length ≤ s.freeCount)

/-- One member of an order being admitted: its FETCH is requested if its bin is STORED, else it waits
(R89). -/
def State.admitMember (r : MemberRef) (s : State) : State :=
  match s.member r with
  | some m => if s.binState m.bin = some .stored then s.requestFetch r m.bin else s
  | none => s

/-- The head of a station's order queue is admitted (R89). -/
def State.admitHead (s : State) (st : Nat) (o : Order) (rest : List Nat) : State :=
  let w := s.station st
  let n := s.desk.admissions
  let limit := s.gatherLimit (o.members.map (·.bin)) w.slack
  let t := s.modStation st fun w =>
    { w with orderQueue := rest, reservations := w.reservations + o.members.length }
  let t := t.modOrder o.number fun o =>
    { o with state := .admitted, gatherLimit := some limit, admission := n,
             members := o.members.map fun m => { m with held := 2, state := .waitBin } }
  let t := t.modDesk fun d => { d with admissions := n + 1 }
  forEach o.refs State.admitMember t.oweWaiting

/-- Admit the head of a station's order queue, if it can be (R88). -/
def State.admissionStep (st : Nat) (s : State) : State :=
  match (s.station st).orderQueue with
  | [] => s
  | n :: rest =>
    match s.order n with
    | some o => if s.admissible st o then s.admitHead st o rest else s
    | none => s

/-- The admission pass over the stations in ascending index (R88). -/
def State.admissionPass (s : State) : State :=
  forEach allStations (fun st s => repeatTimes (State.admissionStep st) (s.station st).orderQueue.length s) s

/-! ## New orders -/

/-- The lowest index that a table does not list, below a bound. -/
def freeIndex {α : Type} (t : Tab α) (bound : Nat) : Option Nat :=
  (List.range bound).find? fun i => (t.find i).isNone

/-- An order joins the table at an index and its station's order queue as WAITING (R86, R87). -/
def State.placeOrder (s : State) (i : Nat) (o : Order) : State :=
  let t := s.modDesk fun d => { d with orders := d.orders.put i o }
  (t.modStation o.station fun w => { w with orderQueue := w.orderQueue ++ [o.number] }).oweWaiting

/-- A new WAITING order record (R84, R86, R87). -/
def newOrder (number : Nat) (kind : OrderKind) (station patron : Nat) (members : List (Nat × List Nat))
    (listOpen : Bool) : Order :=
  { number, kind, station, patron, state := .waiting, gathered := false, gatherLimit := none,
    gatherStart := none, gatherTimer := none, taken := 0, notTaken := 0,
    members := members.map fun m => { bin := m.1, items := m.2, state := .waitBin, held := 0 },
    admission := 0, listOpen }

/-- An order's count of items lent or restored rises by one (R95). -/
def State.countTaken (s : State) (num : Nat) : State := s.modOrder num fun o => { o with taken := o.taken + 1 }

/-- An order's count of items not taken rises (R96, R149). -/
def State.countNotTaken (s : State) (num n : Nat) : State :=
  s.modOrder num fun o => { o with notTaken := o.notTaken + n }

end Sys2Proof.Machine
end

