-- ==== Sys2Proof/Machine/Carriage.lean ====
section
/-! DEFINITION. The Lift Pool: the rotation (R108, R111), barring (R113), the scan and the assignment of
carries (R116, R117), and giving up (R120). -/

namespace Sys2Proof.Machine

/-! ## The rotation -/

/-- A word of a lift in rotation (R108). -/
def Word.member : Word → Bool
  | .on _ => true
  | .tail _ => true
  | _ => false

/-- Set a lift's word. -/
def State.setWord (s : State) (l : Nat) (w : Word) : State := s.modLift l fun r => { r with word := w }

/-- The number of lifts in rotation (R108). -/
def State.rotationSize (s : State) : Nat := allLifts.countP fun l => (s.lift l).word.member

/-- The lift in rotation with a sequence number (R108). -/
def State.liftWithSeq (s : State) (q : Nat) : Option Nat := allLifts.find? fun l => decide ((s.lift l).word.seq = some q)

/-- Renumber a word for the removal of sequence number `q`, `top` being the highest number left
(R111, steps 2 and 3). -/
def Word.renumber (q top : Nat) : Word → Word
  | .on k => let k' := if q < k then k - 1 else k; if k' = top then .tail k' else .on k'
  | .tail k => let k' := if q < k then k - 1 else k; if k' = top then .tail k' else .on k'
  | w => w

/-- The pointer after the removal of sequence number `q` from a rotation of `n` (R111, step 4). -/
def pointerAfter (p q n : Nat) : Nat := if n ≤ 1 then 0 else (if q < p then p - 1 else p) % (n - 1)

/-- Remove a lift from the rotation, if it is in it; its word becomes `w` (R111). -/
def State.removeLift (s : State) (l : Nat) (w : Word) : State :=
  match (s.lift l).word.seq with
  | none => s.setWord l w
  | some q =>
    let n := s.rotationSize
    let t := s.setWord l w
    let t := forEach allLifts (fun k s => s.modLift k fun r => { r with word := r.word.renumber q (n - 2) }) t
    t.modPool fun p => { p with pointer := pointerAfter s.pool.pointer q n }

/-- A lift joins the rotation as TAIL (R109). -/
def State.enterRotation (s : State) (l : Nat) : State :=
  let n := s.rotationSize
  let t := forEach allLifts (fun k s => s.modLift k fun r =>
    match r.word with
    | .tail q => { r with word := .on q }
    | _ => r) s
  (t.setWord l (.tail n)).modLift l fun r => { r with answerTimer := none }

/-- Send MEMBER to each lift whose word an operation changed, given the state before it: lifts out of rotation
first, in ascending number, then lifts in rotation by sequence number (R108). A lift that stays outside the rotation while its word changes (one
in ASK or OFF that is barred) R108 does not place: that it goes with those that leave, in ascending lift number, is the
model's choice (log entry 62). -/
def State.tellWords (s before : State) : State :=
  let changed := fun l => decide ((s.lift l).word ≠ (before.lift l).word)
  let outs := allLifts.filter fun l => changed l && !(s.lift l).word.member
  let ins := ((List.range 6).filterMap s.liftWithSeq).filter changed
  forEach (outs ++ ins) (fun l s => s.sendMember l) s

/-! ## Barring -/

/-- The members, the bins and the timers of a barred lift's carries (R113, step 3). -/
def State.strandCarry (c : Carry) (s : State) : State :=
  ((s.setBinState c.bin .stranded).loseMember c.ref .stranded).settleOrder c.ref.order

/-- What barring does to a lift besides the rotation: the carries are marked late and stranded, and NOTICE
LIFT_BARRED is sent (R113, steps 3 and 5). -/
def State.barCarries (cause : BarCause) (l : Nat) (s : State) : State :=
  let cs := (s.lift l).carries
  let t := s.modLift l fun r =>
    { r with answerTimer := none, carries := r.carries.map fun c => { c with late := true, timer := none } }
  (forEach cs State.strandCarry t).notice (.liftBarred l cause cs.length)

/-- The lifts of a list in descending order of their sequence numbers, those without one last. -/
def State.bySeqDown (s : State) (ls : List Nat) : List Nat :=
  ((List.range 6).reverse.filterMap fun q => ls.find? fun l => decide ((s.lift l).word.seq = some q)) ++
    ls.filter fun l => !(s.lift l).word.member

/-- Bar several lifts in one event (R113, R111). The MEMBER telegrams go before any PRESENT that the stranding of the
members brings about (log entry 50). -/
def State.barLifts (s : State) (ls : List Nat) (cause : BarCause) : State :=
  let t := forEach (s.bySeqDown ls) (fun l s => s.removeLift l .bar) s
  (forEach ls (State.barCarries cause) (t.tellWords s)).oweDrain

/-- A lift that a shut zone bars: in rotation, in ASK, or OFF with carries in flight (R114). -/
def Lift.barredByZone (r : Lift) : Bool :=
  match r.word with
  | .on _ => true
  | .tail _ => true
  | .ask => true
  | .off => !r.carries.isEmpty
  | .bar => false

/-- The lifts of a zone that leaves CLEAR are barred (R114), or held back to be barred with those of the other zones
that leave CLEAR in one WRITE (R111). -/
def State.liftsShut (s : State) (z : Nat) : State :=
  let ls := allLifts.filter fun l => decide ((s.lift l).zone = z) && (s.lift l).barredByZone
  match s.work.bars with
  | none => if ls = [] then s else s.barLifts ls .zone
  | some held => s.modWork fun w => { w with bars := some (held ++ ls) }

/-- From here on the lifts of zones that leave CLEAR are held back (R111). -/
def State.holdBars (s : State) : State := s.modWork fun w => { w with bars := some [] }

/-- The lifts held back are barred together, in one removal each and one MEMBER to each lift changed (R108, R111, R114). -/
def State.barHeld (s : State) : State :=
  match s.work.bars with
  | none => s
  | some held =>
    let ls := allLifts.filter fun l => decide (l ∈ held)
    let t := s.modWork fun w => { w with bars := none }
    if ls = [] then t else t.barLifts ls .zone

/-! ## Giving up -/

/-- Give up one carry of a lift: NOTICE CARRY_GIVEN_UP goes before the notices of an order that this ends
(R120; log entry 41). -/
def State.giveUpCarry (l : Nat) (c : Carry) (s : State) : State :=
  let t := s.modLift l fun r => { r with carries := r.carries.filter fun d => ¬ d.tag = c.tag }
  let t := match c.leg with
    | .up => t.releaseReservation c.station
    | .down => t
  (((t.releaseHeld c.ref).notice (.carryGivenUp l c.tag c.bin)).settleOrder c.ref.order).oweScan.oweDrain

/-! ## The scan -/

/-- The carries in flight toward an aisle's infeed, by every lift (R116). -/
def State.carriesToward (s : State) (a : Nat) : Nat :=
  s.carries.countP fun c => decide (c.leg = .down) && decide (c.aisle = a)

/-- The condition of eligibility that depends on the leg (R116). -/
def State.legOpen (s : State) (e : WaitEntry) : Bool :=
  let r := s.aisle e.aisle
  match e.leg with
  | .up => s.zoneClear r.frontZone
  | .down =>
    s.zoneClear r.infeedZone && decide ((s.crane e.aisle).infeed.length + s.carriesToward e.aisle < r.infeedSize)

/-- A lift is eligible for an entry of the wait list (R116). -/
def State.eligible (s : State) (e : WaitEntry) (l : Nat) : Bool :=
  let r := s.lift l
  r.word.member && s.zoneClear r.zone && decide (r.carries.length < r.carriers) && r.mask.getLsbD e.station &&
    s.legOpen e

/-- The lifts in rotation in the order in which an assignment tries them (R116). -/
def State.searchOrder (s : State) : List Nat :=
  let n := s.rotationSize
  (List.range n).filterMap fun i => s.liftWithSeq ((s.pool.pointer + i) % n)

/-- The pointer after an assignment to a lift (R116). -/
def Word.nextPointer : Word → Nat
  | .on q => q + 1
  | _ => 0

/-- Assign a carry to a lift (R117). -/
def State.assign (s : State) (e : WaitEntry) (l : Nat) : State :=
  let c : Carry :=
    { tag := s.pool.carryTag, bin := e.bin, leg := e.leg, aisle := e.aisle, station := e.station, ref := e.ref,
      late := false, timer := s.after (s.lift l).carryLimit }
  let t := s.dropWaiting fun x => decide (x.ref = e.ref)
  let t := t.modPool fun p => { p with carryTag := tagUp s.pool.carryTag, pointer := (s.lift l).word.nextPointer }
  let t := (t.modLift l fun r => { r with carries := r.carries ++ [c] }).sendCarry l c
  match e.leg with
  | .up =>
    let t := t.leaveFront e.aisle e.bin
    if t.memberState e.ref = some .atFront then t.setMember e.ref .carrying else t
  | .down => t.leaveLane e.station e.bin

/-- Try one entry of the wait list (R116). -/
def State.scanEntry (e : WaitEntry) (s : State) : State :=
  match s.searchOrder.find? (s.eligible e) with
  | some l => s.assign e l
  | none => s

/-- The scan of the carry wait list (R116). -/
def State.scan (s : State) : State := forEach s.pool.waitList State.scanEntry s

end Sys2Proof.Machine
end

