-- ==== Sys2Proof/Machine/Restoring.lean ====
section
/-! DEFINITION. The Return Unit: bins due (R144), creation attempts and passes (R145), the creation of a
restore order (R87, R146), and the reach of a restore order's item list (R147). -/

namespace Sys2Proof.Machine

/-- The age of a bin: that of its first staging entry (R142). -/
def State.binAge (s : State) (b : Nat) : Option Nat :=
  (s.returns.staging.find? fun e => decide (e.bin = b)).map (·.age)

/-- A bin is due for restoration (R144). -/
def State.due (s : State) (b : Nat) : Bool :=
  match s.bin b with
  | some r =>
    decide (s.params.restoreThreshold ≤ r.staged) ||
      match s.binAge b with
      | some g => decide (s.params.restoreAge ≤ g)
      | none => false
  | none => false

/-- A station that may take a restore order: RESHELVE, with an address and a CLEAR zone (R144). -/
def State.reshelving (s : State) (st : Nat) : Bool :=
  decide ((s.station st).kind = .reshelve) && (s.stationAddress st).isSome && s.zoneClear (s.station st).zone

/-- The orders in state WAITING or ADMITTED at a station (R146). -/
def State.unpresented (s : State) (st : Nat) : Nat :=
  s.desk.orders.countP fun p => decide (p.2.station = st) && decide (p.2.state ≠ .presenting)

/-- The station chosen for a restore order: the fewest such orders, ties to the lowest index (R146). -/
def State.restoreStation (s : State) : Option Nat :=
  ((allStations.filter s.reshelving).foldl (fun (best : Option (Nat × Nat)) st =>
    match best with
    | none => some (s.unpresented st, st)
    | some (n, b) => if s.unpresented st < n then some (s.unpresented st, st) else some (n, b)) none).map (·.2)

/-- The restore number that follows another: 65535 is followed by 32768 (R87). -/
def restoreNumberAfter (n : Nat) : Nat := if n < 65535 then n + 1 else 32768

/-- The first number at or after `n` that no order in use holds, among at most `fuel` (R87). -/
def State.restoreNumberFrom (s : State) : (fuel n : Nat) → Nat
  | 0, n => n
  | f + 1, n => if (s.order n).isNone then n else s.restoreNumberFrom f (restoreNumberAfter n)

/-- The tags of a bin's staging entries, in staging order (R146). -/
def State.stagedTags (s : State) (b : Nat) : List Nat :=
  (s.returns.staging.filter fun e => decide (e.bin = b)).map (·.item)

/-- Create a restore order for a bin, with the admission pass that follows (R146, R87, R88). At most 256
orders are in use, so a free number is found within 256 tries. -/
def State.createRestore (s : State) (b st i : Nat) : State :=
  let num := s.restoreNumberFrom Config.orderRecords s.desk.restoreNumber
  let t := s.modDesk fun d => { d with restoreNumber := restoreNumberAfter num }
  let t := t.modBin b fun r => { r with pending := true }
  (t.placeOrder i (newOrder num .restore st 0 [(b, s.stagedTags b)] true)).admissionPass

/-- One creation attempt for a bin (R144, R145). -/
def State.restoreAttempt (b : Nat) (s : State) : State :=
  match s.bin b with
  | some r =>
    if s.due b ∧ s.mode.mode = .run ∧ r.state = .stored ∧ r.pending = false then
      match s.restoreStation, freeIndex s.desk.orders Config.orderRecords with
      | some st, some i => s.createRestore b st i
      | _, _ => s
    else s
  | none => s

/-- Keep the first occurrence of each number of a list. -/
def firstOnly : (seen : List Nat) → List Nat → List Nat
  | _, [] => []
  | seen, x :: xs => if x ∈ seen then firstOnly seen xs else x :: firstOnly (x :: seen) xs

/-- The restore pass: an attempt for each bin with staged items, in the order of their oldest entries (R145). -/
def State.restorePass (s : State) : State :=
  forEach (firstOnly [] (s.returns.staging.map (·.bin))) State.restoreAttempt s

/-- Make one owed restore test (R145). -/
def State.restoreTest (t : RestoreTest) (s : State) : State :=
  match t with
  | .bin b => s.restoreAttempt b
  | .pass => s.restorePass

/-- The open item list of a bin's restore order takes one more tag (R141 step 3, R147). -/
def State.extendList (s : State) (b t : Nat) : State :=
  s.modDesk fun d =>
    { d with orders := d.orders.mapVals fun o =>
        if o.kind = .restore ∧ o.listOpen = true ∧ o.members.any (fun m => decide (m.bin = b)) = true then
          { o with members := o.members.map fun m => if m.bin = b then { m with items := m.items ++ [t] } else m }
        else o }

end Sys2Proof.Machine
end

