-- ==== Sys2Proof/Machine/Lines.lean ====
section
/-! DEFINITION. The Line Block: the function of a line (R175), levels at the pin and logical values (R176),
pulls (R177), the outputs (R179, R180), the fire inputs that Zone Control reads, and call keys (R181). -/

namespace Sys2Proof.Machine

/-- The function a line carries, with the zone or aisle it names (R175). -/
inductive LineFunction where
  | generalIn
  | zoneAlarm (zone : Nat)
  | shutterClosed (zone : Nat)
  | shutterOpen (zone : Nat)
  | callKey
  | generalOut
  | shutterClose (zone : Nat)
  | driveEnable (aisle : Nat)
  | beacon
  deriving DecidableEq, Repr

/-- The function that a selection gives to a line (R175). -/
def lineFunction (n : Nat) : Selection → LineFunction
  | .generalIn => .generalIn
  | .generalOut => .generalOut
  | .first =>
    if n < 8 then .zoneAlarm n
    else if n < 16 then .shutterClose (n - 8)
    else if n < 24 then .shutterClosed (n - 16)
    else if n < 32 then .shutterOpen (n - 24)
    else if n < 44 then .driveEnable (n - 32)
    else .beacon
  | .second =>
    if n < 8 then .callKey
    else if n < 16 then .beacon
    else if n < 32 then .callKey
    else if n < 44 then .beacon
    else .callKey

/-- A function under which a line is an input (R175). -/
def LineFunction.input : LineFunction → Bool
  | .generalIn | .zoneAlarm _ | .shutterClosed _ | .shutterOpen _ | .callKey => true
  | _ => false

/-- A fire function (R175). -/
def LineFunction.fire : LineFunction → Bool
  | .zoneAlarm _ | .shutterClose _ | .shutterClosed _ | .shutterOpen _ | .driveEnable _ => true
  | _ => false

/-- The function a line carries now. -/
def State.function (s : State) (n : Nat) : LineFunction := lineFunction n (s.line n).selection

/-- The electrical level of a logical value, or the logical value of an electrical level (R176). -/
def Polarity.apply (p : Polarity) (level : Bool) : Bool :=
  match p with
  | .activeHigh => level
  | .activeLow => !level

/-- The logical value driven onto an output line (R175, R179, R180). -/
def State.driven (s : State) (n : Nat) : Bool :=
  match s.function n with
  | .generalOut => (s.line n).output
  | .shutterClose z => decide (z ∈ s.outputs.shutters)
  | .driveEnable a => decide (a ∈ s.outputs.drives)
  | .beacon => s.outputs.beacon
  | _ => false

/-- The logical value of a line: driven, or read at the pin (R176). -/
def State.lineValue (s : State) (n : Nat) : Bool :=
  if (s.function n).input then (s.line n).polarity.apply (s.line n).pin else s.driven n

/-- The electrical level of a line, HIGH or LOW (R176). -/
def State.pinLevel (s : State) (n : Nat) : Bool :=
  if (s.function n).input then (s.line n).pin else (s.line n).polarity.apply (s.driven n)

/-- A CALL_KEY line is asserted (R181). -/
def State.keyPressed (s : State) (n : Nat) : Bool := decide (s.function n = .callKey) && s.lineValue n

/-- Sample the pin of an input line: its wire's level, else the group's pull, else a free value (R177; log
entry 4). -/
def State.samplePin (s : State) (n : Nat) : State :=
  if (s.function n).input then
    match (s.line n).wiring, s.pull (n / 4) with
    | .high, _ => s.modLine n fun r => { r with pin := true }
    | .low, _ => s.modLine n fun r => { r with pin := false }
    | .unwired, .up => s.modLine n fun r => { r with pin := true }
    | .unwired, .down => s.modLine n fun r => { r with pin := false }
    | .unwired, .none =>
      { s.modLine n (fun r => { r with pin := Config.floatingPin s.floats }) with floats := s.floats + 1 }
  else s

/-! ## The fire inputs -/

/-- A line carries its first function. -/
def State.selectedFirst (s : State) (n : Nat) : Bool := decide ((s.line n).selection = .first)

/-- The alarm input of a zone; an absent alarm line reads as deasserted (R155). -/
def State.alarmInput (s : State) (z : Nat) : Bool := s.selectedFirst z && s.lineValue z

/-- The closed-feedback line of a zone is present and asserted (R161). -/
def State.closedSeen (s : State) (z : Nat) : Bool := s.selectedFirst (16 + z) && s.lineValue (16 + z)

/-- The open-feedback line of a zone is present and asserted (R165). -/
def State.openSeen (s : State) (z : Nat) : Bool := s.selectedFirst (24 + z) && s.lineValue (24 + z)

/-! ## Call keys -/

/-- The call-key debounce timer of a line after an event, `before` saying whether its key was pressed before
it: it starts when the key becomes pressed and stops when it is pressed no longer (R181). -/
def State.settleKey (s : State) (n : Nat) (before : Bool) : State :=
  if s.keyPressed n then
    if before then s else s.modLine n fun r => { r with keyTimer := s.after Config.callKeyDebounce }
  else if (s.line n).keyTimer.isSome then s.modLine n fun r => { r with keyTimer := none }
  else s

end Sys2Proof.Machine
end

