-- ==== Sys2Proof/Machine/Zones.lean ====
section
/-! DEFINITION. Crane requests (R73, R74) and Zone Control: the shutdown and restore sequences (R156 to R168)
and the alarm input (R155). A sequence runs through every state that it passes in one event. -/

namespace Sys2Proof.Machine

/-! ## Requests to Crane Dispatch -/

/-- Set a crane's state; a change is told to Zone Control and Mode Control (R61). -/
def State.setCraneState (s : State) (a : Nat) (st : CraneState) : State :=
  if (s.crane a).state = st then s else (s.modCrane a fun c => { c with state := st }).oweControl

/-- Park one crane, if it is READY or BUSY (R74). -/
def State.parkCrane (a : Nat) (s : State) : State :=
  if (s.aisle a).configured && (s.craneAddress a).isSome then
    match (s.crane a).state with
    | .ready => (s.setCraneState a .parking).sendPark a
    | .busy => (s.setCraneState a .parking).sendPark a
    | _ => s
  else s

/-- A park request, served in the order of the list: ascending aisle number (R74; log entry 22). -/
def State.parkRequest (s : State) (aisles : List Nat) : State := forEach aisles State.parkCrane s

/-- Fault one crane, if it is not FAULTED (R73). -/
def State.faultCrane (cause : FaultCause) (a : Nat) (s : State) : State :=
  if (s.crane a).state = .faulted then s
  else ((s.modCrane a fun c => { c with faultCode := none }).setCraneState a .faulted).notice
    (.craneFault a cause none none)

/-- A request with result FAULTED, served in the order of the list: ascending aisle number (R73; log entry 22). -/
def State.faultRequest (s : State) (aisles : List Nat) (cause : FaultCause) : State :=
  forEach aisles (State.faultCrane cause) s

/-- A crane goes off line: position and load become absent (R61). -/
def State.craneOffline (a : Nat) (s : State) : State :=
  (s.modCrane a fun c => { c with place := none }).setCraneState a .offline

/-- A request with result OFFLINE (R73). -/
def State.offlineRequest (s : State) (aisles : List Nat) : State :=
  forEach (aisles.filter fun a => decide ((s.crane a).state ≠ .faulted)) State.craneOffline s

/-- The cranes that a park deadline counts and that have an address (R158, R187). -/
def State.awaitable (s : State) (a : Nat) : Bool :=
  (s.craneAddress a).isSome && (s.parkContribution a).isSome

/-- Some crane of an awaited set is READY, BUSY or PARKING (R159, R187). -/
def State.stillAwaited (s : State) (aisles : List Nat) : Bool := aisles.any fun a => (s.crane a).state.unparked

/-! ## Changes of a zone's state -/

/-- The aisles whose drive level differs between two states (R170). -/
def State.movedDrives (s t : State) : List Nat := allAisles.filter fun a => decide (t.driveLevel a ≠ s.driveLevel a)

/-- The drive levels of these aisles have changed: the tests of the zones they touch and, if there are any, Mode
Control's are owed (R166, R190). -/
def State.oweDrives (s : State) (aisles : List Nat) : State :=
  s.modWork fun w =>
    { w with
      zoneTests := w.zoneTests ++ aisles.flatMap fun a => (s.aisle a).zones
      modeTest := w.modeTest || !aisles.isEmpty }

/-- A zone changes state, the tests that a change of drive level asks for are owed (R166, R190), and NOTICE ZONE_STATE
is sent (R157); the kept levels are computed when the event closes (R170, R171). -/
def State.zoneTo (s : State) (z : Nat) (f : Zone → Zone) : State :=
  let t := (s.modZone z f).oweDrives (s.movedDrives (s.modZone z f))
  t.notice (.zoneState z (t.zone z).state (t.zone z).cause (t.zone z).fault)

/-- The stations of a zone. -/
def State.stationsIn (s : State) (z : Nat) : List Nat := allStations.filter fun st => decide ((s.station st).zone = z)

/-- The Order Unit and the Lift Pool are told that a zone has left CLEAR (R157, steps 3 and 4). -/
def State.leaveClear (s : State) (z : Nat) : State := (forEach (s.stationsIn z) State.stationShut s).liftsShut z

/-- An admission pass that a rule's own order puts here; it settles the one owed so far (R88). -/
def State.admitNow (s : State) : State := (s.modWork fun w => { w with admission := false }).admissionPass

/-- A zone becomes CLEAR: its neighbours are told in order, the scan and the restore pass following the admission pass
(R168). The order of the aisles' tests is log entry 22. -/
def State.becomeClear (s : State) (z : Nat) : State :=
  let t := s.zoneTo z fun r => { r with state := .clear, cause := none, timer := none }
  let t := forEach (t.aislesTouching z) (fun a s => s.dispatchTest a) t
  ((forEach (t.stationsIn z) State.stationOpen t).admitNow.oweScan).oweRestore .pass

/-- A zone enters ENABLING (R166); its ready test follows in the event. -/
def State.enterEnabling (s : State) (z : Nat) : State :=
  (s.zoneTo z fun r => { r with state := .enabling, timer := s.after r.readyLimit }).oweZone z

/-- A moving shutter's feedback is taken at its level (R161, R165). -/
def State.feedback (z : Nat) (s : State) : State :=
  match (s.zone z).state with
  | .closing => if s.closedSeen z then s.zoneTo z fun r => { r with state := .sealed, timer := none } else s
  | .opening => if s.openSeen z then s.enterEnabling z else s
  | _ => s

/-- A zone enters CLOSING from a state other than CLEAR (R161). -/
def State.enterClosing (s : State) (z : Nat) : State :=
  (s.zoneTo z fun r => { r with state := .closing, fault := false, timer := s.after r.shutterLimit }).feedback z

/-- A zone enters CLOSING from CLEAR (R156, R157, R163). -/
def State.closeFromClear (s : State) (z : Nat) : State :=
  ((s.zoneTo z fun r =>
    { r with state := .closing, fault := false, timer := s.after r.shutterLimit }).leaveClear z).feedback z

/-- A zone enters SETTLING; a brake settle of 0 takes it on to CLOSING (R160). -/
def State.enterSettling (s : State) (z : Nat) : State :=
  let t := s.zoneTo z fun r => { r with state := .settling, timer := s.after r.brakeSettle, awaited := [] }
  if (t.zone z).brakeSettle = 0 then t.enterClosing z else t

/-- The park deadline, the awaited set and the park request of an entry to STOPPING, whose test follows in the event
(R158). -/
def State.beginStopping (s : State) (z : Nat) : State :=
  let named := s.aislesTouching z
  let deadline := s.parkDeadline named (s.zone z).parkAllowance
  let awaited := named.filter s.awaitable
  ((s.modZone z fun r => { r with timer := s.after deadline, awaited }).parkRequest named).oweZone z

/-- A zone enters STOPPING from a state other than CLEAR (R156, R158). -/
def State.enterStopping (s : State) (z : Nat) : State :=
  (s.zoneTo z fun r => { r with state := .stopping, timer := none }).beginStopping z

/-- A zone enters STOPPING from CLEAR (R156, R157, R158). -/
def State.stopFromClear (s : State) (z : Nat) : State :=
  ((s.zoneTo z fun r => { r with state := .stopping, timer := none }).leaveClear z).beginStopping z

/-- Give a zone its cause (R154). -/
def State.giveCause (s : State) (z : Nat) (c : ZoneCause) : State := s.modZone z fun r => { r with cause := some c }

/-- A shutdown is taken (R156). -/
def State.shutdown (s : State) (z : Nat) (c : ZoneCause) : State :=
  match (s.zone z).state with
  | .clear =>
    if s.mode.mode = .quiet then (s.giveCause z c).closeFromClear z else (s.giveCause z c).stopFromClear z
  | .enabling => if s.mode.mode = .quiet then (s.giveCause z c).enterClosing z else (s.giveCause z c).enterStopping z
  | .opening => (s.giveCause z c).enterClosing z
  | .stopping | .settling | .closing | .sealed => s

/-- A zone enters OPENING (R164). -/
def State.enterOpening (s : State) (z : Nat) : State :=
  (s.zoneTo z fun r =>
    { r with state := .opening, cause := none, fault := false, timer := s.after r.shutterLimit }).feedback z

/-! ## Alarms -/

/-- The Line Block hands over a zone's alarm level: a rise starts the debounce timer, or takes the alarm at
once where the setting is 0, and a fall stops it (R155). -/
def State.handAlarm (z : Nat) (s : State) : State :=
  let level := s.alarmInput z
  if (s.zone z).alarm = level then s
  else if level then
    if (s.zone z).debounce = 0 then
      (s.modZone z fun r => { r with alarm := true, debounceTimer := none }).shutdown z .alarm
    else s.modZone z fun r => { r with alarm := true, debounceTimer := s.after r.debounce }
  else s.modZone z fun r => { r with alarm := false, debounceTimer := none }

/-- An input line's value has changed or may have: its effects at Zone Control and the call keys (R179, R181),
`before` saying whether the line's call key was pressed before. -/
def State.lineChanged (s : State) (n : Nat) (before : Bool) : State :=
  let t := s.settleKey n before
  if n < 8 then State.handAlarm n t
  else if 16 ≤ n ∧ n < 24 ∧ t.selectedFirst n then State.feedback (n - 16) t
  else if 24 ≤ n ∧ n < 32 ∧ t.selectedFirst n then State.feedback (n - 24) t
  else t

/-! ## Tests that follow crane reports -/

/-- STOPPING follows its cranes: those become READY are parked, and it ends when none awaited is READY, BUSY
or PARKING (R159). -/
def State.stoppingTest (z : Nat) (s : State) : State :=
  if (s.zone z).state = .stopping then
    let t := s.parkRequest ((s.aislesTouching z).filter fun a => decide ((s.crane a).state = .ready))
    if t.stillAwaited (t.zone z).awaited then t else t.enterSettling z
  else s

/-- The ready test of an ENABLING zone (R166, R167). None is made in the event that ends a reset period, in which no zone
becomes CLEAR (R172; log entry 42). -/
def State.readyTest (z : Nat) (s : State) : State :=
  if (s.zone z).state = .enabling ∧ s.mode.mode ≠ .quiet ∧ s.resets.phase = .running then
    if ((s.aislesTouching z).filter s.counted).all fun a => decide ((s.crane a).state = .ready) then s.becomeClear z
    else s
  else s

/-- A zone's own tests, that of STOPPING before that of ENABLING (R159, R166; log entry 44). -/
def State.zoneTests (z : Nat) (s : State) : State := State.readyTest z (State.stoppingTest z s)

end Sys2Proof.Machine
end

