-- ==== Sys2Proof/Machine/Modes.lean ====
section
/-! DEFINITION. Mode Control: changes of mode (R184), the drain and the park wait (R186, R187), the wake
thresholds (R189) and the wake's ready test (R190). -/

namespace Sys2Proof.Machine

/-- Write Mode Control's record. -/
def State.modMode (s : State) (f : ModeControl → ModeControl) : State := { s with mode := f s.mode }

/-- A change of mode: the neighbours act in order, then NOTICE MODE_STATE is sent (R184). The aisles are tested in
ascending number (log entry 22). The ready test of an entry to WAKING follows in the event (R190). -/
def State.changeMode (s : State) (m : Mode) (cause : ModeCause) : State :=
  let t := s.modMode fun c =>
    { c with mode := m, phase := if m = .draining then some .work else none, awaited := []
             timer := if m = .waking then s.after s.params.wakeReadyLimit else none }
  let t := if m = .waking then t.oweMode else t
  let t := forEach allZones State.readyTest t
  let t := if m = .run ∨ m = .draining then forEach allAisles (fun a s => s.dispatchTest a) t else t
  let t := if m = .run then t.admissionPass.restorePass else t
  t.notice (.modeState m cause)

/-- The work is drained (R186). -/
def State.drained (s : State) : Bool :=
  (s.desk.orders.all fun p => decide (p.2.state = .waiting)) && s.jobs.isEmpty && s.carries.isEmpty

/-- The park wait begins (R187). -/
def State.beginParkWait (s : State) : State :=
  let named := allAisles.filter fun a => (s.aisle a).configured
  let t := (s.modMode fun c => { c with phase := some .parkWait }).parkRequest named
  (t.modMode fun c =>
    { c with timer := t.after (t.parkDeadline named t.params.moveAllowance)
             awaited := named.filter fun a => t.awaitable a && decide ((t.crane a).state ≠ .busy) }).oweMode

/-- The drain test (R186). -/
def State.drainTest (s : State) : State :=
  if s.mode.mode = .draining ∧ s.mode.phase = some .work ∧ s.drained = true then s.beginParkWait else s

/-- The park wait follows its cranes, and ends when none awaited is READY, BUSY or PARKING (R187). -/
def State.parkWaitTest (s : State) : State :=
  if s.mode.mode = .draining ∧ s.mode.phase = some .parkWait then
    let t := s.parkRequest (allAisles.filter fun a =>
      decide ((s.crane a).state = .ready) || decide ((s.crane a).state = .busy))
    if t.stillAwaited t.mode.awaited then t else t.changeMode .quiet .drained
  else s

/-- The cranes that a wake waits for (R190). -/
def State.wakeCounted (s : State) : List Nat := allAisles.filter s.counted

/-- The ready test of WAKING (R190). -/
def State.wakeTest (s : State) : State :=
  if s.mode.mode = .waking then
    if s.wakeCounted.all fun a => decide ((s.crane a).state = .ready) then s.changeMode .run .ready else s
  else s

/-- Compare the last counts with the thresholds while QUIET (R189). -/
def State.thresholdTest (s : State) : State :=
  if s.mode.mode = .quiet then
    if s.params.stagingWake ≠ 0 ∧ s.params.stagingWake ≤ s.mode.lastStaging then s.changeMode .waking .staging
    else if s.params.orderWake ≠ 0 ∧ s.params.orderWake ≤ s.mode.lastWaiting then s.changeMode .waking .orders
    else s
  else s

/-- The Return Unit hands over the length of the staging list (R141, R148, R189). -/
def State.handStaging (s : State) : State :=
  (s.modMode fun c => { c with lastStaging := s.returns.staging.length }).thresholdTest

/-- The Order Unit hands over the waiting count (R104, R189). -/
def State.handWaiting (s : State) : State :=
  (s.modMode fun c => { c with lastWaiting := s.waitingCount }).thresholdTest

end Sys2Proof.Machine
end

