-- ==== Sys2Proof/Machine/Event.lean ====
section
/-! DEFINITION. One event of the part. An event begins with an empty workspace, takes its own effects, makes
the tests that the rules put at its end, and closes: the ANSWER is handed over first, then what the event
sends up in order, then what it sends down (R21), into the bounded send queues (R7). -/

namespace Sys2Proof.Machine

/-! ## The send queues -/

/-- A discardable telegram: a forwarded one or a NOTICE (R7). -/
def QueueClass.discardable : QueueClass → Bool
  | .forwarded _ => true
  | .notice => true
  | .kept => false
  | .move _ => false

/-- A queue without its most recently queued discardable telegram, if it holds one (R7). -/
def dropNewest : List Queued → Option (List Queued)
  | [] => none
  | x :: xs =>
    match dropNewest xs with
    | some ys => some (x :: ys)
    | none => if x.cls.discardable then some xs else none

/-- Hand a telegram to a queue; the second component says whether a telegram was discarded (R7). -/
def enqueue (q : List Queued) (x : Queued) : List Queued × Bool :=
  if q.length < Config.queueCapacity then (q ++ [x], false)
  else if x.cls.discardable then (q, true)
  else
    match dropNewest q with
    | some r => (r ++ [x], true)
    | none => (q, true)

/-- Write the ports. -/
def State.modPorts (s : State) (f : Ports → Ports) : State := { s with ports := f s.ports }

/-- Raise a counter if a telegram was discarded. -/
def State.raiseIf (s : State) (b : Bool) (i : Nat) : State := if b then s.raise i else s

/-- Hand a telegram to the U send queue (R7). -/
def State.handUp (x : Queued) (s : State) : State :=
  (s.modPorts fun p => { p with uQueue := (enqueue p.uQueue x).1 }).raiseIf (enqueue s.ports.uQueue x).2 10

/-- Hand a telegram to the D send queue (R7). -/
def State.handDown (x : Queued) (s : State) : State :=
  (s.modPorts fun p => { p with dQueue := (enqueue p.dQueue x).1 }).raiseIf (enqueue s.ports.dQueue x).2 11

/-- Hand a NOTICE, with the next notice sequence, or a HOLDOFF to the U send queue (R22). -/
def State.handMsg (m : UpMsg) (s : State) : State :=
  match m with
  | .notice n =>
    (State.handUp (noticeTelegram s.ports.noticeSeq n.body) s).modPorts fun p =>
      { p with noticeSeq := tagUp p.noticeSeq }
  | .holdoff ms => State.handUp (holdoffQueued ms) s

/-! ## The tests at the end of an event -/

/-- The zones whose tests are owed, in ascending number (log entry 44). -/
def Work.zonesOwed (w : Work) : List Nat := allZones.filter fun z => w.control || decide (z ∈ w.zoneTests)

/-- One round of the zones' tests and Mode Control's, those of them that are owed (R159, R166, R187, R190). -/
def State.controlRound (s : State) : State :=
  let w := s.work
  let t := s.modWork fun w => { w with control := false, zoneTests := [], modeTest := false }
  let t := forEach w.zonesOwed State.zoneTests t
  if w.control || w.modeTest then t.parkWaitTest.wakeTest else t

/-- The rounds until none is owed. Each round takes a zone or the mode at least one state on, and no chain of
states that one event can run through is longer than the bound. -/
def State.controlLoop (s : State) : State := repeatTimes State.controlRound 24 s

/-- The drain test, if owed (R186). -/
def State.drainPhase (s : State) : State :=
  if s.work.drain then (s.modWork fun w => { w with drain := false }).drainTest else s

/-- The scan of the carry wait list, if owed (R116). -/
def State.scanPhase (s : State) : State :=
  if s.work.scan then (s.modWork fun w => { w with scan := false }).scan else s

/-- The admission pass, if owed (R88). -/
def State.admissionPhase (s : State) : State :=
  if s.work.admission then (s.modWork fun w => { w with admission := false }).admissionPass else s

/-- The restore tests owed, in the order in which they came to be owed (R145; log entry 54). -/
def State.restorePhase (s : State) : State :=
  forEach s.work.restore State.restoreTest (s.modWork fun w => { w with restore := [] })

/-- The waiting count is handed to Mode Control, if it may have changed (R104, R189). -/
def State.waitingPhase (s : State) : State :=
  if s.work.waiting then (s.modWork fun w => { w with waiting := false }).handWaiting else s

/-- One round of all the tests at the end of an event. -/
def State.settleRound (s : State) : State :=
  s.drainPhase.controlLoop.scanPhase.admissionPhase.restorePhase.waitingPhase

/-- The comparison of the waiting count with the watermark (R104). -/
def State.holdTest (s : State) : State :=
  if s.params.watermark ≤ s.waitingCount then
    if s.desk.holding then s
    else
      (s.holdoff s.params.holdTime).modDesk fun d =>
        { d with holding := true, holdTimer := s.after (min s.params.holdRepeat s.params.holdTime) }
  else if s.desk.holding then
    (s.holdoff 0).modDesk fun d => { d with holding := false, holdTimer := none }
  else s

/-- The hold-off comparison at the end of the event, if owed (R104). -/
def State.holdPhase (s : State) : State := if s.work.hold then s.holdTest else s

/-- The tests at the end of an event. A round can owe a further one (a wake that admits orders); no event
needs more than the bound. -/
def State.settle (s : State) : State := (repeatTimes State.settleRound 4 s).holdPhase

/-! ## Beginning and closing -/

/-- An event begins. -/
def State.beginEvent (s : State) : State := s.modWork fun _ => Work.empty

/-- The kept output levels after an event that began at `s` and came to `t`: recomputed where a zone state, the
mode or an aisle changed, and at the end of a reset period (R170, R171, R180, R183). -/
def outputsAfter (s t : State) : Outputs :=
  if t.zones = s.zones ∧ t.mode.mode = s.mode.mode ∧ t.store.aisles = s.store.aisles ∧ s.resets.phase = .running
  then s.outputs else t.outputLevels

/-- What an event that began at `s` and came to `t` leaves, less its sends. An event is taken only while the
part runs, or ends a reset period (R24, R192): it leaves the part running. -/
def State.eventLeaves (s t : State) : State :=
  { t with ports := s.ports, outputs := outputsAfter s t, now := s.now, work := Work.empty, pending := s.pending
           resets := { t.resets with phase := .running } }

/-- The ANSWER of an event, if it answers a request, is handed over. -/
def State.handAnswer (s : State) (answer : Option Answer) : State :=
  match answer with
  | some a => State.handUp a.queued s
  | none => s

/-- An event that began at `s` and came to `t` closes: the ANSWER is handed over first, then what it sends up in
order, then what it sends down (R21). -/
def State.closeEvent (s t : State) (answer : Option Answer) : State :=
  forEach t.work.down State.handDown (forEach t.work.up State.handMsg ((s.eventLeaves t).handAnswer answer))

/-- An event that answers no request. -/
def State.event (s : State) (body : State → State) : State := s.closeEvent (body s.beginEvent).settle none

/-- An event that answers a request; the ANSWER is composed from the state at the end of the event. -/
def State.request (s : State) (body : State → State × (State → Answer)) : State :=
  let r := body s.beginEvent
  s.closeEvent r.1.settle (some (r.2 r.1.settle))

/-- A command takes effect only while the part runs: during a reset, and after RESTART, no event is taken
(R24, R191, R192). -/
def State.live (s t : State) : Host.Outcome State Fault Refusal :=
  if s.resets.phase = .running then .next t else .next s

end Sys2Proof.Machine
end

