-- ==== Sys2Proof/Machine/CraneReports.lean ====
section
/-! DEFINITION. The commands of Crane Dispatch: the reports of a crane, the expiry of a move deadline, SHIFT,
CLEAR_FAULT and FLUSH (chapter 4). -/

namespace Sys2Proof.Machine

/-! ## What a report does -/

/-- A report is rejected: the crane's rejected-report count rises (R80). -/
def State.rejectReport (s : State) (a : Nat) : State := s.modCrane a fun c => { c with rejected := countUp c.rejected }

/-- A report matches nothing: the crane's unmatched-report count rises (R69, R71). -/
def State.unmatchedReport (s : State) (a : Nat) : State :=
  s.modCrane a fun c => { c with unmatched := countUp c.unmatched }

/-- Record a position and a load (R61). -/
def State.recordPlace (s : State) (a : Nat) (p : Point) (load : Option Nat) : State :=
  s.modCrane a fun c => { c with place := some { point := p, load } }

/-- The owner of a STORE is told that the job has ended without bringing the bin home (R92). -/
def State.tellStoreLost (s : State) (j : Job) : State :=
  match j.owner with
  | .member r => s.storeLost r
  | .shift => s
  | .recovery => s

/-- The owner of a FETCH is told that it has ended (R92). -/
def State.tellFetchLost (s : State) (j : Job) (st : MemberState) : State :=
  match j.owner with
  | .member r => s.fetchLost r st
  | .shift => s
  | .recovery => s

/-- A queued STORE with origin CRANE ends because the crane reports no load (R78). -/
def State.endOrphan (a : Nat) (j : Job) (s : State) : State :=
  let t := (s.modCrane a fun c => c.setQueue j.cls ((c.queue j.cls).erase j)).recordsFreed
  (t.setBinState j.bin .adrift).tellStoreLost j

/-- A bin that a recovery store may bring home from a crane (R78). -/
def State.recoverable (s : State) (b : Nat) : Bool :=
  match s.binState b with
  | some .adrift => true
  | some .stranded => !s.carryNames b
  | _ => false

/-- The load of a crane that reports ready is judged (R78): the STOREs that end for want of a load are taken in class
order, oldest first (log entry 56). Where the load's home slot lies in another aisle, the recovery store, the refused
count and the aisle of NOTICE RECOVERY_QUEUED are those of the home aisle: the model's choice (log entry 16). -/
def State.judgeLoad (s : State) (a : Nat) : State :=
  let c := s.crane a
  match c.load with
  | none => forEach (c.queued.filter fun j => decide (j.origin = .crane)) (State.endOrphan a) s
  | some b =>
    if c.queued.any fun j => decide (j.origin = .crane) && decide (j.bin = b) then s
    else if s.recoverable b then
      s.requestRecovery (s.binAisle b) b .crane fun s => forEach allAisles (fun k s => s.leaveLists k b) s
    else s.notice (.unexpectedLoad a b)

/-- A crane becomes or stays READY at a position: its load is judged and the aisle tested (R62, R67). -/
def State.craneReady (s : State) (a : Nat) (p : Point) (load : Option Nat) : State :=
  (((s.recordPlace a p load).setCraneState a .ready).judgeLoad a).dispatchTest a

/-! ## DONE -/

/-- A bin's home slot becomes its target slot (R32, R68). -/
def State.moveHome (s : State) (b : Nat) : State :=
  s.modBin b fun r => { r with home := r.target.getD r.home, target := none }

/-- The home slot of a bin. -/
def State.home (s : State) (b : Nat) : Slot :=
  match s.bin b with
  | some r => r.home
  | none => { aisle := 0, face := .left, level := 0, column := 0 }

/-- The effects of a completed job (R68). -/
def State.completeJob (s : State) (a : Nat) (j : Job) : State :=
  match j.kind with
  | .fetch =>
    let t := s.joinFront a j.bin
    match j.owner with
    | .member r => t.fetchDone r j.bin
    | .shift => t
    | .recovery => t
  | .store =>
    let t := s.becomeStored j.bin
    match j.owner with
    | .member r => t.binHome r
    | .shift => t
    | .recovery => t
  | .relocate =>
    let t := s.moveHome j.bin
    (t.becomeStored j.bin).notice (.shiftDone j.bin (t.home j.bin))

/-- What a DONE does to the crane itself (R67): NOTICE MOVE_LATE_DONE goes after the notices of the completed job (log
entry 56). -/
def State.craneAfterDone (s : State) (a : Nat) (f : Flight) (p : Option Point) (load : Option Nat) : State :=
  match (s.crane a).state, p with
  | .busy, some p => s.craneReady a p load
  | .busy, none => (State.craneOffline a s).rejectReport a
  | .parking, some p => s.recordPlace a p load
  | .parking, none => s.rejectReport a
  | .faulted, p =>
    let t := match p with
      | some p => s.recordPlace a p load
      | none => s.rejectReport a
    if f.late then t.notice (.moveLateDone a f.tag f.job.kind f.job.bin) else t
  | .offline, _ => s
  | .ready, _ => s
  | .parked, _ => s

/-- A DONE is taken (R67, R68, R69). -/
def State.takeDone (s : State) (a tag : Nat) (p : Option Point) (load : Option Nat) : State :=
  match (s.crane a).flight with
  | some f =>
    if f.tag = tag then
      (((s.modCrane a fun c => { c with flight := none }).completeJob a f.job).recordsFreed).craneAfterDone a f p load
    else s.unmatchedReport a
  | none => s.unmatchedReport a

/-- DONE (R67 to R69). A crane without an address is not reported for (R61). -/
def execDone (a : Fin 12) (job : BitVec 16) (position : RawPoint) (load : BitVec 16) (s : State) :
    Host.Outcome State Fault Refusal :=
  s.live (s.event fun s =>
    if (s.craneAddress a).isSome then s.takeDone a job.toNat ((s.aisle a).position position) (loadOf load) else s)

/-! ## FAULT and CLEAR_FAULT -/

/-- A job in flight ends as failed or abandoned (R71, R72). -/
def State.endFailed (s : State) (a : Nat) (j : Job) (cause : ShiftCause) : State :=
  let t := ((s.modCrane a fun c => { c with flight := none }).recordsFreed).setBinState j.bin .stranded
  match j.kind with
  | .fetch => t.tellFetchLost j .stranded
  | .store => t.tellStoreLost j
  | .relocate => (t.releaseTarget j.bin).notice (.shiftEnded j.bin .stranded cause)

/-- The job in flight, if any, ends as failed or abandoned. -/
def State.endFlight (s : State) (a : Nat) (cause : ShiftCause) : State :=
  match (s.crane a).flight with
  | some f => s.endFailed a f.job cause
  | none => s

/-- The job tag and bin of a crane's job in flight. -/
def Crane.jobNamed (c : Crane) : Option (Nat × Nat) := c.flight.map fun f => (f.tag, f.job.bin)

/-- A FAULT is taken (R71): NOTICE CRANE_FAULT goes after the notices of the job that it ends (log entry 56). -/
def State.takeFault (s : State) (a code : Nat) (named : Bool) : State :=
  if code = 0 then s.rejectReport a
  else
    let job := (s.crane a).jobNamed
    let t := (s.modCrane a fun c => { c with faultCode := some code }).setCraneState a .faulted
    let t := if job.isNone && named then t.unmatchedReport a else t
    (t.endFlight a .fault).notice (.craneFault a .reported (some code) job)

/-- FAULT (R71). -/
def execFault (a : Fin 12) (code : BitVec 8) (job : Option (BitVec 16)) (s : State) :
    Host.Outcome State Fault Refusal :=
  s.live (s.event fun s => if (s.craneAddress a).isSome then s.takeFault a code.toNat job.isSome else s)

/-- COMMAND's kind code (R1). -/
def kindCommand : Nat := 7

/-- CLEAR_FAULT (R72). -/
def execClearFault (tag : BitVec 16) (a : Fin 12) (s : State) : Host.Outcome State Fault Refusal :=
  s.live (s.request fun s =>
    if (s.crane a).state = .faulted then
      let t := (s.modCrane a fun c => { c with faultCode := none, place := none }).setCraneState a .offline
      (t.endFlight a .clearFault, fun _ => .done tag.toNat kindCommand (jobBytes (s.crane a).jobNamed))
    else (s, fun _ => .refused tag.toNat kindCommand .wrongState))

/-! ## PARKED -/

/-- A queued FETCH of a cancelled member is removed at once (R101). -/
def State.removeCancelled (s : State) (j : Job) : State :=
  match j.owner with
  | .member r =>
    if s.memberState r = some .cancelled then (s.cancelFetch r j.bin).settleOrder r.order else s
  | .shift => s
  | .recovery => s

/-- A job in flight is disposed of at PARKED; `own` says that the crane reports the job's own bin aboard
(R76). The bin of a STORE that is re-formed "leaves its list" (R76), and R60 names the list of the STORE's origin: that a
bin which stands on the other list too, or only there, is struck off that one as well is the model's choice (log
entry 63). -/
def State.disposeParked (s : State) (a : Nat) (j : Job) (own : Bool) : State :=
  let t := s.modCrane a fun c => { c with flight := none }
  match j.kind, own with
  | .fetch, false => ((t.setBinState j.bin .reserved).requeue a j).removeCancelled j
  | .fetch, true => (t.recordsFreed.setBinState j.bin .stranded).tellFetchLost j .stranded
  | .store, true =>
    if j.origin = .crane then t.requeue a j
    else (t.requeue a { j with origin := .crane }).leaveLists a j.bin
  | .store, false =>
    if j.origin = .crane then (t.recordsFreed.setBinState j.bin .adrift).tellStoreLost j else t.requeue a j
  | .relocate, false => (t.setBinState j.bin .reserved).requeue a j
  | .relocate, true =>
    let u := ((t.releaseTarget j.bin).setBinState j.bin .out).requeue a
      { j with kind := .store, cls := .house, origin := .crane, dest := t.homePoint j.bin }
    u.notice (.shiftEnded j.bin .out .parked)

/-- A PARKED is taken (R75). -/
def State.takeParked (s : State) (a : Nat) (p : Option Point) (load : Option Nat) : State :=
  let t := match p with
    | some p => s.recordPlace a p load
    | none => (s.modCrane a fun c => { c with place := none }).rejectReport a
  let t := match (s.crane a).flight with
    | some f => t.disposeParked a f.job (decide (load = some f.job.bin))
    | none => t
  if (s.crane a).state = .faulted then t else t.setCraneState a .parked

/-- PARKED (R75, R76). -/
def execParked (a : Fin 12) (position : RawPoint) (load : BitVec 16) (s : State) :
    Host.Outcome State Fault Refusal :=
  s.live (s.event fun s =>
    if (s.craneAddress a).isSome then s.takeParked a ((s.aisle a).position position) (loadOf load) else s)

/-! ## STATUS -/

/-- STATUS READY with a valid position (R62). -/
def State.statusReady (s : State) (a : Nat) (p : Point) (load : Option Nat) : State :=
  match (s.crane a).state with
  | .offline =>
    if (s.crane a).flight.isSome then (s.recordPlace a p load).setCraneState a .busy else s.craneReady a p load
  | .ready => s.craneReady a p load
  | .busy => s.rejectReport a
  | .parking => s.rejectReport a
  | .parked => if s.heldParked a then s.recordPlace a p load else s.craneReady a p load
  | .faulted => s

/-- STATUS READY with a position that is not valid (R62). -/
def State.statusInvalid (s : State) (a : Nat) : State :=
  match (s.crane a).state with
  | .offline => (State.craneOffline a s).rejectReport a
  | .ready => (State.craneOffline a s).rejectReport a
  | .parked => (State.craneOffline a s).rejectReport a
  | .busy => s.rejectReport a
  | .parking => s.rejectReport a
  | .faulted => s

/-- STATUS NOT_READY (R62). -/
def State.statusNotReady (s : State) (a : Nat) : State :=
  match (s.crane a).state with
  | .offline => s
  | .faulted => s
  | .ready => State.craneOffline a s
  | .busy => State.craneOffline a s
  | .parking => State.craneOffline a s
  | .parked => State.craneOffline a s

/-- A STATUS is taken (R62). -/
def State.takeStatus (s : State) (a : Nat) (ready : Bool) (p : Option Point) (load : Option Nat) : State :=
  if ready then
    match p with
    | some p => s.statusReady a p load
    | none => s.statusInvalid a
  else s.statusNotReady a

/-- STATUS (R62). -/
def execStatus (a : Fin 12) (ready : Bool) (position : RawPoint) (load : BitVec 16) (s : State) :
    Host.Outcome State Fault Refusal :=
  s.live (s.event fun s =>
    if (s.craneAddress a).isSome then s.takeStatus a ready ((s.aisle a).position position) (loadOf load) else s)

/-! ## INFEED -/

/-- The bin has a STORE from INFEED queued or in flight (R77). -/
def State.infeedStore (s : State) (b : Nat) : Bool :=
  s.jobs.any fun j => decide (j.kind = .store) && decide (j.origin = .infeed) && decide (j.bin = b)

/-- A bin that a recovery store may bring home from an infeed (R77). -/
def State.recoverableAtInfeed (s : State) (b : Nat) : Bool :=
  match s.binState b with
  | some .adrift => true
  | some .stranded => !s.carryNames b
  | some .out => !s.binHeld b
  | _ => false

/-- An INFEED is taken (R77). -/
def State.takeInfeed (s : State) (a b : Nat) : State :=
  match s.bin b with
  | none => s.rejectReport a
  | some r =>
    if r.home.aisle ≠ a then s.rejectReport a
    else if s.infeedStore b then s
    else if s.recoverableAtInfeed b then s.requestRecovery a b .infeed fun s => s
    else s.rejectReport a

/-- INFEED (R77). -/
def execInfeed (a : Fin 12) (bin : BitVec 16) (s : State) : Host.Outcome State Fault Refusal :=
  s.live (s.event fun s => if (s.craneAddress a).isSome then s.takeInfeed a bin.toNat else s)

/-! ## Move deadlines -/

/-- A job in flight has missed its deadline (R70). -/
def State.missDeadline (s : State) (a : Nat) (f : Flight) : State :=
  ((s.modCrane a fun c => { c with flight := some { f with late := true, timer := none } }).setCraneState a
    .faulted).notice (.moveLate a f.tag f.job.kind f.job.bin)

/-- The expiry of a move deadline, while its timer runs (R70). -/
def execMoveDeadlineExpiry (a : Fin 12) (s : State) : Host.Outcome State Fault Refusal :=
  s.live (s.event fun s =>
    match (s.crane a).flight with
    | some f => if f.timer.isSome then s.missDeadline a f else s
    | none => s)

/-! ## SHIFT and FLUSH -/

/-- SHIFT's kind code (R1). -/
def kindShift : Nat := 4

/-- The slot of a bin's own aisle that a SHIFT names (R33). -/
def State.shiftTarget (s : State) (r : Bin) (t : RawSlot) : Option Slot :=
  if t.aisle.toNat = r.home.aisle then s.slotOf t.aisle.toNat t.face.toNat t.level.toNat t.column.toNat else none

/-- The judgement of a SHIFT: the target, or the reason of the refusal (R33, R58). -/
def State.judgeShift (s : State) (b : Nat) (target : RawSlot) : Slot ⊕ Reason :=
  match s.bin b with
  | none => .inr .binUnknown
  | some r =>
    match s.shiftTarget r target with
    | none => .inr .valueRange
    | some t =>
      if r.state ≠ .stored then .inr .binBusy
      else if s.slotClaimed t then .inr .slotTaken
      else if s.freeCount < Config.poolReserve + 1 then .inr .queueFull
      else .inl t

/-- Queue a RELOCATE (R57, R58). -/
def State.queueRelocate (s : State) (b : Nat) (t : Slot) : State :=
  let j : Job := { kind := .relocate, cls := .house, bin := b, origin := s.homePoint b, dest := t.point, owner := .shift }
  (s.modBin b fun r => { r with state := .reserved, target := some t }).appendJob (s.binAisle b) j

/-- SHIFT (R33, R58). -/
def execShift (tag : BitVec 16) (bin : BitVec 16) (target : RawSlot) (s : State) :
    Host.Outcome State Fault Refusal :=
  s.live (s.request fun s =>
    match s.judgeShift bin.toNat target with
    | .inl t => (s.queueRelocate bin.toNat t, fun _ => .done tag.toNat kindShift (be 2 bin.toNat))
    | .inr r => (s, fun _ => .refused tag.toNat kindShift r))

/-- Remove one queued job at FLUSH (R79). -/
def State.flushJob (a : Nat) (j : Job) (s : State) : State :=
  let t := (s.modCrane a fun c => c.setQueue j.cls ((c.queue j.cls).erase j)).recordsFreed
  match j.kind with
  | .fetch => (t.becomeStored j.bin).tellFetchLost j .failed
  | .store => (t.setBinState j.bin .adrift).tellStoreLost j
  | .relocate => ((t.releaseTarget j.bin).becomeStored j.bin).notice (.shiftEnded j.bin .stored .flush)

/-- Hold dispatch tests back, or let them run again (R79). -/
def State.holdTests (s : State) (b : Bool) : State := s.modWork fun w => { w with testsHeld := b }

/-- FLUSH (R79). -/
def execFlush (tag : BitVec 16) (a : Fin 12) (s : State) : Host.Outcome State Fault Refusal :=
  s.live (s.request fun s =>
    let c := s.crane a
    if c.state = .busy ∨ c.state = .parking then (s, fun _ => .refused tag.toNat kindCommand .aisleBusy)
    else
      (((forEach c.queued (State.flushJob a) (s.holdTests true)).holdTests false).dispatchTest a,
        fun _ => .done tag.toNat kindCommand (be 2 c.queued.length)))

end Sys2Proof.Machine
end

