-- ==== Sys2Proof/Machine/LiftReports.lean ====
section
/-! DEFINITION. The commands of the Lift Pool: JOIN, LEAVE, FITNESS, CARRIED, and the expiries of an answer
timer and of a carry deadline (chapter 6). -/

namespace Sys2Proof.Machine

/-! ## JOIN and LEAVE -/

/-- The judgement of a JOIN (R109). -/
def State.judgeJoin (s : State) (l : Nat) : Option Reason :=
  if (s.lift l).word = .ask ∨ (s.lift l).word.member = true ∨ (s.liftAddress l).isNone = true then some .wrongState
  else if s.zoneClear (s.lift l).zone then none
  else some .zoneShut

/-- The carries that a JOIN gives up: those of a lift whose word is BAR (R109). -/
def Lift.givenUp (r : Lift) : List Carry := if r.word = .bar then r.carries else []

/-- Give up the carries of a BAR lift and ask it to join (R109, R120). -/
def State.askLift (s : State) (l : Nat) : State :=
  let t := forEach (s.lift l).givenUp (State.giveUpCarry l) s
  let t := t.modLift l fun r => { r with word := .ask, answerTimer := s.after r.answerLimit }
  (t.sendMember l).oweScan

/-- JOIN (R109). -/
def execJoin (tag : BitVec 16) (l : Fin 6) (s : State) : Host.Outcome State Fault Refusal :=
  s.live (s.request fun s =>
    match s.judgeJoin l with
    | some r => (s, fun _ => .refused tag.toNat kindCommand r)
    | none => (s.askLift l, fun _ => .done tag.toNat kindCommand (be 1 (s.lift l).givenUp.length)))

/-- A lift leaves: its answer timer stops, it is removed from the rotation, and its word becomes OFF
(R112). -/
def State.releaseLift (s : State) (l : Nat) : State :=
  let t := (s.removeLift l .off).modLift l fun r => { r with answerTimer := none }
  t.tellWords s

/-- LEAVE (R112). -/
def execLeave (tag : BitVec 16) (l : Fin 6) (s : State) : Host.Outcome State Fault Refusal :=
  s.live (s.request fun s =>
    if (s.lift l).word = .off ∨ (s.lift l).word = .bar then (s, fun _ => .refused tag.toNat kindCommand .wrongState)
    else (s.releaseLift l, fun _ => .done tag.toNat kindCommand (be 1 (s.lift l).carries.length)))

/-! ## FITNESS -/

/-- A lift in ASK reports FIT: it becomes TAIL (R109). -/
def State.admitLift (s : State) (l : Nat) : State := ((s.enterRotation l).tellWords s).oweScan

/-- A join fails: the word becomes OFF (R109). -/
def State.failJoin (s : State) (l : Nat) (cause : JoinCause) : State :=
  let t := s.modLift l fun r => { r with word := .off, answerTimer := none }
  (t.sendMember l).notice (.joinFailed l cause)

/-- A FITNESS is taken (R109, R110). -/
def State.takeFitness (s : State) (l : Nat) (fit : Bool) : State :=
  match (s.lift l).word, fit with
  | .ask, true => s.admitLift l
  | .ask, false => s.failJoin l .unfit
  | .on _, false => s.barLifts [l] .unfit
  | .tail _, false => s.barLifts [l] .unfit
  | .on _, true => s
  | .tail _, true => s
  | .off, _ => s
  | .bar, _ => s

/-- FITNESS (R109, R110). A lift without an address is not reported for (R107). -/
def execFitness (l : Fin 6) (fit : Bool) (s : State) : Host.Outcome State Fault Refusal :=
  s.live (s.event fun s => if (s.liftAddress l).isSome then s.takeFitness l fit else s)

/-! ## CARRIED -/

/-- A carry of a lift with a tag (R118). -/
def State.carryOf (s : State) (l tag : Nat) : Option Carry := (s.lift l).carries.find? fun c => decide (c.tag = tag)

/-- A carry ends by CARRIED: its bin goes on by its leg (R118, R120). NOTICE CARRY_LATE_DONE goes after the notices that
the arrival brings about (log entry 52). -/
def State.endCarry (s : State) (l : Nat) (c : Carry) : State :=
  let t := s.modLift l fun r => { r with carries := r.carries.filter fun d => ¬ d.tag = c.tag }
  let t := if c.late then t.setBinState c.bin .out else t
  let t := match c.leg with
    | .up => t.upArrived c.ref c.bin c.station
    | .down => t.downArrived c.ref c.bin c.aisle
  (if c.late then t.notice (.carryLateDone l c.tag c.bin) else t).oweScan.oweDrain

/-- A CARRIED is taken (R118). -/
def State.takeCarried (s : State) (l tag : Nat) : State :=
  match s.carryOf l tag with
  | some c => s.endCarry l c
  | none => s.modLift l fun r => { r with unmatched := countUp r.unmatched }

/-- CARRIED (R118, R120). -/
def execCarried (l : Fin 6) (carry : BitVec 16) (s : State) : Host.Outcome State Fault Refusal :=
  s.live (s.event fun s => if (s.liftAddress l).isSome then s.takeCarried l carry.toNat else s)

/-! ## Timers -/

/-- The expiry of an answer timer, while it runs (R109). -/
def execAnswerTimerExpiry (l : Fin 6) (s : State) : Host.Outcome State Fault Refusal :=
  s.live (s.event fun s => if (s.lift l).answerTimer.isSome then s.failJoin l .noAnswer else s)

/-- A carry has missed its deadline: its lift is barred (R119). NOTICE CARRY_LATE goes before the event's MEMBER_LOST
notices (log entry 51). -/
def State.missCarry (s : State) (l : Nat) (c : Carry) : State :=
  (s.notice (.carryLate l c.tag c.bin)).barLifts [l] .carryLate

/-- The expiry of a carry's deadline, while its timer runs (R119). -/
def execCarryDeadlineExpiry (l : Fin 6) (carry : BitVec 16) (s : State) : Host.Outcome State Fault Refusal :=
  s.live (s.event fun s =>
    match s.carryOf l carry.toNat with
    | some c => if c.timer.isSome then s.missCarry l c else s
    | none => s)

end Sys2Proof.Machine
end

