-- ==== Sys2Proof/Machine/Loans.lean ====
section
/-! DEFINITION. The commands of the Loan Table and the Return Unit: RENEW, DAY, ITEM_OUT, ITEM_IN, INTO_BIN and
the minute timer (chapters 7 and 8). -/

namespace Sys2Proof.Machine

/-! ## RENEW and DAY -/

/-- RENEW's kind code (R1). -/
def kindRenew : Nat := 3

/-- The judgement of a RENEW: the renewed entry, or the reason of the refusal (R134). -/
def State.judgeRenew (s : State) (t : Nat) : Item ⊕ Reason :=
  if t = 0 then .inr .valueRange
  else
    match s.item t with
    | none => .inr .itemUnknown
    | some e =>
      match e.state with
      | .lent l =>
        let c := s.lendClass e.category
        if c.cls ≠ .loanable then .inr .notLendable
        else if c.renewLimit ≤ l.renewals then .inr .renewLimit
        else if s.dueDay c.period ≤ l.dueDay then .inr .noExtension
        else .inl { e with state := .lent { l with dueDay := s.dueDay c.period, renewals := l.renewals + 1 } }
      | .requested _ => .inr .wrongState
      | .inhouse _ => .inr .wrongState
      | .returned _ _ => .inr .wrongState

/-- The fields of the ANSWER to a RENEW: the tag, and the due day and renewals of a LENT entry, 0 otherwise
(R134). -/
def renewFields (t : Nat) (s : State) : List Byte :=
  match s.item t with
  | some { state := .lent l, .. } => be 6 t ++ be 2 l.dueDay ++ be 1 l.renewals
  | _ => be 6 t ++ be 2 0 ++ be 1 0

/-- RENEW (R134). -/
def execRenew (tag : BitVec 16) (item : BitVec 48) (s : State) : Host.Outcome State Fault Refusal :=
  s.live (s.request fun s =>
    match s.judgeRenew item.toNat with
    | .inl e => (s.putItem item.toNat e, fun t => .done tag.toNat kindRenew (renewFields item.toNat t))
    | .inr r => (s, fun t => .refused tag.toNat kindRenew r (renewFields item.toNat t)))

/-- The fields of the ANSWER to a DAY (R128). -/
def dayFields (s : State) : List Byte := be 2 s.loans.today ++ be 3 (s.overdue .lent) ++ be 3 (s.overdue .inhouse)

/-- DAY (R128). -/
def execDay (tag : BitVec 16) (day : BitVec 16) (s : State) : Host.Outcome State Fault Refusal :=
  s.live (s.request fun s =>
    if day.toNat < s.loans.today then (s, fun _ => .refused tag.toNat kindCommand .valueRange)
    else
      (s.modLoans fun l => { l with today := day.toNat },
        fun t => .done tag.toNat kindCommand (dayFields t)))

/-! ## ITEM_OUT -/

/-- The requested entry at a station's window, with its order: the first two tests of R131. -/
def State.requestedAt (s : State) (st t : Nat) : Option (Item × Nat) :=
  match s.item t, (s.station st).window, (s.station st).owner with
  | some e, some l, some n =>
    if e.state = .requested n ∧ e.bin = l.bin then some (e, n) else none
  | _, _, _ => none

/-- The patron reference of an order. -/
def State.patronOf (s : State) (num : Nat) : Nat :=
  match s.order num with
  | some o => o.patron
  | none => 0

/-- An accepted ITEM_OUT: the entry becomes a loan, the order counts it, NOTICE LENT and VERDICT are sent
(R131, R132). -/
def State.lend (s : State) (st tag t num : Nat) (e : Item) (loan : ItemState) : State :=
  let due := match loan.loan with
    | some l => l.dueDay
    | none => 0
  (((s.putItem t { e with state := loan }).countTaken num).notice
    (.lent num (s.patronOf num) t loan.word due)).sendVerdict st tag none due

/-- An ITEM_OUT is taken (R131). -/
def State.takeItemOut (s : State) (st tag t : Nat) : State :=
  if (s.station st).kind ≠ .pick then s.sendVerdict st tag (some .stationUnfit) 0
  else
    match s.requestedAt st t with
    | none => s.sendVerdict st tag (some .notRequested) 0
    | some (e, num) =>
      match s.newLoan e.category with
      | none => s.sendVerdict st tag (some .notLendable) 0
      | some loan => s.lend st tag t num e loan

/-- ITEM_OUT (R131, R132). -/
def execItemOut (st : Fin 24) (tag : BitVec 16) (item : BitVec 48) (s : State) :
    Host.Outcome State Fault Refusal :=
  s.live (s.event fun s => if (s.stationAddress st).isSome then s.takeItemOut st tag.toNat item.toNat else s)

/-! ## ITEM_IN -/

/-- An ITEM_IN that is an exception (R140). -/
def State.returnException (s : State) (st tag t : Nat) (r : Reason) : State :=
  (s.notice (.exception st t r)).sendVerdict st tag (some r) 0

/-- The staged count of a bin. -/
def State.stagedCount (s : State) (b : Nat) : Nat :=
  match s.bin b with
  | some r => r.staged
  | none => 0

/-- An accepted ITEM_IN (R141). -/
def State.stageItem (s : State) (st tag t : Nat) (e : Item) (l : Loan) : State :=
  let day := s.loans.today
  let u := s.putItem t { e with state := .returned l day }
  let staged : StageEntry := { item := t, bin := e.bin, scanDay := day, age := 0 }
  let u := u.modReturns fun r => { r with staging := r.staging ++ [staged] }
  let u := u.modBin e.bin fun r => { r with staged := r.staged + 1 }
  let u := (u.extendList e.bin t).notice (.returned st t e.bin e.state.word l.dueDay day)
  ((u.sendVerdict st tag none l.dueDay).handStaging).oweRestore (.bin e.bin)

/-- An ITEM_IN for a loan (R140, the last three tests). -/
def State.returnLoan (s : State) (st tag t : Nat) (e : Item) (l : Loan) : State :=
  if Config.stagingCapacity ≤ s.returns.staging.length then s.sendVerdict st tag (some .stagingFull) 0
  else if Config.stagedMax ≤ s.stagedCount e.bin then s.sendVerdict st tag (some .stagingFull) 0
  else s.stageItem st tag t e l

/-- An ITEM_IN is taken (R140, R141). -/
def State.takeItemIn (s : State) (st tag t : Nat) : State :=
  if (s.station st).kind ≠ .chute then s.sendVerdict st tag (some .stationUnfit) 0
  else
    match s.item t with
    | none => s.returnException st tag t .itemUnknown
    | some e =>
      match e.state with
      | .requested _ => s.returnException st tag t .itemBusy
      | .returned _ _ => s.returnException st tag t .itemBusy
      | .lent l => s.returnLoan st tag t e l
      | .inhouse l => s.returnLoan st tag t e l

/-- ITEM_IN (R140, R141). -/
def execItemIn (st : Fin 24) (tag : BitVec 16) (item : BitVec 48) (s : State) :
    Host.Outcome State Fault Refusal :=
  s.live (s.event fun s => if (s.stationAddress st).isSome then s.takeItemIn st tag.toNat item.toNat else s)

/-! ## INTO_BIN -/

/-- The member AT_WINDOW that an item may be put back for: the second test of R148. -/
def State.insertable (s : State) (st t : Nat) : Option (Item × MemberRef) :=
  match s.item t, (s.station st).window with
  | some e, some l =>
    match s.member l.ref with
    | some m =>
      if m.state = .atWindow ∧ e.state.word = .returned ∧ e.bin = l.bin ∧ t ∈ m.items then some (e, l.ref) else none
    | none => none
  | _, _ => none

/-- An accepted INTO_BIN (R148). -/
def State.restoreItem (s : State) (st tag t : Nat) (e : Item) (r : MemberRef) : State :=
  let u := s.removeItem t
  let u := u.modReturns fun r => { r with staging := r.staging.filter fun x => ¬ x.item = t }
  let u := u.modBin e.bin fun b => { b with staged := b.staged - 1 }
  (((u.countTaken r.order).notice (.restored r.order t e.bin)).sendVerdict st tag none 0).handStaging

/-- An INTO_BIN is taken (R148). -/
def State.takeIntoBin (s : State) (st tag t : Nat) : State :=
  if (s.station st).kind ≠ .reshelve then s.sendVerdict st tag (some .stationUnfit) 0
  else
    match s.insertable st t with
    | some (e, r) => s.restoreItem st tag t e r
    | none => s.sendVerdict st tag (some .notStaged) 0

/-- INTO_BIN (R148). -/
def execIntoBin (st : Fin 24) (tag : BitVec 16) (item : BitVec 48) (s : State) :
    Host.Outcome State Fault Refusal :=
  s.live (s.event fun s => if (s.stationAddress st).isSome then s.takeIntoBin st tag.toNat item.toNat else s)

/-! ## The minute timer -/

/-- A staging entry grows one minute older; 65535 stays (R142). -/
def StageEntry.older (e : StageEntry) : StageEntry := { e with age := if e.age < 65535 then e.age + 1 else e.age }

/-- The minute timer expires (R142). -/
def State.minutePassed (s : State) : State :=
  (s.modReturns fun r => { staging := r.staging.map StageEntry.older, minuteTimer := s.after Config.minute }).oweRestore
    .pass

/-- The expiry of the minute timer, while it runs (R142). -/
def execMinuteTimerExpiry (s : State) : Host.Outcome State Fault Refusal :=
  s.live (s.event fun s => if s.returns.minuteTimer.isSome then s.minutePassed else s)

end Sys2Proof.Machine
end

