-- ==== Sys2Proof/Machine/OrderDesk.lean ====
section
/-! DEFINITION. The commands of the Order Unit: ORDER, CANCEL, BIN_DONE, and the expiries of a gather timer and
of the hold-off repeat timer (chapter 5). -/

namespace Sys2Proof.Machine

/-! ## ORDER -/

/-- ORDER's kind code (R1). -/
def kindOrder : Nat := 1

/-- The station that an address names (R85). -/
def State.stationOf (s : State) (address : Nat) : Option Nat :=
  match s.addr address with
  | .station st => some st
  | _ => none

/-- The number of distinct bin ids of an item list. -/
def distinctBins (items : List OrderItem) : Nat := (firstOnly [] (items.map fun i => i.bin.toNat)).length

/-- The judgement of an ORDER as a whole: its station and record, or the reason of the refusal (R85). -/
def State.judgeOrder (s : State) (number address : Nat) (items : List OrderItem) : (Nat × Nat) ⊕ Reason :=
  if 32767 < number ∨ 127 < address then .inr .valueRange
  else if (s.order number).isSome then .inr .orderExists
  else
    match s.stationOf address with
    | none => .inr .stationUnfit
    | some st =>
      if (s.station st).kind ≠ .pick then .inr .stationUnfit
      else if !s.zoneClear (s.station st).zone then .inr .zoneShut
      else
        match freeIndex s.desk.orders Config.orderRecords with
        | none => .inr .orderTableFull
        | some i => if (s.station st).laneSize < distinctBins items then .inr .tooLarge else .inl (st, i)

/-- The bin of a listed item is present and not barred or lost; otherwise the reason (R86). -/
def State.judgeItemBin (s : State) (b : Nat) : Option Reason :=
  match s.binState b with
  | none => some .binUnknown
  | some .blocked => some .binBusy
  | some .stranded => some .binBusy
  | some .adrift => some .binBusy
  | some _ => none

/-- The judgement of one listed item, `earlier` holding the tags listed before it (R86). -/
def State.judgeItem (s : State) (earlier : List Nat) (i : OrderItem) : Option Reason :=
  if i.item.toNat = 0 ∨ 15 < i.category.toNat then some .valueRange
  else if i.item.toNat ∈ earlier then some .duplicate
  else
    match s.judgeItemBin i.bin.toNat with
    | some r => some r
    | none =>
      if (s.item i.item.toNat).isSome then some .itemBusy
      else if Config.itemCapacity ≤ s.loans.items.length then some .itemTableFull
      else none

/-- Take the listed items one by one: the state with the accepted items REQUESTED, and each item's outcome
(R86, R125). -/
def State.takeItems (number : Nat) : (items : List OrderItem) → (earlier : List Nat) → State →
    State × List (Option Reason)
  | [], _, s => (s, [])
  | i :: is, earlier, s =>
    let r := s.judgeItem earlier i
    let t := if r.isNone then
        s.createItem i.item.toNat
          { bin := i.bin.toNat, category := i.category.toNat, state := .requested number }
      else s
    let rest := State.takeItems number is (earlier ++ [i.item.toNat]) t
    (rest.1, r :: rest.2)

/-- The members formed from the accepted items: one for each distinct bin, in order of first appearance,
with the tags in list order (R86). -/
def formMembers (accepted : List OrderItem) : List (Nat × List Nat) :=
  (firstOnly [] (accepted.map fun i => i.bin.toNat)).map fun b =>
    (b, (accepted.filter fun i => decide (i.bin.toNat = b)).map fun i => i.item.toNat)

/-- The listed items that were accepted. -/
def acceptedItems (items : List OrderItem) (outcomes : List (Option Reason)) : List OrderItem :=
  (items.zip outcomes).filterMap fun p => if p.2.isNone then some p.1 else none

/-- The fields of the ANSWER to an ORDER: number, record index, and one byte for each listed item, 0 for ACCEPTED and the
reason's code otherwise (R23, R86). -/
def orderFields (number index : Nat) (outcomes : List (Option Reason)) : List Byte :=
  be 2 number ++ be 1 index ++ outcomes.flatMap fun r => be 1 (reasonCode r)

/-- The outcome of an ORDER that took a record (R86). -/
def orderAnswer (tag number index : Nat) (outcomes : List (Option Reason)) : Answer :=
  match (outcomes.filterMap fun r => r).head? with
  | none => ⟨tag, kindOrder, .done, none, orderFields number index outcomes⟩
  | some r => ⟨tag, kindOrder, .partially, some r, orderFields number index outcomes⟩

/-- An ORDER is taken (R85, R86). Where it is refused, the record index in the ANSWER is 0, and where it is refused whole,
each listed item carries the reason of the whole (log entry 31). -/
def State.takeOrder (s : State) (tag number address patron : Nat) (items : List OrderItem) :
    State × (State → Answer) :=
  match s.judgeOrder number address items with
  | .inr r => (s, fun _ => .refused tag kindOrder r (orderFields number 0 (items.map fun _ => some r)))
  | .inl (st, i) =>
    let r := State.takeItems number items [] s
    let accepted := acceptedItems items r.2
    if accepted = [] then
      (s, fun _ => .refused tag kindOrder ((r.2.head?.getD none).getD .valueRange) (orderFields number 0 r.2))
    else
      ((r.1.placeOrder i (newOrder number .patron st patron (formMembers accepted) false)).oweAdmission,
        fun _ => orderAnswer tag number i r.2)

/-- ORDER (R85, R86). -/
def execOrder (tag number : BitVec 16) (station : BitVec 8) (patron : BitVec 32) (items : List OrderItem)
    (s : State) : Host.Outcome State Fault Refusal :=
  s.live (s.request fun s => s.takeOrder tag.toNat number.toNat station.toNat patron.toNat items)

/-! ## CANCEL -/

/-- CANCEL's kind code (R1). -/
def kindCancel : Nat := 2

/-- A WAITING order is removed (R99). -/
def State.removeWaiting (s : State) (o : Order) : State :=
  let t := (s.giveUpItems o.number .cancel o.tags).clearPending o
  let t := t.modStation o.station fun w => { w with orderQueue := w.orderQueue.filter fun n => ¬ n = o.number }
  ((t.freeRecord o.number).oweAdmission).oweWaiting

/-- The number of members that a CANCEL of the order cancels (R99, R100). -/
def Order.cancellable (o : Order) : Nat := o.members.countP fun m => m.state.cancellable

/-- CANCEL (R99, R100). The tests of R93, R94 and R98 follow once, after the last member. -/
def execCancel (tag number : BitVec 16) (s : State) : Host.Outcome State Fault Refusal :=
  s.live (s.request fun s =>
    match s.order number.toNat with
    | none => (s, fun _ => .refused tag.toNat kindCancel .orderUnknown)
    | some o =>
      if o.state = .waiting then (s.removeWaiting o, fun _ => .done tag.toNat kindCancel (be 1 0))
      else
        ((forEach o.refs (State.cancelMember o.station) s).settleOrder o.number,
          fun _ => .done tag.toNat kindCancel (be 1 o.cancellable)))

/-! ## BIN_DONE -/

/-- The items of a restore member that are still RETURNED (R149). -/
def State.stillReturned (s : State) (items : List Nat) : Nat :=
  items.countP fun t =>
    match s.item t with
    | some e => decide (e.state.word = .returned)
    | none => false

/-- The items of the member whose bin leaves the window (R96, R126, R149). -/
def State.settleItems (s : State) (r : MemberRef) : State :=
  match s.order r.order, s.member r with
  | some o, some m =>
    match o.kind with
    | .patron => s.giveUpItems r.order .binDone m.items
    | .restore => s.countNotTaken r.order (s.stillReturned m.items)
  | _, _ => s

/-- A window bin is finished (R96). -/
def State.finishWindow (s : State) (st : Nat) (l : LaneBin) : State :=
  let t := (s.markLane st l.bin .outbound).settleItems l.ref
  let t := if t.memberState l.ref = some .atWindow then t.setMember l.ref .returning else t
  (t.toDownLeg l.ref l.bin st).settleOrder l.ref.order

/-- A BIN_DONE is taken (R96). -/
def State.takeBinDone (s : State) (st b : Nat) : State :=
  match (s.station st).window with
  | some l =>
    if l.bin = b ∧ (s.station st).kind ≠ .chute then s.finishWindow st l
    else s.modStation st fun w => { w with unmatched := countUp w.unmatched }
  | none => s.modStation st fun w => { w with unmatched := countUp w.unmatched }

/-- BIN_DONE (R96). A station without an address is not reported for (R82). -/
def execBinDone (st : Fin 24) (bin : BitVec 16) (s : State) : Host.Outcome State Fault Refusal :=
  s.live (s.event fun s => if (s.stationAddress st).isSome then s.takeBinDone st bin.toNat else s)

/-! ## Timers -/

/-- The gather timer of an order expires (R93): GATHER_PARTIAL goes before the notices of the order's tests (log entry
56). -/
def State.expireGather (s : State) (o : Order) : State :=
  let count (p : MemberState → Bool) : Nat := o.members.countP fun m => p m.state
  ((s.completeGather o.number o.station).notice
    (.gatherPartial o.number (count fun m => decide (m = .inLane)) (count MemberState.expected))).settleOrder o.number

/-- The expiry of a gather timer, while it runs (R93). -/
def execGatherTimerExpiry (number : BitVec 16) (s : State) : Host.Outcome State Fault Refusal :=
  s.live (s.event fun s =>
    match s.order number.toNat with
    | some o => if o.gatherTimer.isSome then s.expireGather o else s
    | none => s)

/-- The expiry of the hold-off repeat timer, while it runs (R104). -/
def execHoldRepeatExpiry (s : State) : Host.Outcome State Fault Refusal :=
  s.live (s.event fun s =>
    if s.desk.holdTimer.isSome ∧ s.desk.holding = true then
      (s.holdoff s.params.holdTime).modDesk fun d =>
        { d with holdTimer := s.after (min s.params.holdRepeat s.params.holdTime) }
    else s)

end Sys2Proof.Machine
end

