-- ==== Sys2Proof/Machine/ZoneCommands.lean ====
section
/-! DEFINITION. The commands of Zone Control and of the Line Block's inputs: ZONE_SHUT, ZONE_RESTORE, SEAL_NOW,
the expiries of a zone's timers, a change at a local line, and the call-key debounce (chapters 9 and 10). -/

namespace Sys2Proof.Machine

/-! ## Commands -/

/-- The field of the ANSWER to a zone command: the zone's state (R156, R163, R164). -/
def zoneField (z : Nat) (s : State) : List Byte := be 1 (s.zone z).state.code

/-- ZONE_SHUT (R156). -/
def execZoneShut (tag : BitVec 16) (z : Fin 8) (s : State) : Host.Outcome State Fault Refusal :=
  s.live (s.request fun s => (s.shutdown z .manual, fun t => .done tag.toNat kindCommand (zoneField z t)))

/-- ZONE_RESTORE (R164); the ANSWER carries the state OPENING. -/
def execZoneRestore (tag : BitVec 16) (z : Fin 8) (s : State) : Host.Outcome State Fault Refusal :=
  s.live (s.request fun s =>
    if (s.zone z).state ≠ .sealed then (s, fun _ => .refused tag.toNat kindCommand .wrongState)
    else if s.alarmInput z then (s, fun _ => .refused tag.toNat kindCommand .alarmActive)
    else (s.enterOpening z, fun _ => .done tag.toNat kindCommand (be 1 ZoneState.opening.code)))

/-- The awaited cranes of a STOPPING zone that are READY, BUSY or PARKING (R159, R163). -/
def State.lateCranes (s : State) (aisles : List Nat) : List Nat := aisles.filter fun a => (s.crane a).state.unparked

/-- A zone is sealed without waiting (R163). -/
def State.seal (s : State) (z : Nat) : State :=
  match (s.zone z).state with
  | .clear => (s.giveCause z .manual).closeFromClear z
  | .stopping =>
    let t := s.faultRequest (s.lateCranes (s.zone z).awaited) .parkLate
    (t.modZone z fun r => { r with awaited := [] }).enterClosing z
  | .settling => s.enterClosing z
  | .opening => (s.giveCause z .manual).enterClosing z
  | .enabling => (s.giveCause z .manual).enterClosing z
  | .closing => s
  | .sealed => s

/-- SEAL_NOW (R163). -/
def execSealNow (tag : BitVec 16) (z : Fin 8) (s : State) : Host.Outcome State Fault Refusal :=
  s.live (s.request fun s => (s.seal z, fun t => .done tag.toNat kindCommand (zoneField z t)))

/-! ## Timers -/

/-- The expiry of a zone's alarm debounce timer, while it runs: the alarm is taken (R155, R156). -/
def execAlarmDebounceExpiry (z : Fin 8) (s : State) : Host.Outcome State Fault Refusal :=
  s.live (s.event fun s =>
    if (s.zone z).debounceTimer.isSome then
      (s.modZone z fun r => { r with debounceTimer := none }).shutdown z .alarm
    else s)

/-- A zone's own timer runs in a state. -/
def State.timing (s : State) (z : Nat) (st : ZoneState) : Bool :=
  decide ((s.zone z).state = st) && (s.zone z).timer.isSome

/-- The expiry of a zone's park deadline, while it runs (R159). -/
def execParkDeadlineExpiry (z : Fin 8) (s : State) : Host.Outcome State Fault Refusal :=
  s.live (s.event fun s =>
    if s.timing z .stopping then
      (s.faultRequest (s.lateCranes (s.zone z).awaited) .parkLate).enterSettling z
    else s)

/-- The expiry of a zone's brake settle timer, while it runs (R160). -/
def execBrakeSettleExpiry (z : Fin 8) (s : State) : Host.Outcome State Fault Refusal :=
  s.live (s.event fun s => if s.timing z .settling then s.enterClosing z else s)

/-- A movement of a zone's shutter ends without its feedback: the fault flag is set, NOTICE SHUTTER_FAULT is
sent, and the zone is SEALED (R161, R165, R174). -/
def State.shutterFault (s : State) (z : Nat) (d : ShutterDirection) : State :=
  (s.notice (.shutterFault z d)).zoneTo z fun r => { r with state := .sealed, fault := true, timer := none }

/-- The expiry of a zone's shutter timer in CLOSING, while it runs (R161). -/
def execShutterCloseLimitExpiry (z : Fin 8) (s : State) : Host.Outcome State Fault Refusal :=
  s.live (s.event fun s =>
    if s.timing z .closing then
      if s.selectedFirst (16 + z) then s.shutterFault z .close
      else s.zoneTo z fun r => { r with state := .sealed, timer := none }
    else s)

/-- The expiry of a zone's shutter timer in OPENING, while it runs (R165). -/
def execShutterOpenLimitExpiry (z : Fin 8) (s : State) : Host.Outcome State Fault Refusal :=
  s.live (s.event fun s =>
    if s.timing z .opening then
      if s.selectedFirst (24 + z) then s.shutterFault z .opening else s.enterEnabling z
    else s)

/-- The cranes that a ready timer's expiry finds wanting, and what is asked for them (R167). -/
def State.faultUnready (s : State) (z : Nat) : State :=
  let touching := s.aislesTouching z
  if s.mode.mode = .quiet then
    s.offlineRequest (touching.filter fun a => (s.aisle a).zones.all fun y => (s.zone y).state.releasesCranes)
  else
    s.faultRequest (touching.filter fun a => s.counted a && decide ((s.crane a).state ≠ .ready)) .readyLate

/-- The expiry of a zone's ready timer, while it runs (R167). -/
def execZoneReadyExpiry (z : Fin 8) (s : State) : Host.Outcome State Fault Refusal :=
  s.live (s.event fun s => if s.timing z .enabling then (s.faultUnready z).becomeClear z else s)

/-! ## Lines -/

/-- The pin of a line is sampled and its change is taken (R176, R179, R181). -/
def State.takeLine (s : State) (n : Nat) : State := (s.samplePin n).lineChanged n (s.keyPressed n)

/-- The wire of a line presents something else. -/
def State.setWiring (s : State) (n : Nat) (w : Wiring) : State := s.modLine n fun r => { r with wiring := w }

/-- LINE_INPUT_CHANGE (R176, R179, R181). The wire changes whatever the part does; during a reset and after
RESTART the change is handed to no block (R183). -/
def execLineInputChange (n : Fin 48) (w : Wiring) (s : State) : Host.Outcome State Fault Refusal :=
  if s.resets.phase = .running then .next (s.event fun s => (s.setWiring n w).takeLine n)
  else .next (s.setWiring n w)

/-- The expiry of a line's call-key debounce timer, while it runs (R181). -/
def execCallKeyDebounceExpiry (n : Fin 48) (s : State) : Host.Outcome State Fault Refusal :=
  s.live (s.event fun s =>
    if (s.line n).keyTimer.isSome then
      let t := s.modLine n fun r => { r with keyTimer := none }
      if t.params.callKeyInhibit then t else t.notice (.callKey n)
    else s)

end Sys2Proof.Machine
end

