-- ==== Sys2Proof/Machine/ModeCommands.lean ====
section
/-! DEFINITION. The commands of Mode Control (QUIET, WAKE, RESTART and its two timers) and the course of resets
(chapter 11), with what each block makes of a reset (R24, R42, R81, R106, R122, R137, R152, R172, R183). -/

namespace Sys2Proof.Machine

/-! ## QUIET and WAKE -/

/-- The field of the ANSWER to QUIET and to WAKE: the mode (R186, R190). -/
def modeField (s : State) : List Byte := be 1 s.mode.mode.code

/-- QUIET (R186). -/
def execQuiet (tag : BitVec 16) (s : State) : Host.Outcome State Fault Refusal :=
  s.live (s.request fun s =>
    match s.mode.mode with
    | .run => ((s.changeMode .draining .command).oweDrain, fun t => .done tag.toNat kindCommand (modeField t))
    | .draining => (s, fun t => .done tag.toNat kindCommand (modeField t))
    | .quiet => (s, fun t => .done tag.toNat kindCommand (modeField t))
    | .waking => (s, fun t => .refused tag.toNat kindCommand .wrongState (modeField t)))

/-- WAKE (R190). -/
def execWake (tag : BitVec 16) (s : State) : Host.Outcome State Fault Refusal :=
  s.live (s.request fun s =>
    (match s.mode.mode with
      | .quiet => s.changeMode .waking .command
      | .draining => s.changeMode .run .command
      | .run => s
      | .waking => s,
    fun t => .done tag.toNat kindCommand (modeField t)))

/-- The expiry of the park wait timer, while it runs (R187). -/
def execParkWaitExpiry (s : State) : Host.Outcome State Fault Refusal :=
  s.live (s.event fun s =>
    if s.mode.phase = some .parkWait ∧ s.mode.timer.isSome then
      (s.faultRequest (s.lateCranes s.mode.awaited) .parkLate).changeMode .quiet .drained
    else s)

/-- The expiry of the wake ready timer, while it runs (R190). -/
def execWakeReadyExpiry (s : State) : Host.Outcome State Fault Refusal :=
  s.live (s.event fun s =>
    if s.mode.mode = .waking ∧ s.mode.timer.isSome then
      (s.faultRequest (s.wakeCounted.filter fun a => decide ((s.crane a).state ≠ .ready)) .readyLate).changeMode
        .run .readyLate
    else s)

/-! ## Giving up timers -/

/-- A crane's timers are given up. -/
def Crane.untimed (c : Crane) : Crane := { c with flight := c.flight.map fun f => { f with timer := none } }

/-- A lift's timers are given up. -/
def Lift.untimed (r : Lift) : Lift :=
  { r with answerTimer := none, carries := r.carries.map fun c => { c with timer := none } }

/-- A zone's timers are given up. -/
def Zone.untimed (r : Zone) : Zone := { r with timer := none, debounceTimer := none }

/-- Every timer of every block is given up (R191, R192). -/
def State.untimed (s : State) : State :=
  { s with
    dispatch := { s.dispatch with cranes := s.dispatch.cranes.mapSet Crane.idle Crane.untimed }
    desk := { s.desk with orders := s.desk.orders.mapVals fun o => { o with gatherTimer := none }, holdTimer := none }
    pool := { s.pool with lifts := s.pool.lifts.mapSet Lift.powerOn Lift.untimed }
    returns := { s.returns with minuteTimer := none }
    zones := s.zones.mapSet Zone.powerOn Zone.untimed
    lines := { s.lines with lines := s.lines.lines.mapSet Line.powerOn fun r => { r with keyTimer := none } }
    mode := { s.mode with timer := none } }

/-! ## The beginning of a reset -/

/-- The reset record at the beginning of a pin reset (R193). -/
def ResetRecord.pinned (r : ResetRecord) : ResetRecord := { r with pin := true, count := min 255 (r.count + 1) }

/-- The reset record at the beginning of a command reset (R193). -/
def ResetRecord.commanded (r : ResetRecord) : ResetRecord := { r with command := true, count := min 255 (r.count + 1) }

/-- Both send queues are emptied, and nothing is on the lines (R24). -/
def Ports.emptied (p : Ports) : Ports := { p with uQueue := [], dQueue := [], uLine := none, dLine := none }

/-- A reset period begins: no event is taken, the queues are empty, the timers are given up, and the
drive-enable outputs are released (R24, R183, R192). -/
def State.beginReset (s : State) (r : ResetRecord) (ending : Option Nat) : State :=
  let t := s.untimed
  { (t.modPorts Ports.emptied).modResets fun c => { c with phase := .resetting, ending, record := r } with
    outputs := { t.outputs with drives := [] } }

/-- COMMAND_RESET: the ANSWER to RESTART has left, and the command reset begins (R191, R192). -/
def execCommandReset (s : State) : Host.Outcome State Fault Refusal :=
  match s.resets.phase with
  | .restarting => .next (s.beginReset s.resets.record.commanded (s.after Config.resetHold))
  | .running => .next s
  | .resetting => .next s
  | .unpowered => .next s

/-- PIN_RESET: the reset line becomes asserted (R192, R193). Without supply there is only the level of the
line. -/
def execPinReset (s : State) : Host.Outcome State Fault Refusal :=
  if s.resets.lineAsserted then .next s
  else
    let t := s.modResets fun r => { r with lineAsserted := true }
    match s.resets.phase with
    | .unpowered => .next t
    | .running => .next (t.beginReset s.resets.record.pinned none)
    | .restarting => .next (t.beginReset s.resets.record.pinned none)
    | .resetting => .next (t.beginReset s.resets.record.pinned none)

/-- RESET_LINE_RELEASE: the reset period ends 10 ms later (R192). -/
def execResetLineRelease (s : State) : Host.Outcome State Fault Refusal :=
  if s.resets.lineAsserted then
    .next (s.modResets fun r =>
      { r with
        lineAsserted := false
        ending := if s.resets.phase = .resetting then s.after Config.resetHold else s.resets.ending })
  else .next s

/-! ## The supply -/

/-- What a line's wire presents outlives the supply; the rest takes its power-on values (R182). -/
def Line.repowered (r : Line) : Line := { Line.powerOn with wiring := r.wiring }

/-- The lines whose wires do not present the level of a fresh line, at their power-on values. -/
def repoweredLines (t : Tab Line) : Tab Line := t.mapSet Line.powerOn Line.repowered

/-- The state while the supply is absent and at its return: every volatile table is lost. The reset line's level and
the wires of the local lines are the world's, and so is the count of free samples (R192, R193). -/
def State.blank (s : State) : State :=
  { State.reset with
    ports := { uQueue := [], dQueue := [], noticeSeq := 0, uLine := none, dLine := none }
    returns := { staging := [], minuteTimer := none }
    lines := { lines := repoweredLines s.lines.lines, pulls := [] }
    resets := { phase := .unpowered, lineAsserted := s.resets.lineAsserted, ending := none, record := State.reset.resets.record }
    floats := s.floats
    pending := s.pending }

/-- LOSS_OF_SUPPLY (R192). -/
def execLossOfSupply (s : State) : Host.Outcome State Fault Refusal := .next s.blank

/-- POWER_ON_RESET: the supply is applied and a power-on reset begins; its period ends 10 ms after the reset
line is released (R192, R193). -/
def execPowerOnReset (s : State) : Host.Outcome State Fault Refusal :=
  let t := s.blank
  .next (t.modResets fun r =>
    { r with phase := .resetting, ending := if s.resets.lineAsserted then none else t.after Config.resetHold })

/-! ## The end of a reset period -/

/-- A bin after a reset (R42). The item-reference count is set from the retained entries. -/
def Bin.afterReset (items : Tab Item) (b : Nat) (r : Bin) : Bin :=
  { r with
    target := none, pending := false
    itemRefs := items.countP fun p => decide (p.2.bin = b)
    state := match r.state with
      | .reserved => .stored
      | .out => .adrift
      | .moving => .adrift
      | .stored => .stored
      | .blocked => .blocked
      | .stranded => .stranded
      | .adrift => .adrift }

/-- The item entries retained by a reset: all but the REQUESTED (R137). -/
def retainedItems (t : Tab Item) : Tab Item := t.filter fun p => decide (p.2.state.word ≠ .requested)

/-- The crane record of an aisle after a reset: its counts retained, its credits the aisle's weights (R81). -/
def Crane.afterReset (r : Aisle) (c : Crane) : Crane :=
  { Crane.idle with
    unmatched := c.unmatched, rejected := c.rejected, refusedRecoveries := c.refusedRecoveries
    patronCredit := r.patronWeight, restoreCredit := r.restoreWeight, houseCredit := r.houseWeight }

/-- A station after a reset (R106). -/
def Station.afterReset (w : Station) : Station :=
  { w with orderQueue := [], lane := [], reservations := 0, owner := none, presQueue := [] }

/-- A lift after a reset (R122). -/
def Lift.afterReset (r : Lift) : Lift := { r with word := .off, answerTimer := none, carries := [] }

/-- The blocks below Zone Control settle their state (R24, R42, R81, R106, R122, R137, R152). -/
def State.settleBlocks (s : State) : State :=
  let items := retainedItems s.loans.items
  let t := { s with
    ports := { s.ports with uQueue := [], dQueue := [], noticeSeq := 0 }
    store := { s.store with bins := s.store.bins.map fun p => (p.1, p.2.afterReset items p.1) }
    dispatch := { s.dispatch with jobTag := 0 }
    desk := { s.desk with orders := [], restoreNumber := 32768, holding := false, holdTimer := none, admissions := 0 }
    pool := { s.pool with pointer := 0, carryTag := 0, waitList := [] }
    loans := { s.loans with items }
    returns := { s.returns with minuteTimer := s.after Config.minute }
    mode := { s.mode with phase := none, timer := none, awaited := [], lastStaging := s.returns.staging.length, lastWaiting := 0 }
    resets := { s.resets with ending := none } }
  let t := forEach allAisles (fun a s => s.modCrane a (Crane.afterReset (s.aisle a))) t
  let t := forEach allStations (fun st s => s.modStation st Station.afterReset) t
  let t := forEach allLifts (fun l s => s.modLift l Lift.afterReset) t
  forEach allLifts (fun l s => s.sendMember l) t

/-- A zone resumes after a reset (R172). One that was ENABLING passes through STOPPING at once, before the notices of the
mode (R193). -/
def State.resumeZone (z : Nat) (s : State) : State :=
  match (s.zone z).state with
  | .clear => s
  | .sealed => s
  | .stopping => s.enterClosing z
  | .settling => s.enterClosing z
  | .closing => State.feedback z (s.modZone z fun r => { r with fault := false, timer := s.after r.shutterLimit })
  | .opening => State.feedback z (s.modZone z fun r => { r with fault := false, timer := s.after r.shutterLimit })
  | .enabling => State.stoppingTest z ((s.giveCause z .manual).enterStopping z)

/-- The Line Block hands over a zone's alarm level after a reset: the debounce timer of an asserted input starts
afresh on its setting, whatever the setting (R172, R183). -/
def State.resumeAlarm (z : Nat) (s : State) : State :=
  s.modZone z fun r =>
    { r with alarm := s.alarmInput z, awaited := []
             debounceTimer := if s.alarmInput z then s.after r.debounce else none }

/-- A line's key timer starts afresh after a reset if its key is pressed (R183). -/
def State.resumeKey (n : Nat) (s : State) : State := s.settleKey n false

/-- The end of a reset period: the blocks settle, RESET_DONE is sent, the zones resume, and the mode becomes
WAKING (R192, R193). -/
def State.resume (s : State) : State :=
  let t := s.settleBlocks
  let t := forEach allLines (fun n s => s.samplePin n) t
  let t := forEach allLines State.resumeKey t
  let t := t.notice (.resetDone t.resets.record)
  let t := forEach allZones State.resumeAlarm t
  let t := forEach allZones State.resumeZone t
  t.changeMode .waking .reset

/-- An event that ends a reset period closes with empty send queues and notice sequence 0 (R24, R22). -/
def State.resumeEvent (s : State) : State :=
  (s.modPorts fun _ => { uQueue := [], dQueue := [], noticeSeq := 0, uLine := none, dLine := none }).event State.resume

/-- RESET_PERIOD_END, while a reset period runs to its end (R192, R193). -/
def execResetPeriodEnd (s : State) : Host.Outcome State Fault Refusal :=
  match s.resets.phase, s.resets.ending with
  | .resetting, some _ => .next s.resumeEvent
  | _, _ => .next s

/-! ## RESTART -/

/-- The D send queue is emptied, and no further event is taken (R191). -/
def State.suspend (s : State) : State :=
  let t := s.untimed
  (t.modPorts fun p => { p with dQueue := [] }).modResets fun r => { r with phase := .restarting }

/-- The event of RESTART up to its ANSWER (R191). -/
def State.answerRestart (s : State) (tag : BitVec 16) : State :=
  s.request fun s => (s, fun _ => .done tag.toNat kindCommand)

/-- RESTART (R191). Its ANSWER is discarded where the U send queue holds kept telegrams only; the command reset
then begins at once. -/
def execRestart (tag : BitVec 16) (s : State) : Host.Outcome State Fault Refusal :=
  let t := (s.answerRestart tag).suspend
  s.live
    (if s.ports.uQueue.length < Config.queueCapacity ∨ (dropNewest s.ports.uQueue).isSome then t
      else t.beginReset t.resets.record.commanded (t.after Config.resetHold))

end Sys2Proof.Machine
end

