-- ==== Sys2Proof/Machine/Reads.lean ====
section
/-! DEFINITION. READ (R19) and READ of the RESET table (R193): the entries of every table as a READ carries
them, field by field in the order of the owning rule, each field in the fewest whole bytes that hold its range
(R15, R23). -/

namespace Sys2Proof.Machine

/-! ## Parts of entries -/

/-- A list carried as its count and its items, filled up with zeros to the most it can hold (log entry 7). -/
def padded (most width : Nat) (items : List (List Byte)) : List Byte :=
  be 1 items.length ++ items.flatten ++ List.replicate ((most - items.length) * width) 0

/-- The milliseconds left of a timer, as a presence field followed by `w` bytes. -/
def State.leftBytes (s : State) (w : Nat) (t : Option Nat) : List Byte := optional w (t.map s.left)

/-! ## The entries of each table -/

/-- An ADDRESS entry (R8). -/
def AddrEntry.bytes : AddrEntry → List Byte
  | .none => be 1 0 ++ optional 1 Option.none ++ optional 1 Option.none
  | .crane a => be 1 1 ++ optional 1 (some a) ++ optional 1 Option.none
  | .lift l => be 1 2 ++ optional 1 (some l) ++ optional 1 Option.none
  | .station st => be 1 3 ++ optional 1 (some st) ++ optional 1 Option.none
  | .device z => be 1 4 ++ optional 1 Option.none ++ optional 1 (some z)

/-- A TRAFFIC entry (section 1.5). -/
def State.trafficBytes (s : State) (i : Nat) : List Byte :=
  be 1 (if i < 64 then s.treatDown i else s.treatUp (i - 64)).code

/-- A setting of the PARAMS table (R15). -/
def Params.setting (p : Params) (i : Nat) : Nat :=
  match i with
  | 0 => p.watermark
  | 1 => p.holdTime
  | 2 => p.holdRepeat
  | 3 => p.moveMargin
  | 4 => p.moveAllowance
  | 5 => p.termEnd
  | 6 => p.restoreThreshold
  | 7 => p.restoreAge
  | 8 => p.stagingWake
  | 9 => p.orderWake
  | 10 => p.wakeReadyLimit
  | _ => if p.callKeyInhibit then 1 else 0

/-- An AISLE entry (section 2.1). -/
def Aisle.bytes (r : Aisle) : List Byte :=
  be 1 r.levels ++ be 1 r.columns ++ be 2 r.frontOffset ++ be 2 r.columnPitch ++ be 2 r.levelPitch ++
    be 1 (mirrorCode r.leftMirrored) ++ be 1 (mirrorCode r.rightMirrored) ++ be 1 r.frontLevel ++ be 1 r.infeedLevel ++
    be 1 r.frontSize ++ be 1 r.infeedSize ++ be 1 r.parkColumn ++ be 1 r.parkLevel ++ be 2 r.travelVmax ++
    be 2 r.travelAccel ++ be 2 r.hoistVmax ++ be 2 r.hoistAccel ++ be 2 r.handling ++ be 1 r.lowerZone ++
    be 1 r.upperZone ++ be 1 r.split ++ be 1 r.mode.code ++ be 1 r.patronWeight ++ be 1 r.restoreWeight ++
    be 1 r.houseWeight

/-- A present BIN entry (section 2.5). -/
def Bin.bytes (r : Bin) : List Byte :=
  be 1 (presenceCode true) ++ r.home.bytes ++ be 1 r.state.code ++
    (match r.target with
      | some t => be 1 (presenceCode true) ++ t.bytes
      | none => be 1 (presenceCode false) ++ be 4 0) ++
    be 1 r.staged ++ be 1 (flagCode r.pending) ++ be 3 r.itemRefs

/-- A BIN entry; an absent one is ABSENT followed by zeros (R15). -/
def State.binBytes (s : State) (b : Nat) : List Byte :=
  match s.bin b with
  | some r => r.bytes
  | none => be 1 (presenceCode false) ++ List.replicate 15 0

/-- The job in flight of a crane (R80). -/
def flightBytes : Option Flight → List Byte
  | some f =>
    be 1 (presenceCode true) ++ be 1 f.job.kind.code ++ be 1 f.job.cls.code ++ be 2 f.job.bin ++ be 2 f.tag ++
      be 3 f.estimate ++ be 3 f.deadline ++ be 1 (flagCode f.late)
  | none => be 1 (presenceCode false) ++ be 13 0

/-- The position and the load of a crane (R80): both absent where no position is recorded (R61). -/
def placeBytes : Option Place → List Byte
  | some p => be 1 (presenceCode true) ++ p.point.bytes ++ be 1 (presenceCode true) ++ loadBytes p.load
  | none => be 1 (presenceCode false) ++ be 4 0 ++ be 1 (presenceCode false) ++ be 2 0

/-- A CRANE entry (R80). -/
def State.craneBytes (s : State) (a : Nat) : List Byte :=
  let c := s.crane a
  be 1 c.state.code ++ placeBytes c.place ++ flightBytes c.flight ++ optional 1 c.faultCode ++
    be 2 c.patronQueue.length ++ be 2 c.restoreQueue.length ++ be 2 c.houseQueue.length ++ be 1 c.patronCredit ++
    be 1 c.restoreCredit ++ be 1 c.houseCredit ++ be 1 c.front.length ++ be 1 c.infeed.length ++ be 2 s.freeCount ++
    be 4 c.unmatched ++ be 4 c.rejected ++ be 4 c.refusedRecoveries

/-- A STATION entry (R82, R83). Its state fields stand in the order of R83's table, the window bin before the owner: the
model's choice (log entry 45). -/
def State.stationBytes (s : State) (st : Nat) : List Byte :=
  let w := s.station st
  be 1 w.kind.code ++ be 1 w.zone ++ be 1 w.laneSize ++ be 3 w.slack ++ be 2 w.orderQueue.length ++
    padded 8 3 (w.lane.map fun l => be 2 l.bin ++ be 1 l.mark.code) ++ be 1 w.reservations ++
    optional 2 (w.window.map (·.bin)) ++ optional 2 w.owner ++ be 2 w.presQueue.length ++ be 4 w.unmatched

/-- A present ORDER entry (R84). -/
def Order.bytes (o : Order) : List Byte :=
  be 1 (presenceCode true) ++ be 2 o.number ++ be 1 o.kind.code ++ be 1 o.station ++ be 4 o.patron ++
    be 1 o.state.code ++ be 1 (flagCode o.gathered) ++ optional 3 o.gatherLimit ++ optional 4 o.gatherStart ++
    be 1 o.taken ++ be 1 o.notTaken ++
    padded 8 4 (o.members.map fun m => be 2 m.bin ++ be 1 m.state.code ++ be 1 m.items.length)

/-- An ORDER entry; an absent one is ABSENT followed by zeros (R84). -/
def State.orderBytes (s : State) (i : Nat) : List Byte :=
  match s.desk.orders.find i with
  | some o => o.bytes
  | none => be 1 (presenceCode false) ++ List.replicate 54 0

/-- A carry of a lift (R121). -/
def Carry.bytes (c : Carry) : List Byte := be 2 c.tag ++ be 2 c.bin ++ be 1 c.leg.code ++ be 1 (flagCode c.late)

/-- A LIFT entry (R107, R121). The station mask is three bytes, bit k for station k, 1 where the station is served: the
model's choice (log entry 39). -/
def State.liftBytes (s : State) (l : Nat) : List Byte :=
  let r := s.lift l
  be 1 r.zone ++ be 3 r.mask.toNat ++ be 1 r.carriers ++ be 3 r.carryLimit ++ be 2 r.answerLimit ++
    optional 1 (s.liftAddress l) ++ be 1 r.word.code ++ optional 1 r.word.seq ++
    padded 4 6 (r.carries.map Carry.bytes) ++ be 4 r.unmatched ++ be 1 s.pool.pointer ++ be 2 s.pool.waitList.length

/-- The loan fields of an item, 0 where it has none (R123). -/
def loanBytes : Option Loan → List Byte
  | some l => be 2 l.lendDay ++ be 2 l.dueDay ++ be 1 l.renewals
  | none => be 2 0 ++ be 2 0 ++ be 1 0

/-- The order number of an item, 0 where it has none (R123). -/
def ItemState.orderNumber : ItemState → Nat
  | .requested n => n
  | _ => 0

/-- The scan day of an item, 0 where it has none (R123). -/
def ItemState.scanDay : ItemState → Nat
  | .returned _ d => d
  | _ => 0

/-- An ITEM entry (R123). -/
def Item.bytes (t : Nat) (e : Item) : List Byte :=
  be 1 (presenceCode true) ++ be 6 t ++ be 2 e.bin ++ be 1 e.category ++ be 1 e.state.word.code ++
    be 2 e.state.orderNumber ++ loanBytes e.state.loan ++ be 2 e.state.scanDay

/-- The ITEM entry at an ordinal (R16, R123). -/
def State.itemBytes (s : State) (i : Nat) : List Byte :=
  match s.loans.items[i]? with
  | some p => p.2.bytes p.1
  | none => []

/-- A CLASS entry (R127). -/
def ClassRecord.bytes (r : ClassRecord) : List Byte := be 1 r.cls.code ++ be 2 r.period ++ be 1 r.renewLimit

/-- The STAGING entry at an ordinal (R150). -/
def State.stagingBytes (s : State) (i : Nat) : List Byte :=
  match s.returns.staging[i]? with
  | some e => be 6 e.item ++ be 2 e.bin ++ be 2 e.scanDay ++ be 2 e.age
  | none => []

/-- A line field of a zone: the line while it is selected for its first function (R153). -/
def State.lineField (s : State) (n : Nat) : List Byte := optional 1 (if s.selectedFirst n then some n else none)

/-- A ZONE entry (R174). -/
def State.zoneBytes (s : State) (z : Nat) : List Byte :=
  let r := s.zone z
  s.lineField z ++ s.lineField (8 + z) ++ s.lineField (16 + z) ++ s.lineField (24 + z) ++ be 2 r.debounce ++
    be 2 r.parkAllowance ++ be 2 r.brakeSettle ++ be 3 r.shutterLimit ++ be 3 r.readyLimit ++ be 1 r.state.code ++
    optional 1 (r.cause.map (·.code)) ++ be 1 (flagCode r.fault) ++ be 1 (levelCode (s.alarmInput z)) ++
    be 1 (timerCode r.debounceTimer.isSome) ++ s.leftBytes 3 r.timer

/-- The code of a line's function: its place among the nine functions as the last sentences of R175 list them, the inputs
and then the outputs. That these two lists stand for the set is the model's choice (log entry 43). -/
def LineFunction.code : LineFunction → Nat
  | .generalIn => 0
  | .zoneAlarm _ => 1
  | .shutterClosed _ => 2
  | .shutterOpen _ => 3
  | .callKey => 4
  | .generalOut => 5
  | .shutterClose _ => 6
  | .driveEnable _ => 7
  | .beacon => 8

/-- The logical value that a READ shows: DEASSERTED for a CALL_KEY line while call keys are inhibited
(R176, R181). -/
def State.shownValue (s : State) (n : Nat) : Bool :=
  s.lineValue n && !(decide (s.function n = .callKey) && s.params.callKeyInhibit)

/-- A LINE entry (R176): IN 0 and OUT 1, HIGH 0 and LOW 1. -/
def State.lineBytes (s : State) (n : Nat) : List Byte :=
  let r := s.line n
  be 1 r.selection.code ++ be 1 r.polarity.code ++ be 1 (levelCode r.output) ++ be 1 (s.function n).code ++
    be 1 (if (s.function n).input then 0 else 1) ++ be 1 (if s.pinLevel n then 0 else 1) ++
    be 1 (levelCode (s.shownValue n)) ++ be 1 (timerCode r.keyTimer.isSome)

/-- The MODE entry (R184). -/
def State.modeBytes (s : State) : List Byte :=
  be 1 s.mode.mode.code ++ optional 1 (s.mode.phase.map (·.code)) ++ s.leftBytes 3 s.mode.timer ++
    be 1 (s.lateCranes s.mode.awaited).length ++ be 2 s.mode.lastStaging ++ be 2 s.mode.lastWaiting

/-- The RESET entry (R193). -/
def ResetRecord.bytes (r : ResetRecord) : List Byte :=
  be 1 (flagCode r.power) ++ be 1 (flagCode r.pin) ++ be 1 (flagCode r.command) ++ be 1 r.count

/-! ## READ -/

/-- READ's kind code (R1). -/
def kindRead : Nat := 6

/-- The number of entries that a table has, if the code is a table's (R15). -/
def State.tableSize (s : State) (table : Nat) : Option Nat :=
  match table with
  | 1 => some 128
  | 2 => some 128
  | 3 => some 12
  | 4 => some 12
  | 5 => some 12
  | 6 => some Config.binCount
  | 7 => some 12
  | 8 => some 24
  | 9 => some Config.orderRecords
  | 10 => some 6
  | 11 => some s.loans.items.length
  | 12 => some 16
  | 13 => some s.returns.staging.length
  | 14 => some 8
  | 15 => some 48
  | 16 => some 12
  | 17 => some 1
  | 18 => some 1
  | _ => none

/-- The entry of a table at an index or ordinal, as a READ carries it. -/
def State.entryBytes (s : State) (table i : Nat) : List Byte :=
  match table with
  | 1 => (s.addr i).bytes
  | 2 => s.trafficBytes i
  | 3 => be 4 (s.counter i)
  | 4 => be 4 (s.params.setting i)
  | 5 => (s.aisle i).bytes
  | 6 => s.binBytes i
  | 7 => s.craneBytes i
  | 8 => s.stationBytes i
  | 9 => s.orderBytes i
  | 10 => s.liftBytes i
  | 11 => s.itemBytes i
  | 12 => (s.lendClass i).bytes
  | 13 => s.stagingBytes i
  | 14 => s.zoneBytes i
  | 15 => s.lineBytes i
  | 16 => be 1 (s.pull i).code
  | 17 => s.modeBytes
  | 18 => s.resets.record.bytes
  | _ => []

/-- The entries that fit in the room left of an ANSWER body, up to the first that does not (R19). -/
def fitEntries : (room : Nat) → List (List Byte) → List (List Byte)
  | _, [] => []
  | room, e :: es => if e.length ≤ room then e :: fitEntries (room - e.length) es else []

/-- The room for entries in the ANSWER to a READ: the body less its seven other bytes (R19, R23). -/
def readRoom : Nat := Config.bodyMax - 7

/-- The entries that a READ asks for and the table has, from the first index on. -/
def State.wanted (s : State) (table first count size : Nat) : List (List Byte) :=
  (List.range (min count (size - first))).map fun i => s.entryBytes table (first + i)

/-- The fields of the ANSWER to a READ (R19, R23). -/
def readFields (table first : Nat) (entries : List (List Byte)) : List Byte :=
  be 1 table ++ be 2 first ++ be 1 entries.length ++ entries.flatten

/-- The judgement of a READ: the table's size, or the reason of the refusal (R19). -/
def State.judgeRead (s : State) (table first count : Nat) : Nat ⊕ Reason :=
  match s.tableSize table with
  | none => .inr .unknownTable
  | some size => if count = 0 then .inr .valueRange else if size ≤ first then .inr .indexRange else .inl size

/-- The ANSWER to a READ that is not refused (R19). -/
def State.readAnswer (s : State) (tag table first count size : Nat) : Answer :=
  let entries := fitEntries readRoom (s.wanted table first count size)
  let fields := readFields table first entries
  if entries.length = count then ⟨tag, kindRead, .done, none, fields⟩
  else if entries.length = size - first then ⟨tag, kindRead, .partially, some .indexRange, fields⟩
  else ⟨tag, kindRead, .partially, some .tooLarge, fields⟩

/-- The flags of the reset record are cleared by a READ of the RESET table (R193). -/
def State.clearFlags (s : State) : State :=
  s.modResets fun r => { r with record := { r.record with power := false, pin := false, command := false } }

/-- A READ is taken; of the RESET table it clears the flags after they are read (R19, R193). -/
def State.takeRead (s : State) (tag table first count : Nat) : State × (State → Answer) :=
  match s.judgeRead table first count with
  | .inr r => (s, fun _ => .refused tag kindRead r (readFields table first []))
  | .inl size =>
    let a := s.readAnswer tag table first count size
    (if table = 18 then s.clearFlags else s, fun _ => a)

/-- READ (R19). -/
def execRead (tag : BitVec 16) (table : BitVec 8) (first : BitVec 16) (count : BitVec 8) (s : State) :
    Host.Outcome State Fault Refusal :=
  s.live (s.request fun s => s.takeRead tag.toNat table.toNat first.toNat count.toNat)

/-- READ of the RESET table (R193). -/
def execResetRead (tag first : BitVec 16) (count : BitVec 8) (s : State) : Host.Outcome State Fault Refusal :=
  s.live (s.request fun s => s.takeRead tag.toNat 18 first.toNat count.toNat)

end Sys2Proof.Machine
end

