-- ==== Sys2Proof/Machine/Writes.lean ====
section
/-! DEFINITION. The WRITEs: the common course of a WRITE (R16, R17, R18) and the judgement of the entries of
each writable table by its owning block. -/

namespace Sys2Proof.Machine

/-! ## The course of a WRITE -/

/-- WRITE's kind code (R1). -/
def kindWrite : Nat := 5

/-- A clamped field of an applied entry: the field's position in the entry, counting from 1, and the value
stored (R18). -/
abbrev Clamp := Nat × Nat

/-- What becomes of one entry: it is applied, with its clamped fields, or refused (R17). -/
abbrev Judged := (State × List Clamp) ⊕ Reason

/-- What a WRITE has come to: the state, the entries applied, the clamp list with the index of each item's
entry, and the reason of the refusal that stopped it (R18). -/
structure Written where
  state : State
  applied : Nat
  clamps : List (Nat × Clamp)
  refusal : Option Reason

/-- Apply the entries in list order from an index on, up to the first that is refused; an index beyond the
table's range refuses its entry (R16, R17, R18). -/
def writeEntries {α : Type} (size : Nat) (apply : Nat → α → State → Judged) : List α → Nat → State → Written
  | [], _, s => { state := s, applied := 0, clamps := [], refusal := none }
  | e :: es, i, s =>
    if size ≤ i then { state := s, applied := 0, clamps := [], refusal := some .indexRange }
    else
      match apply i e s with
      | .inr r => { state := s, applied := 0, clamps := [], refusal := some r }
      | .inl (t, cs) =>
        let w := writeEntries size apply es (i + 1) t
        { w with applied := w.applied + 1, clamps := cs.map (fun c => (i, c)) ++ w.clamps }

/-- The most clamp-list items that fit in an ANSWER body: 3 + 2 + 7 × 33 = 236 of 240 bytes (R18, R23). -/
def clampRoom : Nat := 33

/-- The fields of the ANSWER to a WRITE (R18, R23). -/
def Written.fields (w : Written) : List Byte :=
  be 1 w.applied ++ be 1 (flagCode (decide (clampRoom < w.clamps.length))) ++
    (w.clamps.take clampRoom).flatMap fun c => be 2 c.1 ++ be 1 c.2.1 ++ be 4 c.2.2

/-- The outcome of a WRITE (R18). -/
def Written.verdict (w : Written) : Verdict :=
  match w.refusal with
  | none => if w.clamps = [] then .done else .clamped
  | some _ => if w.applied = 0 then .refused else .partially

/-- The ANSWER to a WRITE (R18). -/
def Written.answer (w : Written) (tag : Nat) : Answer := ⟨tag, kindWrite, w.verdict, w.refusal, w.fields⟩

/-- A WRITE taken by the block that owns the table (R16). -/
def State.write {α : Type} (s : State) (tag : BitVec 16) (size : Nat) (apply : Nat → α → State → Judged)
    (first : Nat) (entries : List α) : Host.Outcome State Fault Refusal :=
  s.live (s.request fun s =>
    let w := writeEntries size apply entries first s
    (w.state, fun _ => w.answer tag.toNat))

/-- A WRITE whose entries may shut zones: the lifts of all the zones it shuts are barred together, after the last entry
(R111, R114, R156). -/
def State.writeBarring {α : Type} (s : State) (tag : BitVec 16) (size : Nat) (apply : Nat → α → State → Judged)
    (first : Nat) (entries : List α) : Host.Outcome State Fault Refusal :=
  s.live (s.request fun s =>
    let w := writeEntries size apply entries first s.holdBars
    (w.state.barHeld, fun _ => w.answer tag.toNat))

/-- A WRITE refused before any block takes it (R16). -/
def State.writeRefused (s : State) (tag : BitVec 16) (r : Reason) : Host.Outcome State Fault Refusal :=
  s.live (s.request fun s =>
    (s, fun _ => (Written.answer { state := s, applied := 0, clamps := [], refusal := some r } tag.toNat)))

/-- A numeric field clamped to its range, with the clamp noted (R17). -/
def clampTo (pos lo hi v : Nat) : Nat × List Clamp :=
  if v < lo then (lo, [(pos, lo)]) else if hi < v then (hi, [(pos, hi)]) else (v, [])

/-! ## ADDRESS, TRAFFIC and COUNTERS -/

/-- The entry that an ADDRESS entry's fields give, if they give one (R8, R9). -/
def addressValue (e : AddressEntry) : Option AddrEntry :=
  match e.role, e.unitPresence, e.zonePresence with
  | 0, 1, 1 => some .none
  | 1, 0, 1 => if e.unit < 12 then some (.crane e.unit) else none
  | 2, 0, 1 => if e.unit < 6 then some (.lift e.unit) else none
  | 3, 0, 1 => if e.unit < 24 then some (.station e.unit) else none
  | 4, 1, 0 => if e.zone < 8 then some (.device e.zone) else none
  | _, _, _ => none

/-- An address that may hold no role but NONE (R9). -/
def reservedAddress (a : Nat) : Bool := decide (a = 0) || decide (a = Config.ownAddress) || decide (a = Config.broadcast)

/-- An entry that names a unit. -/
def AddrEntry.namesUnit : AddrEntry → Bool
  | .crane _ => true
  | .lift _ => true
  | .station _ => true
  | .none => false
  | .device _ => false

/-- An entry that names a station. -/
def AddrEntry.namesStation : AddrEntry → Bool
  | .station _ => true
  | _ => false

/-- No order is placed at a station, and it holds no bin (R9, R82). -/
def State.stationIdle (s : State) (st : Nat) : Bool :=
  (s.desk.orders.all fun p => decide (p.2.station ≠ st)) && (s.station st).lane.isEmpty

/-- The present unit of an address is not at rest: the reason (R9). -/
def State.unitBusy (s : State) : AddrEntry → Option Reason
  | .crane a =>
    if ((s.crane a).state = .offline ∨ (s.crane a).state = .faulted) ∧ (s.crane a).flight = none then none
    else some .aisleBusy
  | .lift l =>
    if ((s.lift l).word = .off ∨ (s.lift l).word = .bar) ∧ (s.lift l).carries = [] then none else some .wrongState
  | .station st => if s.stationIdle st then none else some .stationBusy
  | .none => none
  | .device _ => none

/-- Write an ADDRESS entry, owing a restore pass where it names or stops naming a station (R9, R145). No ready test is
made for it: R166 and R190 name the events that make one (log entry 46). -/
def State.applyAddress (s : State) (a : Nat) (v : AddrEntry) : State :=
  let t := s.setAddr a v
  if v.namesStation || (s.addr a).namesStation then t.oweRestore .pass else t

/-- One ADDRESS entry (R9). -/
def judgeAddress (a : Nat) (e : AddressEntry) (s : State) : Judged :=
  match addressValue e with
  | none => .inr .valueRange
  | some v =>
    if reservedAddress a ∧ v ≠ .none then .inr .valueRange
    else if v.namesUnit ∧ (s.link.addresses.any fun p => decide (p.1 ≠ a) && decide (p.2 = v)) = true then
      .inr .valueRange
    else if s.addr a = v then .inl (s.applyAddress a v, [])
    else
      match s.unitBusy (s.addr a) with
      | some r => .inr r
      | none => .inl (s.applyAddress a v, [])

/-- ADDRESS WRITE (R9). -/
def execAddressWrite (tag first : BitVec 16) (es : List AddressEntry) (s : State) :
    Host.Outcome State Fault Refusal :=
  s.write tag 128 judgeAddress first.toNat es

/-- The treatment that a code names (section 1.5). -/
def treatmentOf (n : Nat) : Option Treatment :=
  match n with
  | 0 => some .pass
  | 1 => some .guard
  | 2 => some .drop
  | _ => none

/-- Write a TRAFFIC entry (R10). -/
def State.setTraffic (s : State) (i : Nat) (t : Treatment) : State :=
  if i < 64 then { s with link := { s.link with trafficDown := s.link.trafficDown.set .guard i t } }
  else { s with link := { s.link with trafficUp := s.link.trafficUp.set .pass (i - 64) t } }

/-- One TRAFFIC entry (R10). -/
def judgeTraffic (i : Nat) (v : Nat) (s : State) : Judged :=
  match treatmentOf v with
  | some t => .inl (s.setTraffic i t, [])
  | none => .inr .valueRange

/-- TRAFFIC WRITE (R10). -/
def execTrafficWrite (tag first : BitVec 16) (es : List Nat) (s : State) : Host.Outcome State Fault Refusal :=
  s.write tag 128 judgeTraffic first.toNat es

/-- One COUNTERS entry (R14). -/
def judgeCounter (i : Nat) (v : Nat) (s : State) : Judged :=
  if v = 0 then .inl (s.setCounter i 0, []) else .inr .valueRange

/-- COUNTERS WRITE (R14). -/
def execCountersWrite (tag first : BitVec 16) (es : List Nat) (s : State) : Host.Outcome State Fault Refusal :=
  s.write tag 12 judgeCounter first.toNat es

/-! ## PARAMS -/

/-- Write the settings. -/
def State.modParams (s : State) (f : Params → Params) : State := { s with params := f s.params }

/-- One PARAMS entry, by its owner (R44, R105, R129, R143, R181, R185). -/
def judgeParam (i : Nat) (v : Nat) (s : State) : Judged :=
  let numeric (lo hi : Nat) (f : Nat → Params → Params) : Judged :=
    .inl (s.modParams (f (clampTo 1 lo hi v).1), (clampTo 1 lo hi v).2)
  match i with
  | 0 => numeric 1 256 fun x p => { p with watermark := x }
  | 1 => numeric 1000 60000 fun x p => { p with holdTime := x }
  | 2 => numeric 1000 s.params.holdTime fun x p => { p with holdRepeat := x }
  | 3 => numeric 0 100 fun x p => { p with moveMargin := x }
  | 4 => numeric 0 60000 fun x p => { p with moveAllowance := x }
  | 5 => numeric 0 65535 fun x p => { p with termEnd := x }
  | 6 => numeric 1 16 fun x p => { p with restoreThreshold := x }
  | 7 => numeric 1 1440 fun x p => { p with restoreAge := x }
  | 8 => numeric 0 4096 fun x p => { p with stagingWake := x }
  | 9 => numeric 0 256 fun x p => { p with orderWake := x }
  | 10 => numeric 5000 300000 fun x p => { p with wakeReadyLimit := x }
  | 11 => if v ≤ 1 then .inl (s.modParams fun p => { p with callKeyInhibit := decide (v = 1) }, []) else .inr .valueRange
  | _ => .inr .indexRange

/-- An applied entry of a range of indices is among the first `n` from `first` on. -/
def touches (first n lo hi : Nat) : Bool := decide (first ≤ hi) && decide (lo < first + n)

/-- The follow-on comparisons and passes of the owners whose entries were applied: the Order Unit owes its comparison of
the watermark to the end of the event (R104, R105), and, in the order of their entries, the Return Unit makes its restore
pass and Mode Control compares the wake thresholds (R16, R145, R185; log entry 24). -/
def State.paramsFollow (s : State) (first applied : Nat) : State :=
  let t := if touches first applied 0 0 then s.oweHold else s
  let t := if touches first applied 6 7 then t.restorePass else t
  if touches first applied 8 9 then t.thresholdTest else t

/-- PARAMS WRITE (R16). -/
def execParamsWrite (tag first : BitVec 16) (es : List Nat) (s : State) : Host.Outcome State Fault Refusal :=
  s.live (s.request fun s =>
    let w := writeEntries 12 judgeParam es first.toNat s
    (w.state.paramsFollow first.toNat w.applied, fun _ => w.answer tag.toNat))

/-! ## AISLE -/

/-- A structural field of an AISLE entry lies outside its range (R26). -/
def aisleMalformed (e : AisleEntry) : Bool :=
  decide (64 < e.levels) || decide (e.columns = 0) || decide (200 < e.columns) || decide (1 < e.leftMirrored) ||
    decide (1 < e.rightMirrored) || decide (63 < e.frontLevel) || decide (e.levels < e.frontLevel) ||
    decide (63 < e.infeedLevel) || decide (e.levels < e.infeedLevel) || decide (e.frontSize = 0) ||
    decide (3 < e.frontSize) || decide (e.infeedSize = 0) || decide (3 < e.infeedSize) ||
    decide (199 < e.parkColumn) || decide (e.columns ≤ e.parkColumn) || decide (63 < e.parkLevel) ||
    decide (e.levels < e.parkLevel) || decide (7 < e.lowerZone) || decide (7 < e.upperZone) ||
    decide (64 < e.split) || decide (1 < e.mode)

/-- The numeric fields of an AISLE entry, clamped: value and clamp of each (section 2.1). -/
def aisleNumeric (e : AisleEntry) : List (Nat × List Clamp) :=
  [clampTo 3 0 5000 e.frontOffset, clampTo 4 300 2000 e.columnPitch, clampTo 5 200 1000 e.levelPitch,
    clampTo 14 200 5000 e.travelVmax, clampTo 15 100 3000 e.travelAccel, clampTo 16 100 2000 e.hoistVmax,
    clampTo 17 100 2000 e.hoistAccel, clampTo 18 500 20000 e.handling, clampTo 23 1 255 e.patronWeight,
    clampTo 24 1 255 e.restoreWeight, clampTo 25 1 255 e.houseWeight]

/-- The record that an AISLE entry stores (R17, R25, R26). -/
def aisleRecord (e : AisleEntry) : Aisle :=
  if e.levels = 0 then Aisle.unconfigured
  else
    { levels := e.levels, columns := e.columns
      frontOffset := (clampTo 3 0 5000 e.frontOffset).1
      columnPitch := (clampTo 4 300 2000 e.columnPitch).1
      levelPitch := (clampTo 5 200 1000 e.levelPitch).1
      leftMirrored := decide (e.leftMirrored = 1), rightMirrored := decide (e.rightMirrored = 1)
      frontLevel := e.frontLevel, infeedLevel := e.infeedLevel, frontSize := e.frontSize, infeedSize := e.infeedSize
      parkColumn := e.parkColumn, parkLevel := e.parkLevel
      travelVmax := (clampTo 14 200 5000 e.travelVmax).1
      travelAccel := (clampTo 15 100 3000 e.travelAccel).1
      hoistVmax := (clampTo 16 100 2000 e.hoistVmax).1
      hoistAccel := (clampTo 17 100 2000 e.hoistAccel).1
      handling := (clampTo 18 500 20000 e.handling).1
      lowerZone := e.lowerZone, upperZone := e.upperZone, split := e.split
      mode := if e.mode = 1 then .weighted else .strict
      patronWeight := (clampTo 23 1 255 e.patronWeight).1
      restoreWeight := (clampTo 24 1 255 e.restoreWeight).1
      houseWeight := (clampTo 25 1 255 e.houseWeight).1 }

/-- The clamped fields of an AISLE entry, in field order (R18). -/
def aisleClamps (e : AisleEntry) : List Clamp := if e.levels = 0 then [] else (aisleNumeric e).flatMap (·.2)

/-- The geometry and zone-split fields of a record (section 2.1). -/
def Aisle.shape (r : Aisle) : List Nat :=
  [r.levels, r.columns, r.frontOffset, r.columnPitch, r.levelPitch, mirrorCode r.leftMirrored,
    mirrorCode r.rightMirrored, r.frontLevel, r.infeedLevel, r.frontSize, r.infeedSize, r.parkColumn, r.parkLevel,
    r.lowerZone, r.upperZone, r.split]

/-- An aisle has no work, its bins are home, and its crane is off line (R27, test 1). -/
def State.aisleResting (s : State) (a : Nat) : Bool :=
  (s.crane a).jobs.isEmpty &&
    (s.store.bins.all fun p => decide (p.2.home.aisle ≠ a) || decide (p.2.state = .stored) || decide (p.2.state = .blocked)) &&
    (decide ((s.crane a).state = .offline) || decide ((s.crane a).state = .faulted))

/-- A written record changes the front or infeed size of an aisle, one of whose lists holds a bin (R60). -/
def State.sizesHeld (s : State) (a : Nat) (r : Aisle) : Bool :=
  (decide (r.frontSize ≠ (s.aisle a).frontSize) || decide (r.infeedSize ≠ (s.aisle a).infeedSize)) &&
    !((s.crane a).front.isEmpty && (s.crane a).infeed.isEmpty)

/-- A claimed slot of an aisle lies outside a geometry (R27, test 3). -/
def Slot.outside (a : Nat) (r : Aisle) (t : Slot) : Bool := decide (t.aisle = a) && !(r.configured && r.hasSlot t.level t.column)

/-- Some claimed slot of an aisle would fall outside the written geometry (R27, test 3). -/
def State.slotLost (s : State) (a : Nat) (r : Aisle) : Bool :=
  s.store.bins.any fun p => p.2.home.outside a r || (match p.2.target with
    | some t => t.outside a r
    | none => false)

/-- The tests of R27 on a written record. A record that would change the sizes of lists that hold a bin is refused with
the first of them, as R60 requires (that it is refused so: log entry 64). -/
def State.aisleRefusal (s : State) (a : Nat) (r : Aisle) : Option Reason :=
  if r.levels ≠ 0 ∧ r.shape = (s.aisle a).shape then none
  else if !s.aisleResting a || s.sizesHeld a r then some .aisleBusy
  else if !(((s.aisle a).zones ++ r.zones).all s.zoneClear) then some .zoneShut
  else if s.slotLost a r then some .slotTaken
  else none

/-- An AISLE entry is applied: the credits are set, and a change of drive level is told (R27, R65, R170). -/
def State.applyAisle (s : State) (a : Nat) (r : Aisle) : State :=
  let t := (s.setAisle a r).refill a
  if t.driveLevel a = s.driveLevel a then t else t.oweDrives [a]

/-- One AISLE entry (R25 to R27). -/
def judgeAisle (a : Nat) (e : AisleEntry) (s : State) : Judged :=
  if e.levels ≠ 0 ∧ aisleMalformed e = true then .inr .valueRange
  else
    match s.aisleRefusal a (aisleRecord e) with
    | some r => .inr r
    | none => .inl (s.applyAisle a (aisleRecord e), aisleClamps e)

/-- AISLE WRITE (R27). -/
def execAisleWrite (tag first : BitVec 16) (es : List AisleEntry) (s : State) :
    Host.Outcome State Fault Refusal :=
  s.write tag 12 judgeAisle first.toNat es

/-! ## BIN -/

/-- A written bin state: STORED or BLOCKED (R39). -/
def writtenBinState (n : Nat) : Option BinState :=
  match n with
  | 0 => some .stored
  | 4 => some .blocked
  | _ => none

/-- The present state of a bin forbids a WRITE of a state over it: a STRANDED or ADRIFT bin is found at home only while
no carry in flight names it (R39). The table has no row for STORED over an ADRIFT bin that a carry names; that it is
refused with BIN_BUSY too is the model's reading (log entry 57). -/
def State.binRefusal (s : State) (b : Nat) (present written : BinState) : Bool :=
  match present with
  | .stored => false
  | .blocked => false
  | .adrift => decide (written ≠ .stored) || s.carryNames b
  | .stranded => decide (written ≠ .stored) || s.carryNames b
  | .reserved => true
  | .out => true
  | .moving => true

/-- A written bin is applied to a present record (R39). -/
def State.rewriteBin (s : State) (b : Nat) (present : BinState) (home : Slot) (st : BinState) : State :=
  let t := s.modBin b fun r => { r with home, state := st }
  if st = .stored ∧ present ≠ .stored then t.becomeStored b else t

/-- A bin is created. One that is created STORED is on no list from then on, and is not offered (R34, R37, R60). -/
def State.createBin (s : State) (b : Nat) (home : Slot) (st : BinState) : State :=
  let t := s.putBin b { home, state := st, target := none, staged := 0, pending := false, itemRefs := 0 }
  if st = .stored then forEach allAisles (fun a s => s.leaveLists a b) t else t

/-- A PRESENT entry of a BIN WRITE (R34, R39). -/
def judgeBinPresent (b : Nat) (home : Slot) (st : BinState) (s : State) : Judged :=
  match s.bin b with
  | none => if s.slotClaimed home then .inr .slotTaken else .inl (s.createBin b home st, [])
  | some r =>
    if s.binRefusal b r.state st then .inr .binBusy
    else if home ≠ r.home ∧ s.slotClaimed home = true then .inr .slotTaken
    else .inl (s.rewriteBin b r.state home st, [])

/-- An ABSENT entry of a BIN WRITE (R40). -/
def judgeBinAbsent (b : Nat) (s : State) : Judged :=
  match s.bin b with
  | none => .inl (s, [])
  | some r =>
    if r.state = .reserved ∨ r.state = .out ∨ r.state = .moving ∨ (r.state = .stranded ∧ s.carryNames b = true) then
      .inr .binBusy
    else if r.itemRefs ≠ 0 then .inr .binInUse
    else .inl (s.delBin b, [])

/-- One BIN entry (R39, R40). -/
def judgeBin (b : Nat) (e : BinEntry) (s : State) : Judged :=
  match e.presence with
  | 0 =>
    match s.slotOf e.aisle e.face e.level e.column, writtenBinState e.state with
    | some home, some st => judgeBinPresent b home st s
    | _, _ => .inr .valueRange
  | 1 => judgeBinAbsent b s
  | _ => .inr .valueRange

/-- BIN WRITE (R39, R40). -/
def execBinWrite (tag first : BitVec 16) (es : List BinEntry) (s : State) : Host.Outcome State Fault Refusal :=
  s.write tag Config.binCount judgeBin first.toNat es

/-! ## STATION and LIFT -/

/-- The station kind that a code names (R82). -/
def stationKindOf (n : Nat) : Option StationKind :=
  match n with
  | 0 => some .pick
  | 1 => some .reshelve
  | 2 => some .chute
  | _ => none

/-- One STATION entry (R82). -/
def judgeStation (st : Nat) (e : StationEntry) (s : State) : Judged :=
  match stationKindOf e.kind with
  | none => .inr .valueRange
  | some kind =>
    let w := s.station st
    if 7 < e.zone ∨ e.laneSize < 2 ∨ 8 < e.laneSize then .inr .valueRange
    else if (kind ≠ w.kind ∨ e.zone ≠ w.zone ∨ e.laneSize ≠ w.laneSize) ∧ s.stationIdle st = false then
      .inr .stationBusy
    else
      let slack := clampTo 4 0 120000 e.slack
      .inl ((s.modStation st fun w => { w with kind, zone := e.zone, laneSize := e.laneSize, slack := slack.1 }).oweRestore
        .pass, slack.2)

/-- STATION WRITE (R82). -/
def execStationWrite (tag first : BitVec 16) (es : List StationEntry) (s : State) :
    Host.Outcome State Fault Refusal :=
  s.write tag 24 judgeStation first.toNat es

/-- One LIFT entry (R107). Bit k of the written mask is 1 where station k is served (log entry 39). -/
def judgeLift (l : Nat) (e : LiftEntry) (s : State) : Judged :=
  let r := s.lift l
  if 7 < e.zone ∨ e.carriers < 1 ∨ 4 < e.carriers then .inr .valueRange
  else if e.zone ≠ r.zone ∧ ¬((r.word = .off ∨ r.word = .bar) ∧ r.carries = []) then .inr .wrongState
  else
    let carry := clampTo 4 5000 300000 e.carryLimit
    let answer := clampTo 5 1000 10000 e.answerLimit
    .inl ((s.modLift l fun r =>
      { r with zone := e.zone, mask := BitVec.ofNat 24 e.mask, carriers := e.carriers, carryLimit := carry.1,
               answerLimit := answer.1 }).oweScan, carry.2 ++ answer.2)

/-- LIFT WRITE (R107). -/
def execLiftWrite (tag first : BitVec 16) (es : List LiftEntry) (s : State) : Host.Outcome State Fault Refusal :=
  s.write tag 6 judgeLift first.toNat es

/-! ## ITEM and CLASS -/

/-- The loan that a PRESENT entry of an ITEM WRITE seeds, if its fields are in range (R135). -/
def seedOf (e : ItemEntry) : Option Item :=
  let loan : Loan := { lendDay := e.lendDay, dueDay := e.dueDay, renewals := e.renewals }
  if e.item = 0 ∨ Config.binCount ≤ e.bin ∨ 15 < e.category ∨ 15 < e.renewals ∨ e.dueDay < e.lendDay then none
  else
    match e.state with
    | 1 => some { bin := e.bin, category := e.category, state := .lent loan }
    | 2 => some { bin := e.bin, category := e.category, state := .inhouse loan }
    | _ => none

/-- A PRESENT entry of an ITEM WRITE (R135). -/
def judgeSeed (t : Nat) (e : Item) (s : State) : Judged :=
  if (s.bin e.bin).isNone then .inr .binUnknown
  else if (s.item t).isSome then .inr .itemBusy
  else if Config.itemCapacity ≤ s.loans.items.length then .inr .itemTableFull
  else .inl (s.createItem t e, [])

/-- An ABSENT entry of an ITEM WRITE (R136). -/
def judgeWriteOff (t : Nat) (s : State) : Judged :=
  match s.item t with
  | none => .inl (s, [])
  | some e =>
    match e.state with
    | .lent _ => .inl (s.removeItem t, [])
    | .inhouse _ => .inl (s.removeItem t, [])
    | .requested _ => .inr .itemBusy
    | .returned _ _ => .inr .itemBusy

/-- One ITEM entry (R135, R136). -/
def judgeItemEntry (_ : Nat) (e : ItemEntry) (s : State) : Judged :=
  match e.presence with
  | 0 =>
    match seedOf e with
    | some r => judgeSeed e.item r s
    | none => .inr .valueRange
  | 1 => judgeWriteOff e.item s
  | _ => .inr .valueRange

/-- ITEM WRITE (R16, R135, R136). -/
def execItemWrite (tag first : BitVec 16) (es : List ItemEntry) (s : State) : Host.Outcome State Fault Refusal :=
  if first.toNat ≠ 0 then s.writeRefused tag .indexRange else s.write tag 65536 judgeItemEntry 0 es

/-- The lending class that a code names (R127). -/
def lendClassOf (n : Nat) : Option LendClass :=
  match n with
  | 0 => some .loanable
  | 1 => some .inhouseOnly
  | 2 => some .notLendable
  | _ => none

/-- One CLASS entry (R127). -/
def judgeClass (c : Nat) (e : ClassEntry) (s : State) : Judged :=
  match lendClassOf e.cls with
  | none => .inr .valueRange
  | some cls =>
    let period := clampTo 2 0 365 e.period
    let limit := clampTo 3 0 15 e.renewLimit
    .inl (s.setLendClass c { cls, period := period.1, renewLimit := limit.1 }, period.2 ++ limit.2)

/-- CLASS WRITE (R127). -/
def execClassWrite (tag first : BitVec 16) (es : List ClassEntry) (s : State) :
    Host.Outcome State Fault Refusal :=
  s.write tag 16 judgeClass first.toNat es

/-! ## ZONE, LINE and PULL -/

/-- One ZONE entry: the five settings stand after the four line fields (R153). -/
def judgeZone (z : Nat) (e : ZoneEntry) (s : State) : Judged :=
  let debounce := clampTo 5 0 2000 e.debounce
  let park := clampTo 6 0 60000 e.parkAllowance
  let brake := clampTo 7 0 30000 e.brakeSettle
  let shutter := clampTo 8 5000 120000 e.shutterLimit
  let ready := clampTo 9 5000 300000 e.readyLimit
  .inl (s.modZone z fun r =>
    { r with debounce := debounce.1, parkAllowance := park.1, brakeSettle := brake.1, shutterLimit := shutter.1,
             readyLimit := ready.1 }, debounce.2 ++ park.2 ++ brake.2 ++ shutter.2 ++ ready.2)

/-- ZONE WRITE (R153). -/
def execZoneWrite (tag first : BitVec 16) (es : List ZoneEntry) (s : State) : Host.Outcome State Fault Refusal :=
  s.write tag 8 judgeZone first.toNat es

/-- The selection that a code names (R175). -/
def selectionOf (n : Nat) : Option Selection :=
  match n with
  | 0 => some .generalIn
  | 1 => some .generalOut
  | 2 => some .first
  | 3 => some .second
  | _ => none

/-- The polarity that a code names (R176). -/
def polarityOf (n : Nat) : Option Polarity :=
  match n with
  | 0 => some .activeHigh
  | 1 => some .activeLow
  | _ => none

/-- The output value that a code names (R176). -/
def levelOf (n : Nat) : Option Bool :=
  match n with
  | 0 => some true
  | 1 => some false
  | _ => none

/-- The unit that a fire function names is clear (R178). -/
def State.fireUnitClear (s : State) : LineFunction → Bool
  | .zoneAlarm z => s.zoneClear z
  | .shutterClose z => s.zoneClear z
  | .shutterClosed z => s.zoneClear z
  | .shutterOpen z => s.zoneClear z
  | .driveEnable a => s.aisleClear a
  | .generalIn => true
  | .generalOut => true
  | .callKey => true
  | .beacon => true

/-- A LINE entry may not be applied now (R178, step 2). -/
def State.lineBusy (s : State) (n : Nat) (sel : Selection) (pol : Polarity) : Bool :=
  let f := s.function n
  let g := lineFunction n sel
  (f.fire || g.fire) && (decide (f ≠ g) || decide (pol ≠ (s.line n).polarity)) &&
    !(decide (s.mode.mode = .quiet) && s.fireUnitClear f && s.fireUnitClear g)

/-- A LINE entry is applied (R178). -/
def State.applyLine (s : State) (n : Nat) (sel : Selection) (pol : Polarity) (out : Bool) : State :=
  let t := s.modLine n fun r => { r with selection := sel, polarity := pol, output := out }
  let t := if (s.function n).input then t else t.samplePin n
  t.lineChanged n (s.keyPressed n)

/-- One LINE entry (R178). -/
def judgeLine (n : Nat) (e : LineEntry) (s : State) : Judged :=
  match selectionOf e.selection, polarityOf e.polarity, levelOf e.output with
  | some sel, some pol, some out =>
    if s.lineBusy n sel pol then .inr .zoneBusy else .inl (s.applyLine n sel pol out, [])
  | _, _, _ => .inr .valueRange

/-- LINE WRITE (R178). Its entries may shut several zones, and the lifts of these are barred together (R111). -/
def execLineWrite (tag first : BitVec 16) (es : List LineEntry) (s : State) : Host.Outcome State Fault Refusal :=
  s.writeBarring tag 48 judgeLine first.toNat es

/-- The pull that a code names (R177). -/
def pullOf (n : Nat) : Option Pull :=
  match n with
  | 0 => some .none
  | 1 => some .up
  | 2 => some .down
  | _ => none

/-- The lines of a pull group (R177). -/
def groupLines (g : Nat) : List Nat := [4 * g, 4 * g + 1, 4 * g + 2, 4 * g + 3]

/-- The zone that a fire input line names (R177). -/
def LineFunction.fireInputZone : LineFunction → Option Nat
  | .zoneAlarm z => some z
  | .shutterClosed z => some z
  | .shutterOpen z => some z
  | _ => none

/-- A change of a group's pull may not be made now (R177). -/
def State.pullBusy (s : State) (g : Nat) : Bool :=
  let zones := (groupLines g).filterMap fun n => (s.function n).fireInputZone
  !zones.isEmpty && !(decide (s.mode.mode = .quiet) && zones.all s.zoneClear)

/-- Take an input line's value again after a change of its pull (R177). -/
def State.repull (n : Nat) (s : State) : State := if (s.function n).input then s.takeLine n else s

/-- One PULL entry (R177). The input lines of the group are taken again in ascending line number (log entry 55). -/
def judgePull (g : Nat) (v : Nat) (s : State) : Judged :=
  match pullOf v with
  | none => .inr .valueRange
  | some p =>
    if p = s.pull g then .inl (s, [])
    else if s.pullBusy g then .inr .zoneBusy
    else .inl (forEach (groupLines g) State.repull (s.setPull g p), [])

/-- PULL WRITE (R177). Its entries may shut several zones, and the lifts of these are barred together (R111). -/
def execPullWrite (tag first : BitVec 16) (es : List Nat) (s : State) : Host.Outcome State Fault Refusal :=
  s.writeBarring tag 12 judgePull first.toNat es

end Sys2Proof.Machine
end

