-- ==== Sys2Proof/Machine/Link.lean ====
section
/-! DEFINITION. The commands of the Link Switch: the arrival of a frame at a port and the beginning of a
transmission (chapter 1). An arrival runs through to the block that owns the telegram (R2). -/

namespace Sys2Proof.Machine

/-! ## The GUARD tests -/

/-- The zones that a destination touches (R11). -/
def State.zonesTouched (s : State) (dest : Nat) : List Nat :=
  match s.addr dest with
  | .none => []
  | .crane a => (s.aisle a).zones
  | .lift l => [(s.lift l).zone]
  | .station st => [(s.station st).zone]
  | .device z => [z]

/-- The GUARD test of a destination; a broadcast passes while every zone is CLEAR (R11, R13). -/
def State.guardPasses (s : State) (dest : Nat) : Bool :=
  if dest = Config.broadcast then allZones.all s.zoneClear else (s.zonesTouched dest).all s.zoneClear

/-- A guard drop: the counter rises and NOTICE GUARD_DROP is sent (R11, R12). -/
def State.guardDrop (s : State) (dest kind : Nat) : State := s.event fun s => (s.raise 6).notice (.guardDrop dest kind)

/-! ## Forwarding -/

/-- A telegram from the U port is forwarded to the D port (R11, R13). -/
def State.forwardDown (s : State) (t : Telegram) : State :=
  match s.treatDown t.kind with
  | .pass => State.handDown { telegram := t, cls := .forwarded false } s
  | .drop => s.raise 7
  | .guard =>
    if s.guardPasses t.dest then State.handDown { telegram := t, cls := .forwarded true } s
    else s.guardDrop t.dest t.kind

/-- A telegram from the D port is forwarded to the U port; its destination 0 touches no zone (R11). -/
def State.forwardUp (s : State) (t : Telegram) : State :=
  match s.treatUp t.kind with
  | .pass => State.handUp { telegram := t, cls := .forwarded false } s
  | .drop => s.raise 7
  | .guard => State.handUp { telegram := t, cls := .forwarded true } s

/-! ## Taking -/

/-- The owning block takes a command that a telegram carried (R2). No telegram carries one of the commands of
the last cases. -/
def runTaken (c : Instr) (s : State) : Host.Outcome State Fault Refusal :=
  match c with
  | .order tag number station patron items => execOrder tag number station patron items s
  | .cancel tag number => execCancel tag number s
  | .renew tag item => execRenew tag item s
  | .shift tag bin target => execShift tag bin target s
  | .addressWrite tag first es => execAddressWrite tag first es s
  | .trafficWrite tag first es => execTrafficWrite tag first es s
  | .countersWrite tag first es => execCountersWrite tag first es s
  | .paramsWrite tag first es => execParamsWrite tag first es s
  | .aisleWrite tag first es => execAisleWrite tag first es s
  | .binWrite tag first es => execBinWrite tag first es s
  | .stationWrite tag first es => execStationWrite tag first es s
  | .liftWrite tag first es => execLiftWrite tag first es s
  | .itemWrite tag first es => execItemWrite tag first es s
  | .classWrite tag first es => execClassWrite tag first es s
  | .zoneWrite tag first es => execZoneWrite tag first es s
  | .lineWrite tag first es => execLineWrite tag first es s
  | .pullWrite tag first es => execPullWrite tag first es s
  | .read tag table first count => execRead tag table first count s
  | .resetRead tag first count => execResetRead tag first count s
  | .quiet tag => execQuiet tag s
  | .wake tag => execWake tag s
  | .restart tag => execRestart tag s
  | .join tag lift => execJoin tag lift s
  | .leave tag lift => execLeave tag lift s
  | .zoneShut tag zone => execZoneShut tag zone s
  | .zoneRestore tag zone => execZoneRestore tag zone s
  | .sealNow tag zone => execSealNow tag zone s
  | .clearFault tag aisle => execClearFault tag aisle s
  | .flush tag aisle => execFlush tag aisle s
  | .day tag day => execDay tag day s
  | .done aisle job position load => execDone aisle job position load s
  | .fault aisle code job => execFault aisle code job s
  | .parked aisle position load => execParked aisle position load s
  | .status aisle ready position load => execStatus aisle ready position load s
  | .infeed aisle bin => execInfeed aisle bin s
  | .fitness lift fit => execFitness lift fit s
  | .carried lift carry => execCarried lift carry s
  | .itemOut station tag item => execItemOut station tag item s
  | .binDone station bin => execBinDone station bin s
  | .itemIn station tag item => execItemIn station tag item s
  | .intoBin station tag item => execIntoBin station tag item s
  | .frameArrival _ _ => .next s
  | .transmissionBegins _ => .next s
  | .moveDeadlineExpiry _ => .next s
  | .gatherTimerExpiry _ => .next s
  | .holdRepeatExpiry => .next s
  | .answerTimerExpiry _ => .next s
  | .carryDeadlineExpiry _ _ => .next s
  | .minuteTimerExpiry => .next s
  | .alarmDebounceExpiry _ => .next s
  | .parkDeadlineExpiry _ => .next s
  | .brakeSettleExpiry _ => .next s
  | .shutterCloseLimitExpiry _ => .next s
  | .shutterOpenLimitExpiry _ => .next s
  | .zoneReadyExpiry _ => .next s
  | .parkWaitExpiry => .next s
  | .wakeReadyExpiry => .next s
  | .lineInputChange _ _ => .next s
  | .callKeyDebounceExpiry _ => .next s
  | .powerOnReset => .next s
  | .pinReset => .next s
  | .resetLineRelease => .next s
  | .commandReset => .next s
  | .resetPeriodEnd => .next s
  | .lossOfSupply => .next s

/-- The ANSWER to a request of bad form. A WRITE's carries that no entry was applied (R23); what the ANSWER to another
kind of request carries after the reason is log entry 38: nothing. -/
def Telegram.badFormAnswer (t : Telegram) : Answer :=
  if t.kind = kindWrite then
    { tag := t.tag, kind := kindWrite, outcome := .refused, reason := some .badForm, fields := be 1 0 ++ be 1 (flagCode false) }
  else .refused t.tag t.kind .badForm

/-- A telegram is taken from the U port (R5, R16, R20). -/
def State.takeUp (s : State) (t : Telegram) : Host.Outcome State Fault Refusal :=
  match takenUp t with
  | .badForm => s.live (s.request fun s => (s.raise 2, fun _ => t.badFormAnswer))
  | .refused r => s.live (s.request fun s => (s, fun _ => .refused t.tag t.kind r))
  | .writeRefused r => s.writeRefused (word 16 t.tag) r
  | .request c => runTaken c s

/-- A stray report (R6). -/
def State.stray (s : State) : Host.Outcome State Fault Refusal := .next (s.raise 5)

/-- A report of a crane, its source having the role, or not (R6). -/
def State.takeCrane (s : State) (make : Fin 12 → Instr) : AddrEntry → Host.Outcome State Fault Refusal
  | .crane a => if h : a < 12 then runTaken (make ⟨a, h⟩) s else s.stray
  | _ => s.stray

/-- A report of a lift (R6). -/
def State.takeLift (s : State) (make : Fin 6 → Instr) : AddrEntry → Host.Outcome State Fault Refusal
  | .lift l => if h : l < 6 then runTaken (make ⟨l, h⟩) s else s.stray
  | _ => s.stray

/-- A report of a station (R6). -/
def State.takeStation (s : State) (make : Fin 24 → Instr) : AddrEntry → Host.Outcome State Fault Refusal
  | .station st => if h : st < 24 then runTaken (make ⟨st, h⟩) s else s.stray
  | _ => s.stray

/-- The role code of an address-table entry (R8). -/
def AddrEntry.role : AddrEntry → Nat
  | .none => 0
  | .crane _ => 1
  | .lift _ => 2
  | .station _ => 3
  | .device _ => 4

/-- A telegram is taken from the D port (R5, R6). -/
def State.takeDown (s : State) (t : Telegram) : Host.Outcome State Fault Refusal :=
  match takenDown t with
  | none => .next (s.raise 3)
  | some (.crane make) => s.takeCrane make (s.addr t.src)
  | some (.lift make) => s.takeLift make (s.addr t.src)
  | some (.station make) => s.takeStation make (s.addr t.src)
  | some (.ignored role) => if (s.addr t.src).role = role then .next s else s.stray

/-! ## FRAME_ARRIVAL -/

/-- A telegram that has arrived at the U port is routed (R4, R13). -/
def State.routeUp (s : State) (t : Telegram) : Host.Outcome State Fault Refusal :=
  if t.dest = 0 then .next (s.raise 4)
  else if t.dest = Config.ownAddress then s.takeUp t
  else if t.dest = Config.broadcast ∧ requestKind t.kind = true then (s.forwardDown t).takeUp t
  else .next (s.forwardDown t)

/-- A telegram that has arrived at the D port is routed (R4). -/
def State.routeDown (s : State) (t : Telegram) : Host.Outcome State Fault Refusal :=
  if t.dest = 0 then .next (s.forwardUp t)
  else if t.dest = Config.ownAddress then s.takeDown t
  else .next (s.raise 4)

/-- A frame arrives while the part runs (R2, R3). -/
def State.arrive (s : State) (p : Port) (frame : List Byte) : Host.Outcome State Fault Refusal :=
  match parseFrame frame, p with
  | none, .u => .next (s.raise 0)
  | none, .d => .next (s.raise 1)
  | some t, .u => s.routeUp t
  | some t, .d => s.routeDown t

/-- FRAME_ARRIVAL (R2 to R6, R11, R13). During a reset period and after RESTART a frame is lost and not counted
(R24, R191). -/
def execFrameArrival (p : Port) (frame : List Byte) (s : State) : Host.Outcome State Fault Refusal :=
  if s.resets.phase = .running then s.arrive p frame else .next s

/-! ## TRANSMISSION_BEGINS -/

/-- The second GUARD test of a telegram at the head of the D send queue (R12). -/
def State.headPasses (s : State) (q : Queued) : Bool :=
  match q.cls with
  | .forwarded true => s.guardPasses q.telegram.dest
  | .forwarded false => true
  | .move a => s.aisleClear a
  | .kept => true
  | .notice => true

/-- Transmission of a forwarded telegram raises a counter (R14). -/
def State.countForwarded (s : State) (q : Queued) (i : Nat) : State :=
  match q.cls with
  | .forwarded _ => s.raise i
  | .notice => s
  | .kept => s
  | .move _ => s

/-- The telegram at the head of the D send queue comes to be sent (R7, R12). -/
def State.transmitDown (s : State) : State :=
  match s.ports.dQueue with
  | [] => s
  | q :: rest =>
    if s.headPasses q then
      (s.modPorts fun p => { p with dQueue := rest, dLine := some q.telegram.frame }).countForwarded q 8
    else (s.modPorts fun p => { p with dQueue := rest }).guardDrop q.telegram.dest q.telegram.kind

/-- The telegram at the head of the U send queue comes to be sent (R7). -/
def State.transmitUp (s : State) : State :=
  match s.ports.uQueue with
  | [] => s
  | q :: rest => (s.modPorts fun p => { p with uQueue := rest, uLine := some q.telegram.frame }).countForwarded q 9

/-- TRANSMISSION_BEGINS (R7, R12, R14). After RESTART the U port goes on sending (R191). -/
def execTransmissionBegins (p : Port) (s : State) : Host.Outcome State Fault Refusal :=
  match p, s.resets.phase with
  | .u, .running => .next s.transmitUp
  | .u, .restarting => .next s.transmitUp
  | .d, .running => .next s.transmitDown
  | _, _ => .next s

end Sys2Proof.Machine
end

