-- ==== Sys2Proof/Machine/Timers.lean ====
section
/-! DEFINITION. The millisecond timebase (section 4.1 of the scope file): which timer is due, and the expiry
command that it gives. The order among timers due at one instant is log entry 5. -/

namespace Sys2Proof.Machine

/-- A timer's expiry has come. -/
def State.isDue (s : State) (t : Option Nat) : Bool :=
  match t with
  | some e => decide (e ≤ s.now)
  | none => false

/-- The expiry of a zone's own timer, by the zone's state (R154). -/
def zoneExpiry (z : Fin 8) : ZoneState → Option Instr
  | .stopping => some (.parkDeadlineExpiry z)
  | .settling => some (.brakeSettleExpiry z)
  | .closing => some (.shutterCloseLimitExpiry z)
  | .opening => some (.shutterOpenLimitExpiry z)
  | .enabling => some (.zoneReadyExpiry z)
  | .clear => none
  | .sealed => none

/-- The expiry of Mode Control's timer, by the mode (R187, R190). -/
def modeExpiry : Mode → Option Instr
  | .draining => some .parkWaitExpiry
  | .waking => some .wakeReadyExpiry
  | .run => none
  | .quiet => none

/-- The expiry of a crane's move deadline, if due (R70). -/
def State.dueMove (s : State) (a : Fin 12) : Option Instr :=
  match (s.crane a).flight with
  | some f => if s.isDue f.timer then some (.moveDeadlineExpiry a) else none
  | none => none

/-- The expiry of an order's gather timer, if due (R93). -/
def State.dueGather (s : State) (p : Nat × Order) : Option Instr :=
  if s.isDue p.2.gatherTimer then some (.gatherTimerExpiry (BitVec.ofNat 16 p.2.number)) else none

/-- The expiry of one of a lift's timers, if due (R109, R119). That the answer timer goes before the carry deadlines, and
these in order of assignment, where several are due at one instant, is the model's choice (log entry 5). -/
def State.dueLift (s : State) (l : Fin 6) : Option Instr :=
  if s.isDue (s.lift l).answerTimer then some (.answerTimerExpiry l)
  else
    ((s.lift l).carries.find? fun c => s.isDue c.timer).map fun c => .carryDeadlineExpiry l (BitVec.ofNat 16 c.tag)

/-- The expiry of one of a zone's timers, if due (R155, R154). That the debounce timer goes before the zone's own timer,
where both are due at one instant, is the model's choice (log entry 5). -/
def State.dueZone (s : State) (z : Fin 8) : Option Instr :=
  if s.isDue (s.zone z).debounceTimer then some (.alarmDebounceExpiry z)
  else if s.isDue (s.zone z).timer then zoneExpiry z (s.zone z).state
  else none

/-- The expiry of a line's call-key debounce timer, if due (R181). -/
def State.dueKey (s : State) (n : Fin 48) : Option Instr :=
  if s.isDue (s.line n).keyTimer then some (.callKeyDebounceExpiry n) else none

/-- The first expiry that is due, block by block in the order of the chapters, and by index in a block. -/
def State.dueExpiry (s : State) : Option Instr :=
  ((List.finRange 12).findSome? s.dueMove).orElse fun _ =>
  (s.desk.orders.findSome? s.dueGather).orElse fun _ =>
  (if s.isDue s.desk.holdTimer then some .holdRepeatExpiry else none).orElse fun _ =>
  ((List.finRange 6).findSome? s.dueLift).orElse fun _ =>
  (if s.isDue s.returns.minuteTimer then some .minuteTimerExpiry else none).orElse fun _ =>
  ((List.finRange 8).findSome? s.dueZone).orElse fun _ =>
  ((List.finRange 48).findSome? s.dueKey).orElse fun _ =>
  (if s.isDue s.mode.timer then modeExpiry s.mode.mode else none)

/-- What the timebase asks for now: an expiry while the part runs, the end of a reset period while one runs. -/
def State.dueCommand (s : State) : Option Instr :=
  match s.resets.phase with
  | .running => s.dueExpiry
  | .resetting => if s.isDue s.resets.ending then some .resetPeriodEnd else none
  | .restarting => none
  | .unpowered => none

/-- One millisecond passes. -/
def State.tick (s : State) : State := { s with now := s.now + 1 }

end Sys2Proof.Machine
end

