-- ==== Sys2Proof/Machine/Dispatch.lean ====
section
/-! DEFINITION. The meaning of each command, one arm per row of the opcode table. -/

namespace Sys2Proof.Machine

/-- The effect of a command on everything but the queue of waiting commands. -/
def exec (i : Instr) (s : State) : Host.Outcome State Fault Refusal :=
  match i with
  | .frameArrival port frame => Sys2Proof.Machine.execFrameArrival port frame s
  | .transmissionBegins port => Sys2Proof.Machine.execTransmissionBegins port s
  | .order tag number station patron items => Sys2Proof.Machine.execOrder tag number station patron items s
  | .cancel tag number => Sys2Proof.Machine.execCancel tag number s
  | .renew tag item => Sys2Proof.Machine.execRenew tag item s
  | .shift tag bin target => Sys2Proof.Machine.execShift tag bin target s
  | .addressWrite tag first entries => Sys2Proof.Machine.execAddressWrite tag first entries s
  | .trafficWrite tag first entries => Sys2Proof.Machine.execTrafficWrite tag first entries s
  | .countersWrite tag first entries => Sys2Proof.Machine.execCountersWrite tag first entries s
  | .paramsWrite tag first entries => Sys2Proof.Machine.execParamsWrite tag first entries s
  | .aisleWrite tag first entries => Sys2Proof.Machine.execAisleWrite tag first entries s
  | .binWrite tag first entries => Sys2Proof.Machine.execBinWrite tag first entries s
  | .stationWrite tag first entries => Sys2Proof.Machine.execStationWrite tag first entries s
  | .liftWrite tag first entries => Sys2Proof.Machine.execLiftWrite tag first entries s
  | .itemWrite tag first entries => Sys2Proof.Machine.execItemWrite tag first entries s
  | .classWrite tag first entries => Sys2Proof.Machine.execClassWrite tag first entries s
  | .zoneWrite tag first entries => Sys2Proof.Machine.execZoneWrite tag first entries s
  | .lineWrite tag first entries => Sys2Proof.Machine.execLineWrite tag first entries s
  | .pullWrite tag first entries => Sys2Proof.Machine.execPullWrite tag first entries s
  | .read tag table first count => Sys2Proof.Machine.execRead tag table first count s
  | .resetRead tag first count => Sys2Proof.Machine.execResetRead tag first count s
  | .quiet tag => Sys2Proof.Machine.execQuiet tag s
  | .wake tag => Sys2Proof.Machine.execWake tag s
  | .restart tag => Sys2Proof.Machine.execRestart tag s
  | .join tag lift => Sys2Proof.Machine.execJoin tag lift s
  | .leave tag lift => Sys2Proof.Machine.execLeave tag lift s
  | .zoneShut tag zone => Sys2Proof.Machine.execZoneShut tag zone s
  | .zoneRestore tag zone => Sys2Proof.Machine.execZoneRestore tag zone s
  | .sealNow tag zone => Sys2Proof.Machine.execSealNow tag zone s
  | .clearFault tag aisle => Sys2Proof.Machine.execClearFault tag aisle s
  | .flush tag aisle => Sys2Proof.Machine.execFlush tag aisle s
  | .day tag day => Sys2Proof.Machine.execDay tag day s
  | .done aisle job position load => Sys2Proof.Machine.execDone aisle job position load s
  | .fault aisle code job => Sys2Proof.Machine.execFault aisle code job s
  | .parked aisle position load => Sys2Proof.Machine.execParked aisle position load s
  | .status aisle ready position load => Sys2Proof.Machine.execStatus aisle ready position load s
  | .infeed aisle bin => Sys2Proof.Machine.execInfeed aisle bin s
  | .fitness lift fit => Sys2Proof.Machine.execFitness lift fit s
  | .carried lift carry => Sys2Proof.Machine.execCarried lift carry s
  | .itemOut station tag item => Sys2Proof.Machine.execItemOut station tag item s
  | .binDone station bin => Sys2Proof.Machine.execBinDone station bin s
  | .itemIn station tag item => Sys2Proof.Machine.execItemIn station tag item s
  | .intoBin station tag item => Sys2Proof.Machine.execIntoBin station tag item s
  | .moveDeadlineExpiry aisle => Sys2Proof.Machine.execMoveDeadlineExpiry aisle s
  | .gatherTimerExpiry number => Sys2Proof.Machine.execGatherTimerExpiry number s
  | .holdRepeatExpiry => Sys2Proof.Machine.execHoldRepeatExpiry s
  | .answerTimerExpiry lift => Sys2Proof.Machine.execAnswerTimerExpiry lift s
  | .carryDeadlineExpiry lift carry => Sys2Proof.Machine.execCarryDeadlineExpiry lift carry s
  | .minuteTimerExpiry => Sys2Proof.Machine.execMinuteTimerExpiry s
  | .alarmDebounceExpiry zone => Sys2Proof.Machine.execAlarmDebounceExpiry zone s
  | .parkDeadlineExpiry zone => Sys2Proof.Machine.execParkDeadlineExpiry zone s
  | .brakeSettleExpiry zone => Sys2Proof.Machine.execBrakeSettleExpiry zone s
  | .shutterCloseLimitExpiry zone => Sys2Proof.Machine.execShutterCloseLimitExpiry zone s
  | .shutterOpenLimitExpiry zone => Sys2Proof.Machine.execShutterOpenLimitExpiry zone s
  | .zoneReadyExpiry zone => Sys2Proof.Machine.execZoneReadyExpiry zone s
  | .parkWaitExpiry => Sys2Proof.Machine.execParkWaitExpiry s
  | .wakeReadyExpiry => Sys2Proof.Machine.execWakeReadyExpiry s
  | .lineInputChange line wiring => Sys2Proof.Machine.execLineInputChange line wiring s
  | .callKeyDebounceExpiry line => Sys2Proof.Machine.execCallKeyDebounceExpiry line s
  | .powerOnReset => Sys2Proof.Machine.execPowerOnReset s
  | .pinReset => Sys2Proof.Machine.execPinReset s
  | .resetLineRelease => Sys2Proof.Machine.execResetLineRelease s
  | .commandReset => Sys2Proof.Machine.execCommandReset s
  | .resetPeriodEnd => Sys2Proof.Machine.execResetPeriodEnd s
  | .lossOfSupply => Sys2Proof.Machine.execLossOfSupply s

end Sys2Proof.Machine
end

