-- ==== Sys2Proof/Machine/Step.lean ====
section
/-! DEFINITION. The step: the command at the front of the queue is taken; on an empty queue the millisecond
timebase takes a timer that is due, or advances (log entry 1). -/

namespace Sys2Proof.Machine

/-- Take the command at the front of the queue, with the queue's rest left waiting. -/
def step (s : State) : Host.Outcome State Fault Refusal :=
  match s.pending with
  | c :: rest => exec c { s with pending := rest }
  | [] =>
    match s.dueCommand with
    | some c => exec c s
    | none => .next s.tick

/-- The state with the command that a word spells put at the front of the queue; no word spells one (log
entry 2). -/
def State.withFetchWord (s : State) (nbits w : Nat) : State :=
  match decodeTableWord nbits w with
  | some c => { s with pending := c :: s.pending }
  | none => s

end Sys2Proof.Machine
end

