-- ==== Sys2Proof/Safety.lean ====
section
/-! DEFINITION. The vocabulary of the claims: when the part runs, the bounds and forms that every step keeps,
which commands need a running part, and what the tests at the end of an event leave alone. -/

namespace Sys2Proof.Machine

/-! ## Running -/

/-- The part takes events (R24, R191, R192). -/
abbrev State.running (s : State) : Prop := s.resets.phase = .running

/-- The commands that have no effect unless the part runs: all but the beginning of a transmission (the ANSWER to
RESTART is still sent, R191), a change of a wire, and the course of resets itself (R192). -/
def needsRunning : Instr → Bool
  | .transmissionBegins _ | .lineInputChange _ _ | .powerOnReset | .pinReset | .resetLineRelease | .commandReset
  | .resetPeriodEnd | .lossOfSupply => false
  | _ => true

/-! ## What every step keeps -/

/-- Each send queue holds at most 64 telegrams (R7). -/
def State.queuesBounded (s : State) : Prop :=
  s.ports.uQueue.length ≤ Config.queueCapacity ∧ s.ports.dQueue.length ≤ Config.queueCapacity

/-- The kept output levels are those that the zone states, the mode and the aisles give while the part runs and
until a command reset begins; in a reset period no drive is enabled, and without supply no level is asserted
(R170, R171, R180, R183). -/
def State.outputsFollow (s : State) : Prop :=
  match s.resets.phase with
  | .running => s.outputs = s.outputLevels
  | .restarting => s.outputs = s.outputLevels
  | .resetting => s.outputs.drives = []
  | .unpowered => s.outputs = { drives := [], shutters := [], beacon := false }

/-- Every table is in its canonical form: indices rising, and no listed default where every index has a value. -/
structure State.Tidy (s : State) : Prop where
  addresses : s.link.addresses.canonical .none
  trafficDown : s.link.trafficDown.canonical .guard
  trafficUp : s.link.trafficUp.canonical .pass
  counters : s.link.counters.canonical 0
  aisles : s.store.aisles.canonical Aisle.unconfigured
  bins : s.store.bins.wf
  cranes : s.dispatch.cranes.canonical Crane.idle
  stations : s.desk.stations.canonical Station.powerOn
  orders : s.desk.orders.wf
  lifts : s.pool.lifts.canonical Lift.powerOn
  items : s.loans.items.wf
  classes : s.loans.classes.canonical ClassRecord.powerOn
  zones : s.zones.canonical Zone.powerOn
  lines : s.lines.lines.canonical Line.powerOn
  pulls : s.lines.pulls.canonical Pull.none

/-- The law of the rotation: the lifts in rotation carry the sequence numbers from 0 up, each number once, and exactly
the one with the highest is TAIL; the pointer names one of them, or is 0 while the rotation is empty; and an answer
timer runs only for a lift that has been asked (R108, R109). -/
structure State.rotationLaw (s : State) : Prop where
  numbered : ∀ q, q < s.rotationSize → ∃ l, l < 6 ∧ (s.lift l).word.seq = some q ∧
    ∀ k, k < 6 → (s.lift k).word.seq = some q → k = l
  below : ∀ l q, l < 6 → (s.lift l).word.seq = some q → q < s.rotationSize
  tail : ∀ l q, l < 6 → ((s.lift l).word = .tail q ↔ (s.lift l).word.seq = some q ∧ q + 1 = s.rotationSize)
  pointer : s.pool.pointer < s.rotationSize ∨ (s.rotationSize = 0 ∧ s.pool.pointer = 0)
  asked : ∀ l, l < 6 → (s.lift l).answerTimer.isSome = true → (s.lift l).word = .ask

/-- The law of the slots: no slot is claimed by two bins, be it as home slot or as target slot (R32). -/
def State.slotsApart (s : State) : Prop :=
  ∀ b c r q, s.bin b = some r → s.bin c = some q → b ≠ c →
    ∀ x, x = r.home ∨ r.target = some x → x ≠ q.home ∧ q.target ≠ some x

/-- The law of the item entries and of the staging list: every entry names a present bin, whose item-reference count
is the number of the entries that name it (R38, R124); the list holds the RETURNED entries, each once, with their home
bins and scan days, and a bin's staged count is the number of its entries in the list, which hold to their bounds
(R139). -/
structure State.itemLaw (s : State) : Prop where
  homed : ∀ t e, s.item t = some e → ∃ r, s.bin e.bin = some r
  counted : ∀ b r, s.bin b = some r → r.itemRefs = s.loans.items.countP fun p => decide (p.2.bin = b)
  staged : ∀ b r, s.bin b = some r → r.staged = s.returns.staging.countP fun x => decide (x.bin = b)
  listed : ∀ x ∈ s.returns.staging, ∃ e l, s.item x.item = some e ∧ e.bin = x.bin ∧ e.state = .returned l x.scanDay
  once : ∀ t e, s.item t = some e → e.state.word = .returned →
    (s.returns.staging.countP fun x => decide (x.item = t)) = 1
  bounded : s.returns.staging.length ≤ 4096 ∧ ∀ b r, s.bin b = some r → r.staged ≤ 64

/-- The law of an aisle's front and infeed lists (R60): the bins on its front list with its FETCH job in flight do not
exceed its front size, nor those on its infeed list with the carries in flight toward it its infeed size. -/
def State.listsFit (s : State) (a : Nat) : Prop :=
  (s.crane a).front.length + (if ∃ f, (s.crane a).flight = some f ∧ f.job.kind = .fetch then 1 else 0) ≤
    (s.aisle a).frontSize ∧
  (s.crane a).infeed.length + s.carries.countP (fun c => decide (c.leg = .down ∧ c.aisle = a)) ≤ (s.aisle a).infeedSize

/-- The records of the job pool that are held or in use (R55). -/
def State.recordsTaken (s : State) : Nat :=
  (s.desk.orders.map fun p => (p.2.members.map (·.held)).sum).sum + s.jobs.length

/-- The bins in a station's lane with its reservations do not exceed its lane size (R83). -/
def State.laneFits (s : State) (st : Nat) : Prop :=
  (s.station st).lane.length + (s.station st).reservations ≤ (s.station st).laneSize

/-! ## What the tests at the end of an event leave alone -/

/-- What a crane record holds that no test at the end of an event changes. -/
structure CraneStanding where
  place : Option Place
  faultCode : Option Nat
  unmatched : Nat
  rejected : Nat
  refusedRecoveries : Nat

/-- What a station record holds that no test at the end of an event changes. -/
structure StationStanding where
  kind : StationKind
  zone : Nat
  laneSize : Nat
  slack : Nat
  unmatched : Nat

/-- What a lift record holds that no test at the end of an event changes. -/
structure LiftStanding where
  zone : Nat
  mask : BitVec 24
  carriers : Nat
  carryLimit : Nat
  answerLimit : Nat
  word : Word
  answerTimer : Option Nat
  unmatched : Nat

/-- What a zone record holds that no test at the end of an event changes. -/
structure ZoneStanding where
  debounce : Nat
  parkAllowance : Nat
  brakeSettle : Nat
  shutterLimit : Nat
  readyLimit : Nat
  alarm : Bool
  debounceTimer : Option Nat

/-- What a bin record holds that no test at the end of an event changes. -/
structure BinStanding where
  home : Slot
  target : Option Slot
  staged : Nat

/-- What no test at the end of an event changes: the link's tables, the settings, the aisles, the lending classes
and the day, the entries that are no requests, the staging list, the lines, and what the records above hold. -/
structure Standing where
  link : Link
  ports : Ports
  params : Params
  aisles : Tab Aisle
  bin : Nat → Option BinStanding
  crane : Nat → CraneStanding
  station : Nat → StationStanding
  lift : Nat → LiftStanding
  items : Tab Item
  classes : Tab ClassRecord
  today : Nat
  returns : ReturnUnit
  zone : Nat → ZoneStanding
  lines : LineBlock
  outputs : Outputs
  resets : ResetControl
  now : Nat
  floats : Nat
  pending : List Instr

/-- What a bin record holds that no test at the end of an event changes. -/
def Bin.standing (r : Bin) : BinStanding := { home := r.home, target := r.target, staged := r.staged }

/-- What a crane record holds that no test at the end of an event changes. -/
def Crane.standing (c : Crane) : CraneStanding :=
  { place := c.place, faultCode := c.faultCode, unmatched := c.unmatched, rejected := c.rejected,
    refusedRecoveries := c.refusedRecoveries }

/-- What a station record holds that no test at the end of an event changes. -/
def Station.standing (w : Station) : StationStanding :=
  { kind := w.kind, zone := w.zone, laneSize := w.laneSize, slack := w.slack, unmatched := w.unmatched }

/-- What a lift record holds that no test at the end of an event changes. -/
def Lift.standing (r : Lift) : LiftStanding :=
  { zone := r.zone, mask := r.mask, carriers := r.carriers, carryLimit := r.carryLimit, answerLimit := r.answerLimit,
    word := r.word, answerTimer := r.answerTimer, unmatched := r.unmatched }

/-- What a zone record holds that no test at the end of an event changes. -/
def Zone.standing (r : Zone) : ZoneStanding :=
  { debounce := r.debounce, parkAllowance := r.parkAllowance, brakeSettle := r.brakeSettle,
    shutterLimit := r.shutterLimit, readyLimit := r.readyLimit, alarm := r.alarm, debounceTimer := r.debounceTimer }

/-- What the tests at the end of an event leave alone. -/
def State.standing (s : State) : Standing :=
  { link := s.link, ports := s.ports, params := s.params, aisles := s.store.aisles
    bin := fun b => (s.bin b).map Bin.standing
    crane := fun a => (s.crane a).standing
    station := fun st => (s.station st).standing
    lift := fun l => (s.lift l).standing
    items := retainedItems s.loans.items
    classes := s.loans.classes, today := s.loans.today, returns := s.returns
    zone := fun z => (s.zone z).standing
    lines := s.lines, outputs := s.outputs, resets := s.resets, now := s.now, floats := s.floats
    pending := s.pending }

/-! ## How events end -/

/-- An event that began at `s`, and whose own effects came to `u`, ends: the tests at its end follow, and it closes
without an ANSWER. -/
def State.eventEnds (s u : State) : State := s.closeEvent u.settle none

/-- An event that began at `s`, and whose own effects came to `u`, ends: the tests at its end follow, and it closes
with the ANSWER to its request (R21). -/
def State.requestEnds (s u : State) (a : Answer) : State := s.closeEvent u.settle (some a)

/-- A request that changes nothing but the send queue of its ANSWER: refused, or answered from the state. -/
def State.onlyAnswers (s : State) (a : Answer) : State := s.closeEvent s.beginEvent (some a)

/-- The telegrams of what an event sends up besides its ANSWER, the NOTICEs numbered from `seq` on (R21, R22). -/
def telegramsUp : (seq : Nat) → List UpMsg → List Queued
  | _, [] => []
  | seq, .notice n :: ms => noticeTelegram seq n.body :: telegramsUp (tagUp seq) ms
  | seq, .holdoff ms :: rest =>
    { telegram := { dest := 0, src := 126, kind := 18, tag := 0, body := be 2 ms }, cls := .kept } ::
      telegramsUp seq rest

/-- The notice sequence after these sends. -/
def sequenceAfter : (seq : Nat) → List UpMsg → Nat
  | seq, [] => seq
  | seq, .notice _ :: ms => sequenceAfter (tagUp seq) ms
  | seq, .holdoff _ :: ms => sequenceAfter seq ms

/-- Fields as an entry carries them: the width of each in bytes, and its value. -/
abbrev Fields := List (Nat × Nat)

/-- The bytes that carry these fields, each high byte first (R23). -/
def Fields.bytes (fs : Fields) : List Byte := fs.flatMap fun f => be f.1 f.2

/-- Every field's value can be carried in its width. -/
def Fields.fit (fs : Fields) : Prop := ∀ f ∈ fs, f.2 < 256 ^ f.1

/-- The telegrams of a kind with this tag and body, taken from the U port, give `x`, whatever their addresses (R5). -/
def GivesUp (kind tag : Nat) (body : List Byte) (x : TakenUp) : Prop :=
  ∀ m : Telegram, m.kind = kind → m.tag = tag → m.body = body → takenUp m = x

/-- The WRITE telegrams of a table give the command made of their entries: each entry carries its examined fields after
`before` bytes and ahead of `after` bytes, the bytes of state that a WRITE does not examine (R15, R16, R34). -/
def EntriesGive {α : Type} (tag first : BitVec 16) (table before after : Nat) (carried : α → Fields)
    (make : List α → Instr) : Prop :=
  ∀ es : List (List Byte × α × List Byte), es ≠ [] →
    (∀ e ∈ es, e.1.length = before ∧ (carried e.2.1).fit ∧ e.2.2.length = after) →
    GivesUp 5 tag.toNat
      (Fields.bytes [(1, table), (2, first.toNat)] ++ es.flatMap fun e => e.1 ++ (carried e.2.1).bytes ++ e.2.2)
      (.request (make (es.map fun e => e.2.1)))

/-- A part that may be absent: PRESENT 0 and its fields, or ABSENT 1 and `n` bytes of 0 (R15). -/
def ifPresent (n : Nat) : Option Fields → Fields
  | some fs => (1, 0) :: fs
  | none => (1, 1) :: List.replicate n (1, 0)

/-- A list within an entry: its count and its items, with zeros in place of the items wanting to the most that it can
hold, each of `n` bytes (log entry 7). -/
def listOf (most n : Nat) (items : List Fields) : Fields :=
  (1, items.length) :: (items.flatten ++ List.replicate ((most - items.length) * n) (1, 0))

/-- One of the part's own telegrams to a field unit, sent only if the unit has an address (R8, R22). -/
def toUnit (address : Option Nat) (kind : Nat) (body : List Byte) (cls : QueueClass) : List Queued :=
  match address with
  | some a => [{ telegram := { dest := a, src := 126, kind, tag := 0, body }, cls }]
  | none => []

/-- One link counter has risen by one, unless it stood at 4,294,967,295, and nothing else has changed (R14). -/
def Counted (s t : State) (i : Nat) : Prop :=
  t = { s with link := { s.link with counters := t.link.counters } } ∧ (∀ j, j ≠ i → t.counter j = s.counter j) ∧
    t.counter i = if s.counter i < 4294967295 then s.counter i + 1 else s.counter i

/-- The ANSWER to a WRITE of one entry, for index `i`, that was applied with these clamped fields (R18, R23). -/
def oneApplied (tag : BitVec 16) (i : Nat) (clamps : List Clamp) : Answer :=
  { tag := tag.toNat, kind := 5, outcome := if clamps = [] then .done else .clamped, reason := none
    fields := [1#8, 1#8] ++ clamps.flatMap fun c => be 2 i ++ be 1 c.1 ++ be 4 c.2 }

/-- The ANSWER to a WRITE whose first entry is refused (R18, R23). -/
def noneApplied (tag : BitVec 16) (r : Reason) : Answer :=
  { tag := tag.toNat, kind := 5, outcome := .refused, reason := some r, fields := [0#8, 1#8] }

/-- Those of a list of item tags whose entries are REQUESTED for an order, each once, in list order (R126). -/
def State.requestedOf (s : State) (num : Nat) (tags : List Nat) : List Nat :=
  (firstOnly [] tags).filter fun t =>
    match s.item t with
    | some e => decide (e.state = .requested num)
    | none => false

/-- How many of a list of item tags have their home in a bin. -/
def State.homedIn (s : State) (b : Nat) (tags : List Nat) : Nat :=
  tags.countP fun t =>
    match s.item t with
    | some e => decide (e.bin = b)
    | none => false

/-- A command has no effect: its event changes nothing and sends nothing. -/
def HasNoEffect (c : Instr) (s : State) : Prop := exec c s = .next (s.closeEvent s.beginEvent none)

/-- A command's event gives one crane's record the value `x`, leaves every other record and everything else alone, its
workspace holding `w`, and goes on from there with `f` to its end. -/
def CraneBecomes (s : State) (a : Nat) (c : Instr) (x : Crane) (w : Work) (f : State → State) : Prop :=
  ∃ u : State,
    (∀ k, u.crane k = if k = a then x else s.crane k) ∧
    u = { s with dispatch := { s.dispatch with cranes := u.dispatch.cranes }, work := w } ∧
    exec c s = .next (s.eventEnds (f u))

/-- From `s`, one zone's record has become `r`, and NOTICE ZONE_STATE has been sent for it; where a drive level of some
aisles has changed by it, the tests of the zones that they touch and Mode Control's are owed. Every other record and
everything else is as it was (R157, R166, R190). -/
def ZoneGoes (s u : State) (z : Nat) (r : Zone) : Prop :=
  let moved := (List.range 12).filter fun a => decide (u.driveLevel a ≠ s.driveLevel a)
  (∀ k, u.zone k = if k = z then r else s.zone k) ∧
  u = { s with
    zones := u.zones
    work := { s.work with
      up := s.work.up ++ [.notice (.zoneState z r.state r.cause r.fault)]
      zoneTests := s.work.zoneTests ++ moved.flatMap fun a => (s.aisle a).zones
      modeTest := s.work.modeTest || decide (moved ≠ []) } }

/-- A command is the WRITE of these entries, taken as one event: the entries are judged in list order from the first
index on, and the event ends with the ANSWER to the WRITE (R16, R18). -/
def TakenAsWrite {α : Type} (s : State) (c : Instr) (tag first : BitVec 16) (size : Nat)
    (apply : Nat → α → State → Judged) (es : List α) : Prop :=
  let w := writeEntries size apply es first.toNat s.beginEvent
  exec c s = .next (s.requestEnds w.state (w.answer tag.toNat))

end Sys2Proof.Machine
end

