-- ==== Sys2Proof/Certificates/Slice0/Obligations.lean ====
section
/-! DEFINITION. The statements for the provers, family by family. A statement about an event's own effects names the
state `u` that they came to, and says that the event ends from there by the tests at its end and its hand-overs. -/

open Sys2Proof Sys2Proof.Machine

/-! ## The step and the queue of commands -/

/-- One step takes the command at the front of the queue and runs it with the queue's rest left waiting. -/
def Obligations.StepTakesFrontCommand : Prop :=
  ∀ (c : Instr) (rest : List Instr) (s : State), s.pending = c :: rest → step s = exec c { s with pending := rest }

/-- On an empty queue the step takes the command of a timer that is due, and otherwise lets one millisecond pass (the
model's choice, log entry 1). A timer is due once its instant has come. While the part runs, the due command is the
expiry of the first due timer, and there is none where no timer is due; that the timers of one instant go in this
order is the model's choice (log entry 5): the move deadlines of the cranes, the gather timers of the orders, the
hold-off repeat timer, of each lift the answer timer and then its carry deadlines, the minute timer, of each zone the
debounce timer and then the timer of its state (R154), the call-key timers, the timer of the mode (R187, R190). In a
reset period it is the period's end, once that has come; after RESTART and without supply there is none. -/
def Obligations.StepOnEmptyQueueTicks : Prop :=
  (∀ s : State, s.pending = [] →
    (s.dueCommand = none → step s = .next { s with now := s.now + 1 }) ∧
      ∀ c : Instr, s.dueCommand = some c → step s = exec c s) ∧
  ∀ s : State,
    let moves : List (Option Nat × Instr) :=
      (List.finRange 12).map fun (a : Fin 12) => ((s.crane a).flight.bind (·.timer), .moveDeadlineExpiry a)
    let gathers : List (Option Nat × Instr) :=
      s.desk.orders.map fun p => (p.2.gatherTimer, .gatherTimerExpiry (BitVec.ofNat 16 p.2.number))
    let lifts : List (Option Nat × Instr) := (List.finRange 6).flatMap fun (l : Fin 6) =>
      ((s.lift l).answerTimer, .answerTimerExpiry l) ::
        (s.lift l).carries.map fun c => (c.timer, .carryDeadlineExpiry l (BitVec.ofNat 16 c.tag))
    let own (z : Fin 8) : Option Instr := match (s.zone z).state with
      | .stopping => some (.parkDeadlineExpiry z)
      | .settling => some (.brakeSettleExpiry z)
      | .closing => some (.shutterCloseLimitExpiry z)
      | .opening => some (.shutterOpenLimitExpiry z)
      | .enabling => some (.zoneReadyExpiry z)
      | .clear => none
      | .sealed => none
    let zones : List (Option Nat × Instr) := (List.finRange 8).flatMap fun (z : Fin 8) =>
      ((s.zone z).debounceTimer, .alarmDebounceExpiry z) :: (own z).toList.map fun c => ((s.zone z).timer, c)
    let keys : List (Option Nat × Instr) :=
      (List.finRange 48).map fun (n : Fin 48) => ((s.line n).keyTimer, .callKeyDebounceExpiry n)
    let modes : List (Option Nat × Instr) := match s.mode.mode with
      | .draining => [(s.mode.timer, .parkWaitExpiry)]
      | .waking => [(s.mode.timer, .wakeReadyExpiry)]
      | .run => []
      | .quiet => []
    let timers := moves ++ gathers ++ [(s.desk.holdTimer, .holdRepeatExpiry)] ++ lifts ++
      [(s.returns.minuteTimer, .minuteTimerExpiry)] ++ zones ++ keys ++ modes
    let due (t : Option Nat) : Prop := ∃ e, t = some e ∧ e ≤ s.now
    (s.running → (∀ p ∈ timers, ¬ due p.1) → s.dueCommand = none) ∧
    (s.running → ∀ l p r, timers = l ++ p :: r → due p.1 → (∀ q ∈ l, ¬ due q.1) → s.dueCommand = some p.2) ∧
    (s.resets.phase = .resetting →
      (due s.resets.ending → s.dueCommand = some .resetPeriodEnd) ∧ (¬ due s.resets.ending → s.dueCommand = none)) ∧
    (s.resets.phase = .restarting ∨ s.resets.phase = .unpowered → s.dueCommand = none)

/-- Every command answers a next state in every state, since the part has no event that stops it, and leaves the queue
of the commands that wait as it is. -/
def Obligations.EveryCommandAnswersNext : Prop :=
  ∀ (c : Instr) (s : State), ∃ t : State, exec c s = .next t ∧ t.pending = s.pending

/-- Outside running (after RESTART, in a reset period, without supply) the commands that need a running part have no
effect at all (R24, R191, R192). -/
def Obligations.NothingTakenOutsideRunning : Prop :=
  ∀ (c : Instr) (s : State), ¬ s.running → needsRunning c = true → exec c s = .next s

/-! ## What every step keeps -/

/-- Every step keeps both send queues within 64 telegrams (R7). -/
def Obligations.QueuesStayBounded : Prop :=
  ∀ s t : State, s.queuesBounded → step s = .next t → t.queuesBounded

/-- Every step keeps the kept output levels equal to those that the zone states, the mode and the aisles give while
the part runs, and no drive enabled in a reset period (R170, R171, R180, R183). -/
def Obligations.OutputsFollowEveryStep : Prop :=
  ∀ s t : State, s.Tidy → s.outputsFollow → step s = .next t → t.outputsFollow

/-- Every step keeps every table in its canonical form. It also keeps the slots apart: where no slot is claimed by two
bins, as home slot or as target slot, none is after it (R32). -/
def Obligations.TablesStayCanonical : Prop :=
  ∀ s t : State, s.Tidy → step s = .next t → t.Tidy ∧ (s.slotsApart → t.slotsApart)

/-- Every step keeps the law of the rotation: the lifts in rotation carry the numbers from 0 up, each once, exactly
the highest is TAIL, and the pointer names one of them or is 0 while there is none (R108). -/
def Obligations.RotationKeepsItsLaw : Prop :=
  ∀ s t : State, s.Tidy → s.rotationLaw → step s = .next t → t.rotationLaw

/-- After reset both send queues are within their bound, the kept output levels follow the zones, the mode and the
aisles, every table is in its canonical form, the rotation keeps its law, no slot is claimed twice, the item entries
and the staging list keep theirs, and no list, lane or job pool is over its bound. It holds the power-on value that
each chapter gives its records and settings: every address without a role, down traffic GUARD and up traffic PASS,
every counter 0, every aisle unconfigured, every table of records empty, every crane OFFLINE, every lift OFF, every
zone CLEAR, every line GENERAL_IN, every setting at its power-on value. Two clauses are the model's: that each wire
presents LOW is its choice (log entry 3), and that the state is the one after the event that ends the reset period,
with the three NOTICEs of that event in the U queue, is its reading (log entry 6). -/
def Obligations.InvariantsHoldAtReset : Prop :=
  State.reset.queuesBounded ∧ State.reset.outputsFollow ∧ State.reset.Tidy ∧ State.reset.rotationLaw ∧
  State.reset.slotsApart ∧ State.reset.itemLaw ∧ (∀ a, State.reset.listsFit a) ∧ (∀ st, State.reset.laneFits st) ∧
  State.reset.recordsTaken = 0 ∧
  let s := State.reset
  (∀ i, s.addr i = .none ∧ s.treatDown i = .guard ∧ s.treatUp i = .pass ∧ s.counter i = 0 ∧ s.pull i = .none) ∧
  (s.params = { watermark := 192, holdTime := 10000, holdRepeat := 5000, moveMargin := 25, moveAllowance := 5000
                termEnd := 0, restoreThreshold := 8, restoreAge := 240, stagingWake := 0, orderWake := 0
                wakeReadyLimit := 60000, callKeyInhibit := false }) ∧
  (∀ a, (s.aisle a).levels = 0 ∧ s.bin a = none) ∧
  (∀ a, s.crane a = { state := .offline, place := none, flight := none, faultCode := none, patronQueue := []
                      restoreQueue := [], houseQueue := [], patronCredit := 0, restoreCredit := 0, houseCredit := 0
                      front := [], infeed := [], unmatched := 0, rejected := 0, refusedRecoveries := 0 }) ∧
  (∀ st, s.station st = { kind := .chute, zone := 0, laneSize := 2, slack := 0, orderQueue := [], lane := []
                          reservations := 0, owner := none, presQueue := [], unmatched := 0 }) ∧
  (∀ l, s.lift l = { zone := 0, mask := 0, carriers := 1, carryLimit := 60000, answerLimit := 5000, word := .off
                     answerTimer := none, carries := [], unmatched := 0 }) ∧
  (∀ c, s.lendClass c = { cls := .loanable, period := 28, renewLimit := 2 }) ∧
  (∀ z, s.zone z = { debounce := 500, parkAllowance := 10000, brakeSettle := 2000, shutterLimit := 30000
                     readyLimit := 60000, state := .clear, cause := none, fault := false, timer := none
                     alarm := false, debounceTimer := none, awaited := [] }) ∧
  (∀ n, s.line n = { selection := .generalIn, polarity := .activeHigh, output := false, wiring := .low, pin := false
                     keyTimer := none }) ∧
  s.dispatch.jobTag = 0 ∧ s.desk.orders = [] ∧ s.desk.restoreNumber = 32768 ∧ s.desk.holding = false ∧
  s.pool.pointer = 0 ∧ s.pool.carryTag = 0 ∧ s.pool.waitList = [] ∧ s.loans.items = [] ∧ s.loans.today = 0 ∧
  s.returns = { staging := [], minuteTimer := some 60000 } ∧ s.mode.mode = .run ∧ s.running ∧
  s.resets.record = { power := true, pin := false, command := false, count := 0 } ∧ s.ports.dQueue = [] ∧
  s.ports.uQueue = telegramsUp 0 [.notice (.resetDone s.resets.record), .notice (.modeState .waking .reset),
    .notice (.modeState .run .ready)] ∧ s.ports.noticeSeq = 3

/-- In every event, the drive-enable level that the part keeps for an aisle is asserted exactly while the aisle is
configured, every zone it touches is CLEAR, STOPPING or ENABLING, and the mode is RUN, DRAINING or WAKING; and every
reset period releases it (R170). Likewise the shutter-close level kept for a zone is asserted exactly while the zone
is CLOSING or SEALED, and the beacon level while some zone is not CLEAR. The level that the present zones, mode and
aisle give is stated as well, and an aisle is configured exactly while its levels are at least 1 (R25). -/
def Obligations.DriveEnableFollowsZonesAndMode : Prop :=
  (∀ r : Aisle, r.configured = true ↔ 1 ≤ r.levels) ∧
  (∀ (s : State) (a : Nat), s.driveLevel a = true ↔
    (s.aisle a).configured = true ∧
      (∀ z ∈ (s.aisle a).zones,
        (s.zone z).state = .clear ∨ (s.zone z).state = .stopping ∨ (s.zone z).state = .enabling) ∧
      (s.mode.mode = .run ∨ s.mode.mode = .draining ∨ s.mode.mode = .waking)) ∧
  ∀ (c : Instr) (s t : State), s.Tidy → s.outputsFollow → exec c s = .next t →
    (t.running → ∀ a, a < 12 →
      (a ∈ t.outputs.drives ↔
        (t.aisle a).configured = true ∧
          (∀ z ∈ (t.aisle a).zones,
            (t.zone z).state = .clear ∨ (t.zone z).state = .stopping ∨ (t.zone z).state = .enabling) ∧
          (t.mode.mode = .run ∨ t.mode.mode = .draining ∨ t.mode.mode = .waking))) ∧
      (t.running → ∀ z, z < 8 →
        (z ∈ t.outputs.shutters ↔ (t.zone z).state = .closing ∨ (t.zone z).state = .sealed)) ∧
      (t.running → (t.outputs.beacon = true ↔ ∃ z, z < 8 ∧ (t.zone z).state ≠ .clear)) ∧
      (t.resets.phase = .resetting → t.outputs.drives = [])

/-! ## The send queues and the ends of events -/

/-- A telegram handed to a queue of less than 64 is appended. To a full queue, a discardable one is discarded; a kept
one takes the place of the most recently queued discardable telegram, and is itself discarded if there is none. Each
discard raises the port's send-overflow counter by one (R7). Discardable are NOTICEs and forwarded telegrams, and no
others. -/
def Obligations.HandOverToSendQueue : Prop :=
  (∀ k : QueueClass, k.discardable = true ↔ k = .notice ∨ ∃ guarded, k = .forwarded guarded) ∧
  (∀ (q : List Queued) (x : Queued), q.length < 64 → enqueue q x = (q ++ [x], false)) ∧
  (∀ (q : List Queued) (x : Queued), 64 ≤ q.length → x.cls.discardable = true → enqueue q x = (q, true)) ∧
  (∀ (l r : List Queued) (d x : Queued), 64 ≤ (l ++ d :: r).length → x.cls.discardable = false →
    d.cls.discardable = true → (∀ y ∈ r, y.cls.discardable = false) →
    enqueue (l ++ d :: r) x = (l ++ r ++ [x], true)) ∧
  (∀ (q : List Queued) (x : Queued), 64 ≤ q.length → x.cls.discardable = false →
    (∀ y ∈ q, y.cls.discardable = false) → enqueue q x = (q, true)) ∧
  (∀ (s : State) (x : Queued), s.link.counters.wf →
    let p := { s.ports with uQueue := (enqueue s.ports.uQueue x).1 }
    if (enqueue s.ports.uQueue x).2 then Counted { s with ports := p } (State.handUp x s) 10
    else State.handUp x s = { s with ports := p }) ∧
  (∀ (s : State) (x : Queued), s.link.counters.wf →
    let p := { s.ports with dQueue := (enqueue s.ports.dQueue x).1 }
    if (enqueue s.ports.dQueue x).2 then Counted { s with ports := p } (State.handDown x s) 11
    else State.handDown x s = { s with ports := p })

/-- An event hands over its ANSWER first, if it answers a request, then its NOTICEs and HOLDOFFs in the order in which
it sends them, each NOTICE with the next sequence number, and its telegrams to the field in order: this is what the
send queues then hold, wherever they have room for all of it (R21, R22). Everything else is as the event's effects
left it, the ports' lines, the timebase and the waiting commands as they were before it, the part running, its
workspace empty, and the kept output levels recomputed where a zone, the mode or an aisle has changed. The fields of a
DONE and of a refused ANSWER, the codes of outcomes and reasons, what NOTICE and HOLDOFF append to the sends, and the
body of every NOTICE, field by field, are stated as well (R20, R23, R80): that a value of a set is coded by its place
in its list is log entry 9, that an absent part is filled with zeros log entry 7, and the model's choices are the base
of a member's position (log entry 40) and the codes of the causes of SHIFT_ENDED and CRANE_FAULT (log entries 48 and
58). -/
def Obligations.EventHandsOverItsSends : Prop :=
  (∀ (s u : State) (a : Option Answer),
    let first := match a with
      | some x => [x.queued]
      | none => []
    s.ports.uQueue.length + first.length + u.work.up.length ≤ 64 →
    (s.closeEvent u a).ports.uQueue = s.ports.uQueue ++ first ++ telegramsUp s.ports.noticeSeq u.work.up ∧
      (s.closeEvent u a).ports.noticeSeq = sequenceAfter s.ports.noticeSeq u.work.up ∧
      (s.closeEvent u a).counter 10 = u.counter 10) ∧
  (∀ a : Answer, a.queued =
    { telegram :=
        { dest := 0, src := 126, kind := 16, tag := a.tag
          body := be 1 a.kind ++ be 1 a.outcome.code ++ be 1 (reasonCode a.reason) ++ a.fields }
      cls := .kept }) ∧
  (∀ (tag kind : Nat) (fields : List Byte) (r : Reason),
    Answer.done tag kind fields = { tag, kind, outcome := .done, reason := none, fields } ∧
    Answer.refused tag kind r fields = { tag, kind, outcome := .refused, reason := some r, fields }) ∧
  ([Verdict.done, .refused, .clamped, .partially].map Verdict.code = [0, 1, 2, 3] ∧ reasonCode none = 0 ∧
    [Reason.badForm, .unknownTable, .indexRange, .valueRange, .slotTaken, .binUnknown, .binBusy, .binInUse, .itemBusy,
      .itemUnknown, .duplicate, .itemTableFull, .orderTableFull, .orderUnknown, .orderExists, .tooLarge, .stationUnfit,
      .zoneShut, .zoneBusy, .alarmActive, .aisleBusy, .stationBusy, .queueFull, .wrongState, .notLendable,
      .notRequested, .notStaged, .stagingFull, .renewLimit, .noExtension].map (fun r => reasonCode (some r)) =
      List.range' 1 30) ∧
  (∀ (s : State) (n : Notice) (ms : Nat),
    s.notice n = { s with work := { s.work with up := s.work.up ++ [.notice n] } } ∧
    s.holdoff ms = { s with work := { s.work with up := s.work.up ++ [.holdoff ms] } }) ∧
  (∀ n : Notice,
    let flag (b : Bool) : Nat × Nat := (1, if b then 0 else 1)
    let slot (t : Slot) : Fields := [(1, t.aisle), (1, t.face.code), (1, t.level), (1, t.column)]
    let fields : Fields := match n with
      | .guardDrop d k => [(1, 10), (1, d), (1, k)]
      | .moveLate a t k b => [(1, 40), (1, a), (2, t), (1, k.code), (2, b)]
      | .moveLateDone a t k b => [(1, 41), (1, a), (2, t), (1, k.code), (2, b)]
      | .craneFault a c code job =>
        [(1, 42), (1, a), (1, match c with
          | .reported => 0
          | .parkLate => 1
          | .readyLate => 2)] ++
          ifPresent 1 (code.map fun x => [(1, x)]) ++ ifPresent 4 (job.map fun j => [(2, j.1), (2, j.2)])
      | .shiftDone b h => [(1, 43), (2, b)] ++ slot h
      | .shiftEnded b st c => [(1, 44), (2, b), (1, st.code), (1, match c with
          | .fault => 0
          | .clearFault => 1
          | .parked => 2
          | .flush => 3)]
      | .recoveryQueued a b origin => [(1, 45), (1, a), (2, b)] ++ (match origin with
          | .slot f l c => [(1, 0), (1, f.code), (1, l), (1, c)]
          | .front => [(1, 1), (3, 0)]
          | .infeed => [(1, 2), (3, 0)]
          | .park => [(1, 3), (3, 0)]
          | .crane => [(1, 4), (3, 0)])
      | .unexpectedLoad a b => [(1, 46), (1, a), (2, b)]
      | .gatherPartial o inLane expected => [(1, 50), (2, o), (1, inLane), (1, expected)]
      | .orderEnd o k st p taken notTaken stranded failed cancelled =>
        [(1, 51), (2, o), (1, k.code), (1, st), (4, p), (1, taken), (1, notTaken), (1, stranded), (1, failed),
          (1, cancelled)]
      | .memberLost o pos b st => [(1, 52), (2, o), (1, pos), (2, b), (1, st.code)]
      | .joinFailed l c => [(1, 60), (1, l), (1, match c with
          | .unfit => 0
          | .noAnswer => 1)]
      | .liftBarred l c k => [(1, 61), (1, l), (1, match c with
          | .unfit => 0
          | .zone => 1
          | .carryLate => 2), (1, k)]
      | .carryLate l t b => [(1, 62), (1, l), (2, t), (2, b)]
      | .carryLateDone l t b => [(1, 63), (1, l), (2, t), (2, b)]
      | .carryGivenUp l t b => [(1, 64), (1, l), (2, t), (2, b)]
      | .lent o p i st due => [(1, 70), (2, o), (4, p), (6, i), (1, st.code), (2, due)]
      | .notTaken o p i c => [(1, 71), (2, o), (4, p), (6, i), (1, match c with
          | .binDone => 0
          | .cancel => 1
          | .orderEnd => 2)]
      | .returned st i b before due scan => [(1, 80), (1, st), (6, i), (2, b), (1, before.code), (2, due), (2, scan)]
      | .exception st i r => [(1, 81), (1, st), (6, i), (1, reasonCode (some r))]
      | .restored o i b => [(1, 82), (2, o), (6, i), (2, b)]
      | .zoneState z st c fault =>
        [(1, 90), (1, z), (1, st.code)] ++ ifPresent 1 (c.map fun x => [(1, x.code)]) ++ [flag fault]
      | .shutterFault z d => [(1, 91), (1, z), (1, match d with
          | .close => 0
          | .opening => 1)]
      | .callKey line => [(1, 100), (1, line)]
      | .modeState m c => [(1, 110), (1, m.code), (1, match c with
          | .command => 0
          | .staging => 1
          | .orders => 2
          | .drained => 3
          | .ready => 4
          | .readyLate => 5
          | .reset => 6)]
      | .resetDone r => [(1, 111), flag r.power, flag r.pin, flag r.command, (1, r.count)]
    n.body = fields.bytes) ∧
  (∀ (seq : Nat) (body : List Byte), noticeTelegram seq body =
    { telegram := { dest := 0, src := 126, kind := 17, tag := seq, body }, cls := .notice }) ∧
  (∀ (s u : State) (a : Option Answer), s.ports.dQueue.length + u.work.down.length ≤ 64 →
    (s.closeEvent u a).ports.dQueue = s.ports.dQueue ++ u.work.down ∧
      (s.closeEvent u a).counter 11 = u.counter 11) ∧
  (∀ (s u : State) (a : Answer), s.ports.uQueue.length < 64 → a.queued ∈ (s.closeEvent u (some a)).ports.uQueue) ∧
  (∀ (s u : State) (a : Option Answer),
    let t := s.closeEvent u a
    (∀ i, i < 10 → t.counter i = u.counter i) ∧
      t = { u with
        link := { u.link with counters := t.link.counters }
        ports := { s.ports with
          uQueue := t.ports.uQueue, dQueue := t.ports.dQueue, noticeSeq := t.ports.noticeSeq }
        outputs :=
          if u.zones = s.zones ∧ u.mode.mode = s.mode.mode ∧ u.store.aisles = s.store.aisles ∧ s.running then s.outputs
          else u.outputLevels
        resets := { u.resets with phase := .running }
        now := s.now, work := Work.empty, pending := s.pending })

/-! ## Frames -/

/-- A telegram is framed and read back: the frame of every telegram whose fields fit carries that telegram, and the
only frame that carries a telegram is its own (section 1.1.1, R3). A field of w bytes is carried most significant byte
first; a frame is the telegram's destination, source, kind, body length, tag and body, followed by the check, which
feeds these bytes bit by bit, each byte's highest bit first, into a register of 16 bits that begins all ones, with the
polynomial 1021H (R3). -/
def Obligations.FramesCarryTelegramsBack : Prop :=
  (∀ w n : Nat, (be w n).length = w ∧
    ∀ k, k < w → (be w n)[k]? = some (BitVec.ofNat 8 (n / 256 ^ (w - 1 - k)))) ∧
  (∀ t : Telegram,
    let checked := [BitVec.ofNat 8 t.dest, BitVec.ofNat 8 t.src, BitVec.ofNat 8 t.kind, BitVec.ofNat 8 t.body.length] ++
      be 2 t.tag ++ t.body
    let feed (register : BitVec 16) (bit : Bool) : BitVec 16 :=
      if register.msb = bit then register <<< 1 else (register <<< 1) ^^^ 0x1021#16
    let bits := checked.flatMap fun b => (List.range 8).map fun i => b.getMsbD i
    t.frame = checked ++ be 2 (bits.foldl feed 0xFFFF#16).toNat) ∧
  (∀ t : Telegram, t.dest < 128 → t.src < 128 → t.kind < 64 → t.tag < 65536 → t.body.length ≤ 240 →
    parseFrame t.frame = some t) ∧
  ∀ (f : List Byte) (t : Telegram), parseFrame f = some t → t.frame = f

/-- FRAME_ARRIVAL of what is not forwarded and not taken: a frame that fails R3 counts as a check error of its port, a
misrouted telegram as misrouted, a field report of bad form as D bad form, and one whose source has not the fitting
role as stray (R3, R4, R5, R6). One counter rises, and nothing else changes. A STATUS or FITNESS that carries neither
of its two words counts as stray where its source is no crane or no lift (the two words' reading: log entry 8). -/
def Obligations.ArrivalDiscardedAndCounted : Prop :=
  ∀ s : State, s.running → s.link.counters.wf →
    (∀ f, parseFrame f = none → ∃ t, exec (.frameArrival .u f) s = .next t ∧ Counted s t 0) ∧
    (∀ f, parseFrame f = none → ∃ t, exec (.frameArrival .d f) s = .next t ∧ Counted s t 1) ∧
    (∀ f m, parseFrame f = some m → m.dest = 0 → ∃ t, exec (.frameArrival .u f) s = .next t ∧ Counted s t 4) ∧
    (∀ f m, parseFrame f = some m → m.dest ≠ 0 → m.dest ≠ 126 →
      ∃ t, exec (.frameArrival .d f) s = .next t ∧ Counted s t 4) ∧
    (∀ f m, parseFrame f = some m → m.dest = 126 → takenDown m = none →
      ∃ t, exec (.frameArrival .d f) s = .next t ∧ Counted s t 3) ∧
    (∀ f m make, parseFrame f = some m → m.dest = 126 → takenDown m = some (.crane make) →
      (∀ a, s.addr m.src ≠ .crane a) → ∃ t, exec (.frameArrival .d f) s = .next t ∧ Counted s t 5) ∧
    (∀ f m make, parseFrame f = some m → m.dest = 126 → takenDown m = some (.lift make) →
      (∀ l, s.addr m.src ≠ .lift l) → ∃ t, exec (.frameArrival .d f) s = .next t ∧ Counted s t 5) ∧
    (∀ f m make, parseFrame f = some m → m.dest = 126 → takenDown m = some (.station make) →
      (∀ st, s.addr m.src ≠ .station st) → ∃ t, exec (.frameArrival .d f) s = .next t ∧ Counted s t 5) ∧
    (∀ f m role, parseFrame f = some m → m.dest = 126 → takenDown m = some (.ignored role) →
      (∀ a, ¬ (role = 1 ∧ s.addr m.src = .crane a)) → (∀ l, ¬ (role = 2 ∧ s.addr m.src = .lift l)) →
      ∃ t, exec (.frameArrival .d f) s = .next t ∧ Counted s t 5)

/-- FRAME_ARRIVAL of a telegram that is forwarded: PASS hands it to the other port's queue, DROP discards it and
counts a rule drop, and GUARD hands it over while every zone that its destination touches is CLEAR (for a broadcast,
every zone of the part), and otherwise counts a guard drop and sends NOTICE GUARD_DROP; a broadcast that is taken as
well is forwarded just so (R4, R10, R11, R13). The zones that a destination touches are those of the unit that its
entry of the address table names: of a crane every zone that owns a level, the front or the infeed of its aisle, of a
lift and a station the zone of its record, of a device the zone of the entry, and none for an address without a role
(R11, R25, R31). The zones of an aisle are the owners of its levels, of its front level and of its infeed level, a
level below the split belonging to the lower zone and any other to the upper. -/
def Obligations.ArrivalForwarded : Prop :=
  (∀ (r : Aisle) (z : Nat),
    let owner (l : Nat) : Nat := if l < r.split then r.lowerZone else r.upperZone
    r.frontZone = owner r.frontLevel ∧ r.infeedZone = owner r.infeedLevel ∧
    (z ∈ r.zones ↔ 1 ≤ r.levels ∧ ∃ l, (1 ≤ l ∧ l ≤ r.levels ∨ l = r.frontLevel ∨ l = r.infeedLevel) ∧ z = owner l)) ∧
  (∀ (s : State) (f : List Byte) (m : Telegram), s.running → s.link.counters.wf → parseFrame f = some m →
    (m.dest = 0 → s.treatUp m.kind = .pass →
      exec (.frameArrival .d f) s = .next (State.handUp { telegram := m, cls := .forwarded false } s)) ∧
    (m.dest = 0 → s.treatUp m.kind = .guard →
      exec (.frameArrival .d f) s = .next (State.handUp { telegram := m, cls := .forwarded true } s)) ∧
    (m.dest = 0 → s.treatUp m.kind = .drop → ∃ t, exec (.frameArrival .d f) s = .next t ∧ Counted s t 7) ∧
    ((1 ≤ m.dest ∧ m.dest ≤ 125 ∨ m.dest = 127 ∧ ¬ (1 ≤ m.kind ∧ m.kind ≤ 7)) →
      (s.treatDown m.kind = .pass →
        exec (.frameArrival .u f) s = .next (State.handDown { telegram := m, cls := .forwarded false } s)) ∧
      (s.treatDown m.kind = .drop → ∃ t, exec (.frameArrival .u f) s = .next t ∧ Counted s t 7) ∧
      (s.treatDown m.kind = .guard →
        (if m.dest = 127 then ∀ z, z < 8 → (s.zone z).state = .clear
          else ∀ z ∈ s.zonesTouched m.dest, (s.zone z).state = .clear) →
        exec (.frameArrival .u f) s = .next (State.handDown { telegram := m, cls := .forwarded true } s)) ∧
      (s.treatDown m.kind = .guard →
        ¬ (if m.dest = 127 then ∀ z, z < 8 → (s.zone z).state = .clear
          else ∀ z ∈ s.zonesTouched m.dest, (s.zone z).state = .clear) →
        ∃ u, exec (.frameArrival .u f) s = .next (s.closeEvent u none) ∧ u.work.up = [.notice (.guardDrop m.dest m.kind)] ∧
          u.work.down = [] ∧ Counted { s with work := u.work } u 6))) ∧
  (∀ (s : State) (m : Telegram), s.running → s.link.counters.wf → m.dest = 127 →
    let clear := ∀ z, z < 8 → (s.zone z).state = .clear
    (s.treatDown m.kind = .pass →
      s.forwardDown m = State.handDown { telegram := m, cls := .forwarded false } s) ∧
    (s.treatDown m.kind = .drop → Counted s (s.forwardDown m) 7) ∧
    (s.treatDown m.kind = .guard → clear →
      s.forwardDown m = State.handDown { telegram := m, cls := .forwarded true } s) ∧
    (s.treatDown m.kind = .guard → ¬ clear →
      ∃ u, s.forwardDown m = s.closeEvent u none ∧ u.work.up = [.notice (.guardDrop 127 m.kind)] ∧
        u.work.down = [] ∧ Counted { s with work := u.work } u 6)) ∧
  ∀ (s : State) (d z : Nat), z ∈ s.zonesTouched d ↔
    match s.addr d with
    | .none => False
    | .crane a =>
      let r := s.aisle a
      1 ≤ r.levels ∧ ∃ l, (1 ≤ l ∧ l ≤ r.levels ∨ l = r.frontLevel ∨ l = r.infeedLevel) ∧
        z = if l < r.split then r.lowerZone else r.upperZone
    | .lift l => z = (s.lift l).zone
    | .station st => z = (s.station st).zone
    | .device e => z = e

/-- FRAME_ARRIVAL of a telegram that the part takes runs the command that the telegram carries, as if the command
itself had come: a request from the U port, a broadcast one after it has been forwarded too (the forwarding first, log
entry 11), and a report whose source holds the fitting role. A request that gives no command is answered with its
reason, one of bad form counting as such: the ANSWER to a WRITE of bad form carries that no entry was applied, that to
any other kind nothing after the reason (the model's choice, log entry 38) (R2, R5, R6, R13, R16, R20, R23). A body
gives its command field by field, in the order of its rule, each field in its width (R1, R23), a WRITE entry by entry,
its bytes of state not examined (R15, R16; the layouts and lengths of entries: log entry 7); a body of another length
has bad form, and a WRITE of a table that is not named, or is read only, is refused with UNKNOWN_TABLE, after the test
of the fixed body (the model's choice, log entry 61). A STATUS or FITNESS that carries neither of its two words is not
acted on (the model's choice, log entry 8). -/
def Obligations.ArrivalRunsItsCommand : Prop :=
  (∀ tag first : BitVec 16,
    let gives (kind : Nat) (fs : Fields) (c : Instr) : Prop := GivesUp kind tag.toNat fs.bytes (.request c)
    (∀ (n : BitVec 16) (st : BitVec 8) (p : BitVec 32) (items : List OrderItem), 1 ≤ items.length → items.length ≤ 8 →
      gives 1 ([(2, n.toNat), (1, st.toNat), (4, p.toNat)] ++
        items.flatMap fun x => [(6, x.item.toNat), (2, x.bin.toNat), (1, x.category.toNat)]) (.order tag n st p items)) ∧
    (∀ n : BitVec 16, gives 2 [(2, n.toNat)] (.cancel tag n)) ∧
    (∀ t : BitVec 48, gives 3 [(6, t.toNat)] (.renew tag t)) ∧
    (∀ (b : BitVec 16) (t : RawSlot),
      gives 4 [(2, b.toNat), (1, t.aisle.toNat), (1, t.face.toNat), (1, t.level.toNat), (1, t.column.toNat)]
        (.shift tag b t)) ∧
    (∀ t count : BitVec 8, gives 6 [(1, t.toNat), (2, first.toNat), (1, count.toNat)]
      (if t = 18 then .resetRead tag first count else .read tag t first count)) ∧
    EntriesGive tag first 1 0 0
      (fun e : AddressEntry => [(1, e.role), (1, e.unitPresence), (1, e.unit), (1, e.zonePresence), (1, e.zone)])
      (.addressWrite tag first) ∧
    EntriesGive tag first 2 0 0 (fun v => [(1, v)]) (.trafficWrite tag first) ∧
    EntriesGive tag first 3 0 0 (fun v => [(4, v)]) (.countersWrite tag first) ∧
    EntriesGive tag first 4 0 0 (fun v => [(4, v)]) (.paramsWrite tag first) ∧
    EntriesGive tag first 5 0 0
      (fun e : AisleEntry => [(1, e.levels), (1, e.columns), (2, e.frontOffset), (2, e.columnPitch), (2, e.levelPitch),
        (1, e.leftMirrored), (1, e.rightMirrored), (1, e.frontLevel), (1, e.infeedLevel), (1, e.frontSize),
        (1, e.infeedSize), (1, e.parkColumn), (1, e.parkLevel), (2, e.travelVmax), (2, e.travelAccel), (2, e.hoistVmax),
        (2, e.hoistAccel), (2, e.handling), (1, e.lowerZone), (1, e.upperZone), (1, e.split), (1, e.mode),
        (1, e.patronWeight), (1, e.restoreWeight), (1, e.houseWeight)]) (.aisleWrite tag first) ∧
    EntriesGive tag first 6 0 10
      (fun e : BinEntry => [(1, e.presence), (1, e.aisle), (1, e.face), (1, e.level), (1, e.column), (1, e.state)])
      (.binWrite tag first) ∧
    EntriesGive tag first 8 0 40
      (fun e : StationEntry => [(1, e.kind), (1, e.zone), (1, e.laneSize), (3, e.slack)]) (.stationWrite tag first) ∧
    EntriesGive tag first 10 0 37
      (fun e : LiftEntry => [(1, e.zone), (3, e.mask), (1, e.carriers), (3, e.carryLimit), (2, e.answerLimit)])
      (.liftWrite tag first) ∧
    EntriesGive tag first 11 0 0
      (fun e : ItemEntry => [(1, e.presence), (6, e.item), (2, e.bin), (1, e.category), (1, e.state), (2, e.order),
        (2, e.lendDay), (2, e.dueDay), (1, e.renewals), (2, e.scanDay)]) (.itemWrite tag first) ∧
    EntriesGive tag first 12 0 0 (fun e : ClassEntry => [(1, e.cls), (2, e.period), (1, e.renewLimit)])
      (.classWrite tag first) ∧
    EntriesGive tag first 14 8 10
      (fun e : ZoneEntry => [(2, e.debounce), (2, e.parkAllowance), (2, e.brakeSettle), (3, e.shutterLimit),
        (3, e.readyLimit)]) (.zoneWrite tag first) ∧
    EntriesGive tag first 15 0 5 (fun e : LineEntry => [(1, e.selection), (1, e.polarity), (1, e.output)])
      (.lineWrite tag first) ∧
    EntriesGive tag first 16 0 0 (fun v => [(1, v)]) (.pullWrite tag first)) ∧
  (∀ m : Telegram,
    let bad : Prop := takenUp m = .badForm
    let n := m.body.length
    (m.kind = 0 ∨ 7 < m.kind → bad) ∧
    (m.kind = 1 → (∀ k, 1 ≤ k → k ≤ 8 → n ≠ 7 + 9 * k) → bad) ∧
    (∀ k w, (k, w) ∈ [(2, 2), (3, 6), (4, 6), (6, 4), (7, 3)] → m.kind = k → n ≠ w → bad) ∧
    (m.kind = 5 → n < 3 → bad) ∧
    ∀ table : Byte, m.kind = 5 → 3 ≤ n → m.body.head? = some table →
      (table.toNat = 0 ∨ 18 < table.toNat → takenUp m = .writeRefused .unknownTable) ∧
      ∀ w, [5, 1, 4, 4, 33, 16, 50, 46, 55, 47, 20, 4, 12, 30, 8, 1, 12, 4][table.toNat - 1]? = some w →
        1 ≤ table.toNat →
        ((∀ k, 1 ≤ k → n ≠ 3 + w * k) → bad) ∧
        (table.toNat ∈ [7, 9, 13, 17, 18] → ∀ k, 1 ≤ k → n = 3 + w * k → takenUp m = .writeRefused .unknownTable)) ∧
  (∀ m : Telegram,
    let gives (kind : Nat) (fs : Fields) (r : Report) : Prop :=
      m.kind = kind → m.body = fs.bytes → takenDown m = some r
    let tag := BitVec.ofNat 16 m.tag
    let point (p : RawPoint) : Fields := [(1, p.kind.toNat), (1, p.face.toNat), (1, p.level.toNat), (1, p.column.toNat)]
    (∀ (job load : BitVec 16) (p : RawPoint),
      gives 40 ([(2, job.toNat)] ++ point p ++ [(2, load.toNat)]) (.crane fun a => .done a job p load)) ∧
    (∀ (code present : BitVec 8) (job : BitVec 16),
      gives 41 [(1, code.toNat), (1, present.toNat), (2, job.toNat)]
        (.crane fun a => .fault a code (if present = 0 then some job else none))) ∧
    (∀ (load : BitVec 16) (p : RawPoint),
      gives 42 (point p ++ [(2, load.toNat)]) (.crane fun a => .parked a p load) ∧
      gives 43 ([(1, 0)] ++ point p ++ [(2, load.toNat)]) (.crane fun a => .status a true p load) ∧
      gives 43 ([(1, 1)] ++ point p ++ [(2, load.toNat)]) (.crane fun a => .status a false p load)) ∧
    (∀ b : BitVec 16, gives 44 [(2, b.toNat)] (.crane fun a => .infeed a b)) ∧
    gives 45 [(1, 0)] (.lift fun l => .fitness l true) ∧ gives 45 [(1, 1)] (.lift fun l => .fitness l false) ∧
    (∀ t : BitVec 16, gives 46 [(2, t.toNat)] (.lift fun l => .carried l t)) ∧
    (∀ t : BitVec 48,
      gives 48 [(6, t.toNat)] (.station fun st => .itemOut st tag t) ∧
      gives 49 [(6, t.toNat)] (.station fun st => .intoBin st tag t) ∧
      gives 51 [(6, t.toNat)] (.station fun st => .itemIn st tag t)) ∧
    (∀ b : BitVec 16, gives 50 [(2, b.toNat)] (.station fun st => .binDone st b)) ∧
    (∀ word rest, 1 < word.toNat → m.body = word :: rest →
      (m.kind = 43 → rest.length = 6 → takenDown m = some (.ignored 1)) ∧
      (m.kind = 45 → rest = [] → takenDown m = some (.ignored 2))) ∧
    ((∀ n, (m.kind, n) ∈ [(40, 8), (41, 4), (42, 6), (43, 7), (44, 2), (45, 1), (46, 2), (48, 6), (49, 6), (50, 2), (51, 6)] →
      m.body.length ≠ n) ↔ takenDown m = none)) ∧
  ∀ (s : State) (f : List Byte) (m : Telegram), s.running → parseFrame f = some m →
    let taken (v : State) : Prop :=
      (∀ c, takenUp m = .request c → exec (.frameArrival .u f) s = exec c v) ∧
      (takenUp m = .badForm → ∃ u, Counted v.beginEvent u 2 ∧
        exec (.frameArrival .u f) s = .next (v.closeEvent u (some
          { tag := m.tag, kind := m.kind, outcome := .refused, reason := some .badForm
            fields := if m.kind = 5 then [0#8, 1#8] else [] }))) ∧
      (∀ r, takenUp m = .refused r →
        exec (.frameArrival .u f) s = .next (v.onlyAnswers (.refused m.tag m.kind r))) ∧
      ∀ r, takenUp m = .writeRefused r →
        exec (.frameArrival .u f) s = .next (v.onlyAnswers (noneApplied (BitVec.ofNat 16 m.tag) r))
    (m.dest = 127 → 1 ≤ m.kind → m.kind ≤ 7 → taken (s.forwardDown m)) ∧
    (m.dest = 126 → taken s) ∧
    (m.dest = 126 →
      (∀ role, takenDown m = some (.ignored role) →
        ((∃ a, role = 1 ∧ s.addr m.src = .crane a) ∨ ∃ l, role = 2 ∧ s.addr m.src = .lift l) →
        exec (.frameArrival .d f) s = .next s) ∧
      (∀ make a, takenDown m = some (.crane make) → s.addr m.src = .crane a → (h : a < 12) →
        exec (.frameArrival .d f) s = exec (make ⟨a, h⟩) s) ∧
      (∀ make l, takenDown m = some (.lift make) → s.addr m.src = .lift l → (h : l < 6) →
        exec (.frameArrival .d f) s = exec (make ⟨l, h⟩) s) ∧
      (∀ make st, takenDown m = some (.station make) → s.addr m.src = .station st → (h : st < 24) →
        exec (.frameArrival .d f) s = exec (make ⟨st, h⟩) s))

/-- COMMAND: the name and the argument of its body give the command, in the order of the list of R20; a name outside
the list, or an argument outside the command's range, is refused with VALUE_RANGE, and the argument of a command
without one is not examined. -/
def Obligations.CommandNamesAndArguments : Prop :=
  ∀ (tag : BitVec 16) (name arg : Nat), name < 256 → arg < 65536 →
    let taken := takenUp { dest := 126, src := 0, kind := 7, tag := tag.toNat, body := be 1 name ++ be 2 arg }
    (name = 0 → taken = .request (.quiet tag)) ∧ (name = 1 → taken = .request (.wake tag)) ∧
    (name = 2 → taken = .request (.restart tag)) ∧
    (name = 3 → taken = if h : arg < 6 then .request (.join tag ⟨arg, h⟩) else .refused .valueRange) ∧
    (name = 4 → taken = if h : arg < 6 then .request (.leave tag ⟨arg, h⟩) else .refused .valueRange) ∧
    (name = 5 → taken = if h : arg < 8 then .request (.zoneShut tag ⟨arg, h⟩) else .refused .valueRange) ∧
    (name = 6 → taken = if h : arg < 8 then .request (.zoneRestore tag ⟨arg, h⟩) else .refused .valueRange) ∧
    (name = 7 → taken = if h : arg < 8 then .request (.sealNow tag ⟨arg, h⟩) else .refused .valueRange) ∧
    (name = 8 → taken = if h : arg < 12 then .request (.clearFault tag ⟨arg, h⟩) else .refused .valueRange) ∧
    (name = 9 → taken = if h : arg < 12 then .request (.flush tag ⟨arg, h⟩) else .refused .valueRange) ∧
    (name = 10 → taken = .request (.day tag (BitVec.ofNat 16 arg))) ∧
    (10 < name → taken = .refused .valueRange)

/-- TRANSMISSION_BEGINS: the telegram at the head of the queue leaves it onto the line, and a forwarded one is
counted. At the D port, a telegram that was GUARD at arrival and whose destination touches a zone that is not CLEAR,
and a MOVE to a crane whose aisle touches one, is discarded as a guard drop instead: a destination passes while every
zone it touches is CLEAR (which these are, ArrivalForwarded says), a broadcast while every zone of the part is. An
empty queue sends nothing. After RESTART the U port goes on sending, and otherwise nothing is sent unless the part
runs (R7, R12, R13, R14, R191). That the frame begun last stands at each port (log entry 27), and that a forwarded
telegram is counted after RESTART too (log entry 32), are the model's choices. -/
def Obligations.TransmissionTakesTheHead : Prop :=
  ∀ s : State, s.link.counters.wf →
    (∀ d, s.guardPasses d = true ↔
      if d = 127 then ∀ z, z < 8 → (s.zone z).state = .clear
      else ∀ z ∈ s.zonesTouched d, (s.zone z).state = .clear) ∧
    (s.ports.uQueue = [] → exec (.transmissionBegins .u) s = .next s) ∧
    (s.ports.dQueue = [] → exec (.transmissionBegins .d) s = .next s) ∧
    (¬ s.running → exec (.transmissionBegins .d) s = .next s) ∧
    (¬ s.running → s.resets.phase ≠ .restarting → exec (.transmissionBegins .u) s = .next s) ∧
    (∀ q rest, s.running ∨ s.resets.phase = .restarting → s.ports.uQueue = q :: rest →
      ∃ t, exec (.transmissionBegins .u) s = .next t ∧
        let sent := { s with ports := { s.ports with uQueue := rest, uLine := some q.telegram.frame } }
        match q.cls with
        | .forwarded _ => Counted sent t 9
        | _ => t = sent) ∧
    (∀ q rest, s.running → s.ports.dQueue = q :: rest →
      let sent := { s with ports := { s.ports with dQueue := rest, dLine := some q.telegram.frame } }
      let dropped := { s with ports := { s.ports with dQueue := rest } }
      let drops := ∃ u, exec (.transmissionBegins .d) s = .next (dropped.closeEvent u none) ∧
        u.work.up = [.notice (.guardDrop q.telegram.dest q.telegram.kind)] ∧ u.work.down = [] ∧
        Counted { dropped with work := u.work } u 6
      match q.cls with
      | .forwarded false => ∃ t, exec (.transmissionBegins .d) s = .next t ∧ Counted sent t 8
      | .forwarded true =>
        if s.guardPasses q.telegram.dest = true then ∃ t, exec (.transmissionBegins .d) s = .next t ∧ Counted sent t 8
        else drops
      | .move a =>
        if ∀ z ∈ (s.aisle a).zones, (s.zone z).state = .clear then exec (.transmissionBegins .d) s = .next sent
        else drops
      | _ => exec (.transmissionBegins .d) s = .next sent)


/-! ## WRITE -/

/-- A WRITE stops at the first entry that is refused: the entries before it are applied, it and those after it are
not. That an index outside the table is refused before the entry's fields are looked at is the model's choice (log
entry 10), and so is the size of a clamped field, by which 33 of them fit (log entry 7). The ANSWER carries the number
of entries applied, the reason, the flag that further clamped fields were left out (set where more than 33 would have
to fit, and carried as SET 0 or CLEAR 1: log entry 9), the clamp list in entry and field order, and the outcome of the
table of R18. -/
def Obligations.WriteStopsAtFirstRefusal : Prop :=
  ∀ (α : Type) (size : Nat) (apply : Nat → α → State → Judged) (es : List α) (first tag : Nat) (s : State),
    let w := writeEntries size apply es first s
    let a := w.answer tag
    (w.refusal = none ↔ w.applied = es.length) ∧ w.applied ≤ es.length ∧
    (∀ r, w.refusal = some r → ∃ e, es[w.applied]? = some e ∧
      if size ≤ first + w.applied then r = .indexRange else apply (first + w.applied) e w.state = .inr r) ∧
    writeEntries size apply (es.take w.applied) first s = { w with refusal := none } ∧
    (∀ e rest t cs, es = e :: rest → first < size → apply first e s = .inl (t, cs) →
      let v := writeEntries size apply rest (first + 1) t
      w = { v with applied := v.applied + 1, clamps := cs.map (fun c => (first, c)) ++ v.clamps }) ∧
    a.tag = tag ∧ a.kind = 5 ∧ a.reason = w.refusal ∧
    a.fields = be 1 w.applied ++ be 1 (if 33 < w.clamps.length then 0 else 1) ++
      (w.clamps.take 33).flatMap (fun c => be 2 c.1 ++ be 1 c.2.1 ++ be 4 c.2.2) ∧
    (w.refusal = none → w.clamps = [] → a.outcome = .done) ∧
    (w.refusal = none → w.clamps ≠ [] → a.outcome = .clamped) ∧
    (w.refusal ≠ none → w.applied = 0 → a.outcome = .refused) ∧
    (w.refusal ≠ none → 0 < w.applied → a.outcome = .partially)

/-- Every WRITE command is taken as one event that applies its entries in list order by the judgement of the block
that owns the table, and hands over the one ANSWER. PARAMS then makes the follow-on comparisons of the owners whose
entries were applied, the restore pass before the wake thresholds, while a new watermark is compared at the end of the
event (R104, R105; log entry 24), ITEM asks for first index 0, and the lifts of all the zones that one LINE or PULL
WRITE shuts are held back and barred together after its last entry (log entry 47) (R16, R111). Lifts are held back by
an empty list of them. -/
def Obligations.WritesAreTakenWhole : Prop :=
  ∀ (s : State) (tag first : BitVec 16), s.running →
    (∀ es, TakenAsWrite s (.addressWrite tag first es) tag first 128 judgeAddress es) ∧
    (∀ es, TakenAsWrite s (.trafficWrite tag first es) tag first 128 judgeTraffic es) ∧
    (∀ es, TakenAsWrite s (.countersWrite tag first es) tag first 12 judgeCounter es) ∧
    (∀ es, let w := writeEntries 12 judgeParam es first.toNat s.beginEvent
      exec (.paramsWrite tag first es) s =
        .next (s.requestEnds (w.state.paramsFollow first.toNat w.applied) (w.answer tag.toNat))) ∧
    (∀ es, TakenAsWrite s (.aisleWrite tag first es) tag first 12 judgeAisle es) ∧
    (∀ es, TakenAsWrite s (.binWrite tag first es) tag first 49152 judgeBin es) ∧
    (∀ es, TakenAsWrite s (.stationWrite tag first es) tag first 24 judgeStation es) ∧
    (∀ es, TakenAsWrite s (.liftWrite tag first es) tag first 6 judgeLift es) ∧
    (∀ es, if first = 0 then TakenAsWrite s (.itemWrite tag first es) tag first 65536 judgeItemEntry es
      else exec (.itemWrite tag first es) s = .next (s.onlyAnswers (noneApplied tag .indexRange))) ∧
    (∀ es, TakenAsWrite s (.classWrite tag first es) tag first 16 judgeClass es) ∧
    (∀ es, TakenAsWrite s (.zoneWrite tag first es) tag first 8 judgeZone es) ∧
    (∀ es, let w := writeEntries 48 judgeLine es first.toNat s.beginEvent.holdBars
      exec (.lineWrite tag first es) s = .next (s.requestEnds w.state.barHeld (w.answer tag.toNat))) ∧
    (∀ es, let w := writeEntries 12 judgePull es first.toNat s.beginEvent.holdBars
      exec (.pullWrite tag first es) s = .next (s.requestEnds w.state.barHeld (w.answer tag.toNat))) ∧
    (∀ u : State, u.holdBars = { u with work := { u.work with bars := some [] } }) ∧
    (∀ (u : State) (n k : Nat), u.paramsFollow n k =
      let a := if n = 0 ∧ 0 < k then { u with work := { u.work with hold := true } } else u
      let b := if n ≤ 7 ∧ 6 < n + k then a.restorePass else a
      if n ≤ 9 ∧ 8 < n + k then b.thresholdTest else b)

/-- ADDRESS WRITE of one entry: what a carried entry stands for (R8), the refusals of R9 in order, and an entry that
is applied: the table holds it, and a restore pass is owed where the new entry or the one before it names a station
(R145). The address of a crane, a lift or a station is the one whose entry names it, and it has none where no entry
does (R8); an applied entry leaves no unit named twice that was not (R9). That nothing else is owed, and so no ready
test made where the cranes that such a test counts change, is the model's reading (log entry 46). -/
def Obligations.AddressWrite : Prop :=
  (∀ e : AddressEntry,
    (addressValue e = some .none ↔ e.role = 0 ∧ e.unitPresence = 1 ∧ e.zonePresence = 1) ∧
    (∀ a, addressValue e = some (.crane a) ↔
      e.role = 1 ∧ e.unitPresence = 0 ∧ e.zonePresence = 1 ∧ e.unit = a ∧ a < 12) ∧
    (∀ l, addressValue e = some (.lift l) ↔
      e.role = 2 ∧ e.unitPresence = 0 ∧ e.zonePresence = 1 ∧ e.unit = l ∧ l < 6) ∧
    (∀ st, addressValue e = some (.station st) ↔
      e.role = 3 ∧ e.unitPresence = 0 ∧ e.zonePresence = 1 ∧ e.unit = st ∧ st < 24) ∧
    (∀ z, addressValue e = some (.device z) ↔
      e.role = 4 ∧ e.unitPresence = 1 ∧ e.zonePresence = 0 ∧ e.zone = z ∧ z < 8)) ∧
  (∀ v : AddrEntry,
    (v.namesUnit = true ↔ ∃ k, v = .crane k ∨ v = .lift k ∨ v = .station k) ∧
    (v.namesStation = true ↔ ∃ k, v = .station k)) ∧
  (∀ (s : State) (k : Nat), s.Tidy →
    let addressed (x : Option Nat) (v : AddrEntry) : Prop :=
      (x = none ↔ ∀ a, s.addr a ≠ v) ∧ (∀ a, x = some a → s.addr a = v) ∧
        ∀ a, s.addr a = v → (∀ b, s.addr b = v → b = a) → x = some a
    addressed (s.craneAddress k) (.crane k) ∧ addressed (s.liftAddress k) (.lift k) ∧
      addressed (s.stationAddress k) (.station k)) ∧
  ∀ (s : State) (tag a : BitVec 16) (e : AddressEntry), s.running → s.Tidy → a.toNat < 128 →
    let refused (r : Reason) : Prop := exec (.addressWrite tag a [e]) s = .next (s.onlyAnswers (noneApplied tag r))
    let old := s.addr a.toNat
    let resting : Prop := match old with
      | .crane k => ((s.crane k).state = .offline ∨ (s.crane k).state = .faulted) ∧ (s.crane k).flight = none
      | .lift l => ((s.lift l).word = .off ∨ (s.lift l).word = .bar) ∧ (s.lift l).carries = []
      | .station st => (∀ p ∈ s.desk.orders, p.2.station ≠ st) ∧ (s.station st).lane = []
      | .none => True
      | .device _ => True
    (addressValue e = none → refused .valueRange) ∧
    ∀ v, addressValue e = some v →
      let barred := ((a.toNat = 0 ∨ a.toNat = 126 ∨ a.toNat = 127) ∧ v ≠ .none) ∨
        (v.namesUnit = true ∧ ∃ b, b ≠ a.toNat ∧ s.addr b = v)
      (barred → refused .valueRange) ∧
      (¬ barred → old ≠ v → ¬ resting →
        (∀ k, old = .crane k → refused .aisleBusy) ∧ (∀ l, old = .lift l → refused .wrongState) ∧
          ∀ st, old = .station st → refused .stationBusy) ∧
      (¬ barred → (old = v ∨ resting) →
        ∃ u, exec (.addressWrite tag a [e]) s = .next (s.requestEnds u (oneApplied tag a.toNat [])) ∧
          (∀ b, u.addr b = if b = a.toNat then v else s.addr b) ∧
          (let once (t : State) (w : AddrEntry) : Prop := ∀ b c, t.addr b = w → t.addr c = w → b = c
           ∀ w, w.namesUnit = true → once s w → once u w) ∧
          u = { s with
            link := { s.link with addresses := u.link.addresses }
            work := { Work.empty with
              restore := if v.namesStation = true ∨ old.namesStation = true then [.pass] else [] } })

/-- TRAFFIC WRITE and COUNTERS WRITE of one entry: PASS, GUARD and DROP are stored for the direction and kind of the
index, a counter is set to 0, and any other value is refused with VALUE_RANGE (R10, R14). -/
def Obligations.TrafficAndCountersWrite : Prop :=
  ∀ (s : State) (tag i : BitVec 16) (v : Nat), s.running → s.Tidy →
    (i.toNat < 128 → 2 < v → exec (.trafficWrite tag i [v]) s = .next (s.onlyAnswers (noneApplied tag .valueRange))) ∧
    (i.toNat < 128 → ∀ x, (v = 0 ∧ x = .pass) ∨ (v = 1 ∧ x = .guard) ∨ (v = 2 ∧ x = .drop) →
      ∃ u, exec (.trafficWrite tag i [v]) s = .next (s.closeEvent u (some (oneApplied tag i.toNat []))) ∧
        (∀ k, u.treatDown k = if i.toNat < 64 ∧ k = i.toNat then x else s.treatDown k) ∧
        (∀ k, u.treatUp k = if 64 ≤ i.toNat ∧ k = i.toNat - 64 then x else s.treatUp k) ∧
        u = { s with
          link := { s.link with trafficDown := u.link.trafficDown, trafficUp := u.link.trafficUp }
          work := Work.empty }) ∧
    (i.toNat < 12 → v ≠ 0 →
      exec (.countersWrite tag i [v]) s = .next (s.onlyAnswers (noneApplied tag .valueRange))) ∧
    (i.toNat < 12 → v = 0 →
      ∃ u, exec (.countersWrite tag i [v]) s = .next (s.closeEvent u (some (oneApplied tag i.toNat []))) ∧
        (∀ k, u.counter k = if k = i.toNat then 0 else s.counter k) ∧
        u = { s with link := { s.link with counters := u.link.counters }, work := Work.empty })

/-- PARAMS WRITE of one setting: a numeric setting is clamped to its range, the hold repeat to the stored hold time,
and the call-key inhibit is 0 or 1. A new watermark is compared at the end of the event (R104, R105); at once the
restore settings have a restore pass made, and while QUIET the wake thresholds are compared, both whichever was
written and staging first (the model's choice, log entry 24) (R16, R17, R44, R105, R129, R143, R181, R185). -/
def Obligations.ParamsWrite : Prop :=
  (∀ pos lo hi v : Nat, lo ≤ hi →
    clampTo pos lo hi v = (max lo (min v hi), if lo ≤ v ∧ v ≤ hi then [] else [(pos, max lo (min v hi))])) ∧
  ∀ (s : State) (tag : BitVec 16) (v : Nat), s.running →
    let numeric (i lo hi : Nat) (p : Nat → Params) (then_ : State → State) : Prop :=
      exec (.paramsWrite tag (BitVec.ofNat 16 i) [v]) s =
        .next (s.requestEnds (then_ { s with params := p (clampTo 1 lo hi v).1, work := Work.empty })
          (oneApplied tag i (clampTo 1 lo hi v).2))
    let waking (u : State) : State :=
      if u.mode.mode = .quiet then
        if u.params.stagingWake ≠ 0 ∧ u.params.stagingWake ≤ u.mode.lastStaging then u.changeMode .waking .staging
        else if u.params.orderWake ≠ 0 ∧ u.params.orderWake ≤ u.mode.lastWaiting then u.changeMode .waking .orders
        else u
      else u
    numeric 0 1 256 (fun x => { s.params with watermark := x })
      (fun u => { u with work := { u.work with hold := true } }) ∧
    numeric 1 1000 60000 (fun x => { s.params with holdTime := x }) id ∧
    numeric 2 1000 s.params.holdTime (fun x => { s.params with holdRepeat := x }) id ∧
    numeric 3 0 100 (fun x => { s.params with moveMargin := x }) id ∧
    numeric 4 0 60000 (fun x => { s.params with moveAllowance := x }) id ∧
    numeric 5 0 65535 (fun x => { s.params with termEnd := x }) id ∧
    numeric 6 1 16 (fun x => { s.params with restoreThreshold := x }) State.restorePass ∧
    numeric 7 1 1440 (fun x => { s.params with restoreAge := x }) State.restorePass ∧
    numeric 8 0 4096 (fun x => { s.params with stagingWake := x }) waking ∧
    numeric 9 0 256 (fun x => { s.params with orderWake := x }) waking ∧
    numeric 10 5000 300000 (fun x => { s.params with wakeReadyLimit := x }) id ∧
    (v ≤ 1 → exec (.paramsWrite tag 11 [v]) s =
      .next (s.closeEvent { s with params := { s.params with callKeyInhibit := decide (v = 1) }, work := Work.empty }
        (some (oneApplied tag 11 [])))) ∧
    (1 < v → exec (.paramsWrite tag 11 [v]) s = .next (s.onlyAnswers (noneApplied tag .valueRange)))

/-- AISLE WRITE of one entry. An entry with levels outside 1 to 64 other than 0, or another structural field outside
its range, is refused with VALUE_RANGE. One that changes geometry or zone split, or has levels 0, is tested for a
resting aisle, CLEAR zones, and slots inside the new geometry. An applied entry is stored, its numeric fields clamped,
each clamped one in the ANSWER under its position in the entry with the value stored, and the credits of the aisle are
set to its weights; where its drive level changes, the tests of its zones and of Mode Control are owed (R17, R25, R26,
R27, R65, R166, R190). An entry that would change the front or infeed size, be it by levels 0, is refused while either
list of the aisle holds a bin, so that a WRITE leaves no list over its size (R60); that the refusal is AISLE_BUSY is
the model's reading (log entry 64). -/
def Obligations.AisleWrite : Prop :=
  ∀ (s : State) (tag a : BitVec 16) (e : AisleEntry), s.running → s.Tidy → a.toNat < 12 →
    let refused (r : Reason) : Prop := exec (.aisleWrite tag a [e]) s = .next (s.onlyAnswers (noneApplied tag r))
    let r := aisleRecord e
    let old := s.aisle a.toNat
    let malformed := 64 < e.levels ∨ e.columns < 1 ∨ 200 < e.columns ∨ 1 < e.leftMirrored ∨ 1 < e.rightMirrored ∨
      63 < e.frontLevel ∨ e.levels < e.frontLevel ∨ 63 < e.infeedLevel ∨ e.levels < e.infeedLevel ∨
      e.frontSize < 1 ∨ 3 < e.frontSize ∨ e.infeedSize < 1 ∨ 3 < e.infeedSize ∨ 199 < e.parkColumn ∨
      e.columns - 1 < e.parkColumn ∨ 63 < e.parkLevel ∨ e.levels < e.parkLevel ∨ 7 < e.lowerZone ∨ 7 < e.upperZone ∨
      64 < e.split ∨ 1 < e.mode
    let same := r.levels = old.levels ∧ r.columns = old.columns ∧ r.frontOffset = old.frontOffset ∧
      r.columnPitch = old.columnPitch ∧ r.levelPitch = old.levelPitch ∧ r.leftMirrored = old.leftMirrored ∧
      r.rightMirrored = old.rightMirrored ∧ r.frontLevel = old.frontLevel ∧ r.infeedLevel = old.infeedLevel ∧
      r.frontSize = old.frontSize ∧ r.infeedSize = old.infeedSize ∧ r.parkColumn = old.parkColumn ∧
      r.parkLevel = old.parkLevel ∧ r.lowerZone = old.lowerZone ∧ r.upperZone = old.upperZone ∧ r.split = old.split
    let tested := e.levels = 0 ∨ ¬ same
    let resting := (s.crane a.toNat).jobs = [] ∧
      (∀ b x, s.bin b = some x → x.home.aisle = a.toNat → x.state = .stored ∨ x.state = .blocked) ∧
      ((s.crane a.toNat).state = .offline ∨ (s.crane a.toNat).state = .faulted)
    let held := (r.frontSize ≠ old.frontSize ∨ r.infeedSize ≠ old.infeedSize) ∧
      ((s.crane a.toNat).front ≠ [] ∨ (s.crane a.toNat).infeed ≠ [])
    let free := resting ∧ ¬ held
    let clear := ∀ z, z ∈ old.zones ∨ z ∈ r.zones → (s.zone z).state = .clear
    let lost := ∃ b x, s.bin b = some x ∧ ∃ t, (t = x.home ∨ x.target = some t) ∧ t.aisle = a.toNat ∧
      ¬ (1 ≤ r.levels ∧ 1 ≤ t.level ∧ t.level ≤ r.levels ∧ 1 ≤ t.column ∧ t.column ≤ r.columns)
    let fit (pos lo hi v : Nat) : List Clamp := if lo ≤ v ∧ v ≤ hi then [] else [(pos, max lo (min v hi))]
    let clamps := if e.levels = 0 then [] else
      fit 3 0 5000 e.frontOffset ++ fit 4 300 2000 e.columnPitch ++ fit 5 200 1000 e.levelPitch ++
        fit 14 200 5000 e.travelVmax ++ fit 15 100 3000 e.travelAccel ++ fit 16 100 2000 e.hoistVmax ++
        fit 17 100 2000 e.hoistAccel ++ fit 18 500 20000 e.handling ++ fit 23 1 255 e.patronWeight ++
        fit 24 1 255 e.restoreWeight ++ fit 25 1 255 e.houseWeight
    (e.levels = 0 → r = Aisle.unconfigured) ∧
    (e.levels ≠ 0 →
      r.levels = e.levels ∧ r.columns = e.columns ∧ r.frontOffset = min e.frontOffset 5000 ∧
      r.columnPitch = max 300 (min e.columnPitch 2000) ∧ r.levelPitch = max 200 (min e.levelPitch 1000) ∧
      r.leftMirrored = decide (e.leftMirrored = 1) ∧ r.rightMirrored = decide (e.rightMirrored = 1) ∧
      r.frontLevel = e.frontLevel ∧ r.infeedLevel = e.infeedLevel ∧ r.frontSize = e.frontSize ∧
      r.infeedSize = e.infeedSize ∧ r.parkColumn = e.parkColumn ∧ r.parkLevel = e.parkLevel ∧
      r.travelVmax = max 200 (min e.travelVmax 5000) ∧ r.travelAccel = max 100 (min e.travelAccel 3000) ∧
      r.hoistVmax = max 100 (min e.hoistVmax 2000) ∧ r.hoistAccel = max 100 (min e.hoistAccel 2000) ∧
      r.handling = max 500 (min e.handling 20000) ∧ r.lowerZone = e.lowerZone ∧ r.upperZone = e.upperZone ∧
      r.split = e.split ∧ r.mode = (if e.mode = 1 then .weighted else .strict) ∧
      r.patronWeight = max 1 (min e.patronWeight 255) ∧ r.restoreWeight = max 1 (min e.restoreWeight 255) ∧
      r.houseWeight = max 1 (min e.houseWeight 255)) ∧
    (e.levels ≠ 0 → malformed → refused .valueRange) ∧
    ((e.levels = 0 ∨ ¬ malformed) →
      (tested → ¬ free → refused .aisleBusy) ∧
      (tested → free → ¬ clear → refused .zoneShut) ∧
      (tested → free → clear → lost → refused .slotTaken) ∧
      ((tested → free ∧ clear ∧ ¬ lost) →
        ∃ u, exec (.aisleWrite tag a [e]) s = .next (s.requestEnds u (oneApplied tag a.toNat clamps)) ∧
          (∀ b, u.aisle b = if b = a.toNat then r else s.aisle b) ∧
          (∀ b, u.crane b = if b = a.toNat then
              { s.crane b with
                patronCredit := r.patronWeight, restoreCredit := r.restoreWeight, houseCredit := r.houseWeight }
            else s.crane b) ∧
          (∀ b, (s.crane b).front.length ≤ (s.aisle b).frontSize ∧ (s.crane b).infeed.length ≤ (s.aisle b).infeedSize →
            (u.crane b).front.length ≤ (u.aisle b).frontSize ∧ (u.crane b).infeed.length ≤ (u.aisle b).infeedSize) ∧
          u = { s with
            store := { s.store with aisles := u.store.aisles }
            dispatch := { s.dispatch with cranes := u.dispatch.cranes }
            work := if u.driveLevel a.toNat = s.driveLevel a.toNat then Work.empty
              else { Work.empty with zoneTests := r.zones, modeTest := true } }))

/-- BIN WRITE of one PRESENT entry: the home slot must be a slot of a configured aisle and the state STORED or
BLOCKED; then the present state is tested, then the claim of a new home slot. A new bin is created, and if STORED
leaves every list; a bin that stays STORED or is barred takes the home slot and the state; and a bin that becomes
STORED leaves every list and then is offered (the order here: log entry 59) (R34, R37, R39). A STRANDED or ADRIFT bin
is found at home only while no carry in flight names it; that BIN_BUSY answers the WRITE of STORED over an ADRIFT bin
that a carry names is the model's reading (log entry 57). -/
def Obligations.BinWritePresent : Prop :=
  ∀ (s : State) (tag b : BitVec 16) (e : BinEntry), s.running → b.toNat < 49152 → e.presence = 0 →
    let refused (r : Reason) : Prop := exec (.binWrite tag b [e]) s = .next (s.onlyAnswers (noneApplied tag r))
    let fits := e.aisle < 12 ∧ 1 ≤ (s.aisle e.aisle).levels ∧ e.face ≤ 1 ∧ 1 ≤ e.level ∧
      e.level ≤ (s.aisle e.aisle).levels ∧ 1 ≤ e.column ∧ e.column ≤ (s.aisle e.aisle).columns
    let home : Slot :=
      { aisle := e.aisle, face := if e.face = 0 then .left else .right, level := e.level, column := e.column }
    let claimed := ∃ x ∈ s.store.bins, x.2.home = home ∨ x.2.target = some home
    let held := ∃ c ∈ s.carries, c.bin = b.toNat
    let st : BinState := if e.state = 0 then .stored else .blocked
    (¬ (fits ∧ (e.state = 0 ∨ e.state = 4)) → refused .valueRange) ∧
    (fits → e.state = 0 ∨ e.state = 4 →
      (s.bin b.toNat = none →
        (claimed → refused .slotTaken) ∧
        (¬ claimed → ∃ u : State,
          (∀ c, u.bin c = if c = b.toNat then
              some { home, state := st, target := none, staged := 0, pending := false, itemRefs := 0 }
            else s.bin c) ∧
          u = { s with store := { s.store with bins := u.store.bins }, work := Work.empty } ∧
          exec (.binWrite tag b [e]) s = .next (s.requestEnds
            (if e.state = 0 then forEach (List.range 12) (fun a t => t.leaveLists a b.toNat) u else u)
            (oneApplied tag b.toNat [])))) ∧
      (∀ r, s.bin b.toNat = some r →
        let free := r.state = .stored ∨ r.state = .blocked ∨
          (e.state = 0 ∧ (r.state = .stranded ∨ r.state = .adrift) ∧ ¬ held)
        (¬ free → refused .binBusy) ∧
        (free → home ≠ r.home → claimed → refused .slotTaken) ∧
        (free → (home = r.home ∨ ¬ claimed) → (e.state = 4 ∨ r.state = .stored) →
          ∃ u, exec (.binWrite tag b [e]) s = .next (s.closeEvent u (some (oneApplied tag b.toNat []))) ∧
            (∀ c, u.bin c = if c = b.toNat then some { r with home, state := st } else s.bin c) ∧
            u = { s with store := { s.store with bins := u.store.bins }, work := Work.empty }) ∧
        (free → (home = r.home ∨ ¬ claimed) → e.state = 0 → r.state ≠ .stored →
          ∃ u : State, (∀ c, u.bin c = if c = b.toNat then some { r with home, state := .stored } else s.bin c) ∧
            u = { s with store := { s.store with bins := u.store.bins }, work := Work.empty } ∧
            exec (.binWrite tag b [e]) s =
              .next (s.requestEnds (u.becomeStored b.toNat) (oneApplied tag b.toNat [])))))

/-- BIN WRITE of one ABSENT entry: an absent record stays absent, a bin that work holds is refused with BIN_BUSY, one
that item entries name with BIN_IN_USE, and any other is removed (R40); a presence value above 1 is refused with
VALUE_RANGE (R17). That a removed bin stays on the front or infeed list it is on, nothing else changing, is the
model's choice (log entry 18). -/
def Obligations.BinWriteAbsent : Prop :=
  ∀ (s : State) (tag b : BitVec 16) (e : BinEntry), s.running → s.Tidy → b.toNat < 49152 →
    let refused (r : Reason) : Prop := exec (.binWrite tag b [e]) s = .next (s.onlyAnswers (noneApplied tag r))
    let held := ∃ c ∈ s.carries, c.bin = b.toNat
    (1 < e.presence → refused .valueRange) ∧
    (e.presence = 1 → s.bin b.toNat = none →
      exec (.binWrite tag b [e]) s = .next (s.onlyAnswers (oneApplied tag b.toNat []))) ∧
    ∀ r, e.presence = 1 → s.bin b.toNat = some r →
      let busy := r.state = .reserved ∨ r.state = .out ∨ r.state = .moving ∨ (r.state = .stranded ∧ held)
      (busy → refused .binBusy) ∧
      (¬ busy → r.itemRefs ≠ 0 → refused .binInUse) ∧
      (¬ busy → r.itemRefs = 0 →
        ∃ u, exec (.binWrite tag b [e]) s = .next (s.closeEvent u (some (oneApplied tag b.toNat []))) ∧
          (∀ c, u.bin c = if c = b.toNat then none else s.bin c) ∧
          u = { s with store := { s.store with bins := u.store.bins }, work := Work.empty })

/-- STATION WRITE and LIFT WRITE of one entry: the structural fields, the conditions on state, the clamped times, and
what is stored; a station owes a restore pass and a lift a scan of the carry wait list (R82, R107, R116, R145). -/
def Obligations.StationAndLiftWrite : Prop :=
  (∀ (s : State) (tag i : BitVec 16) (e : StationEntry), s.running → s.Tidy → i.toNat < 24 →
    let refused (r : Reason) : Prop := exec (.stationWrite tag i [e]) s = .next (s.onlyAnswers (noneApplied tag r))
    let w := s.station i.toNat
    let malformed := 2 < e.kind ∨ 7 < e.zone ∨ e.laneSize < 2 ∨ 8 < e.laneSize
    let kind : StationKind := if e.kind = 0 then .pick else if e.kind = 1 then .reshelve else .chute
    let changes := kind ≠ w.kind ∨ e.zone ≠ w.zone ∨ e.laneSize ≠ w.laneSize
    let idle := (∀ p ∈ s.desk.orders, p.2.station ≠ i.toNat) ∧ w.lane = []
    (malformed → refused .valueRange) ∧
    (¬ malformed → changes → ¬ idle → refused .stationBusy) ∧
    (¬ malformed → (changes → idle) →
      ∃ u, exec (.stationWrite tag i [e]) s =
          .next (s.requestEnds u (oneApplied tag i.toNat (if 120000 < e.slack then [(4, 120000)] else []))) ∧
        (∀ k, u.station k = if k = i.toNat then
            { w with kind, zone := e.zone, laneSize := e.laneSize, slack := min e.slack 120000 } else s.station k) ∧
        u = { s with
          desk := { s.desk with stations := u.desk.stations }
          work := { Work.empty with restore := [.pass] } })) ∧
  ∀ (s : State) (tag i : BitVec 16) (e : LiftEntry), s.running → s.Tidy → i.toNat < 6 →
    let refused (r : Reason) : Prop := exec (.liftWrite tag i [e]) s = .next (s.onlyAnswers (noneApplied tag r))
    let r := s.lift i.toNat
    let malformed := 7 < e.zone ∨ e.carriers < 1 ∨ 4 < e.carriers
    let resting := (r.word = .off ∨ r.word = .bar) ∧ r.carries = []
    (malformed → refused .valueRange) ∧
    (¬ malformed → e.zone ≠ r.zone → ¬ resting → refused .wrongState) ∧
    (¬ malformed → (e.zone = r.zone ∨ resting) →
      ∃ u, exec (.liftWrite tag i [e]) s =
          .next (s.requestEnds u (oneApplied tag i.toNat
            ((clampTo 4 5000 300000 e.carryLimit).2 ++ (clampTo 5 1000 10000 e.answerLimit).2))) ∧
        (∀ k, u.lift k = if k = i.toNat then
            { r with
              zone := e.zone, mask := BitVec.ofNat 24 e.mask, carriers := e.carriers
              carryLimit := max 5000 (min e.carryLimit 300000), answerLimit := max 1000 (min e.answerLimit 10000) }
          else s.lift k) ∧
        u = { s with pool := { s.pool with lifts := u.pool.lifts }, work := { Work.empty with scan := true } })

/-- ITEM WRITE and CLASS WRITE of one entry: a PRESENT item entry seeds a loan, LENT or INHOUSE, an ABSENT one writes
a loan off, each moving its bin's item-reference count, and a class entry is stored with its numbers clamped (R38,
R127, R135, R136). -/
def Obligations.ItemAndClassWrite : Prop :=
  (∀ (s : State) (tag : BitVec 16) (e : ItemEntry), s.running → s.Tidy →
    let refused (r : Reason) : Prop := exec (.itemWrite tag 0 [e]) s = .next (s.onlyAnswers (noneApplied tag r))
    let loan : Loan := { lendDay := e.lendDay, dueDay := e.dueDay, renewals := e.renewals }
    let malformed := e.item = 0 ∨ 49152 ≤ e.bin ∨ 15 < e.category ∨ (e.state ≠ 1 ∧ e.state ≠ 2) ∨
      15 < e.renewals ∨ e.dueDay < e.lendDay
    (1 < e.presence → refused .valueRange) ∧
    (e.presence = 0 →
      (malformed → refused .valueRange) ∧
      (¬ malformed → s.bin e.bin = none → refused .binUnknown) ∧
      (¬ malformed → ∀ r, s.bin e.bin = some r →
        (s.item e.item ≠ none → refused .itemBusy) ∧
        (s.item e.item = none → 65536 ≤ s.loans.items.length → refused .itemTableFull) ∧
        (s.item e.item = none → s.loans.items.length < 65536 →
          ∃ u, exec (.itemWrite tag 0 [e]) s = .next (s.closeEvent u (some (oneApplied tag 0 []))) ∧
            (∀ t, u.item t = if t = e.item then
                some { bin := e.bin, category := e.category
                       state := if e.state = 1 then .lent loan else .inhouse loan } else s.item t) ∧
            (∀ b, u.bin b = if b = e.bin then some { r with itemRefs := r.itemRefs + 1 } else s.bin b) ∧
            u = { s with
              loans := { s.loans with items := u.loans.items }
              store := { s.store with bins := u.store.bins }
              work := Work.empty }))) ∧
    (e.presence = 1 →
      (s.item e.item = none → exec (.itemWrite tag 0 [e]) s = .next (s.onlyAnswers (oneApplied tag 0 []))) ∧
      ∀ x, s.item e.item = some x →
        (x.state.word = .requested ∨ x.state.word = .returned → refused .itemBusy) ∧
        (x.state.word = .lent ∨ x.state.word = .inhouse →
          ∃ u, exec (.itemWrite tag 0 [e]) s = .next (s.closeEvent u (some (oneApplied tag 0 []))) ∧
            (∀ t, u.item t = if t = e.item then none else s.item t) ∧
            (∀ b, u.bin b = if b = x.bin then
                (s.bin b).map fun r => { r with itemRefs := r.itemRefs - 1 } else s.bin b) ∧
            u = { s with
              loans := { s.loans with items := u.loans.items }
              store := { s.store with bins := u.store.bins }
              work := Work.empty }))) ∧
  ∀ (s : State) (tag i : BitVec 16) (e : ClassEntry), s.running → s.Tidy → i.toNat < 16 →
    (2 < e.cls → exec (.classWrite tag i [e]) s = .next (s.onlyAnswers (noneApplied tag .valueRange))) ∧
    (e.cls ≤ 2 →
      ∃ u, exec (.classWrite tag i [e]) s =
          .next (s.closeEvent u (some (oneApplied tag i.toNat
            ((clampTo 2 0 365 e.period).2 ++ (clampTo 3 0 15 e.renewLimit).2)))) ∧
        (∀ k, u.lendClass k = if k = i.toNat then
            { cls := if e.cls = 0 then .loanable else if e.cls = 1 then .inhouseOnly else .notLendable
              period := min e.period 365, renewLimit := min e.renewLimit 15 } else s.lendClass k) ∧
        u = { s with loans := { s.loans with classes := u.loans.classes }, work := Work.empty })

/-- ZONE WRITE of one entry: the five settings are stored clamped, and nothing else of the zone changes; a timer that
runs keeps its value (R153). The ANSWER names a clamped setting by its position in the entry, 5 to 9, since the four
line fields are carried before the settings (log entry 25). -/
def Obligations.ZoneWrite : Prop :=
  ∀ (s : State) (tag i : BitVec 16) (e : ZoneEntry), s.running → s.Tidy → i.toNat < 8 →
    ∃ u, exec (.zoneWrite tag i [e]) s =
        .next (s.closeEvent u (some (oneApplied tag i.toNat
          ((clampTo 5 0 2000 e.debounce).2 ++ (clampTo 6 0 60000 e.parkAllowance).2 ++
            (clampTo 7 0 30000 e.brakeSettle).2 ++ (clampTo 8 5000 120000 e.shutterLimit).2 ++
            (clampTo 9 5000 300000 e.readyLimit).2)))) ∧
      (∀ k, u.zone k = if k = i.toNat then
          { s.zone k with
            debounce := min e.debounce 2000, parkAllowance := min e.parkAllowance 60000
            brakeSettle := min e.brakeSettle 30000, shutterLimit := max 5000 (min e.shutterLimit 120000)
            readyLimit := max 5000 (min e.readyLimit 300000) }
        else s.zone k) ∧
      u = { s with zones := u.zones, work := Work.empty }


/-- LINE WRITE and PULL WRITE of one entry: the refusals of R177 and R178, and an entry that is applied. A LINE entry
stores its fields, a line that was no input and becomes one is sampled, and the change of the line is taken; a change
of pull has the inputs of the group taken again, in ascending number (log entry 55): each is sampled, at the level of
its wire, at that of its pull where it is unwired, or at a free value where there is no pull either (log entry 4). The
lifts of zones shut on the way are held back and barred together after the last entry, in one removal each (R111; log
entry 47). -/
def Obligations.LineAndPullWrite : Prop :=
  (∀ (s : State) (tag i : BitVec 16) (e : LineEntry), s.running → s.Tidy → i.toNat < 48 →
    let n := i.toNat
    let refused (r : Reason) : Prop := exec (.lineWrite tag i [e]) s = .next (s.onlyAnswers (noneApplied tag r))
    let malformed := 3 < e.selection ∨ 1 < e.polarity ∨ 1 < e.output
    let sel : Selection := if e.selection = 0 then .generalIn else if e.selection = 1 then .generalOut
      else if e.selection = 2 then .first else .second
    let pol : Polarity := if e.polarity = 0 then .activeHigh else .activeLow
    let before := s.function n
    let after := lineFunction n sel
    let clear (f : LineFunction) : Prop := match f with
      | .zoneAlarm z => (s.zone z).state = .clear
      | .shutterClose z => (s.zone z).state = .clear
      | .shutterClosed z => (s.zone z).state = .clear
      | .shutterOpen z => (s.zone z).state = .clear
      | .driveEnable a => ∀ z ∈ (s.aisle a).zones, (s.zone z).state = .clear
      | .generalIn => True
      | .generalOut => True
      | .callKey => True
      | .beacon => True
    let busy := (before.fire = true ∨ after.fire = true) ∧ (before ≠ after ∨ pol ≠ (s.line n).polarity) ∧
      ¬ (s.mode.mode = .quiet ∧ clear before ∧ clear after)
    (malformed → refused .valueRange) ∧
    (¬ malformed → busy → refused .zoneBusy) ∧
    (¬ malformed → ¬ busy →
      ∃ u : State,
        (∀ k, u.line k = if k = n then
            { s.line n with selection := sel, polarity := pol, output := decide (e.output = 0) } else s.line k) ∧
        u = { s with
          lines := { s.lines with lines := u.lines.lines }, work := { Work.empty with bars := some [] } } ∧
        exec (.lineWrite tag i [e]) s =
          .next (s.requestEnds
            ((if before.input = true then u else u.samplePin n).lineChanged n (s.keyPressed n)).barHeld
            (oneApplied tag n [])))) ∧
  (∀ (s : State) (tag i : BitVec 16) (v : Nat), s.running → s.Tidy → i.toNat < 12 →
    let g := i.toNat
    let refused (r : Reason) : Prop := exec (.pullWrite tag i [v]) s = .next (s.onlyAnswers (noneApplied tag r))
    let p : Pull := if v = 0 then .none else if v = 1 then .up else .down
    let fireInput (z : Nat) : Prop := ∃ n, 4 * g ≤ n ∧ n < 4 * g + 4 ∧
      (s.function n = .zoneAlarm z ∨ s.function n = .shutterClosed z ∨ s.function n = .shutterOpen z)
    let busy := (∃ z, fireInput z) ∧ ¬ (s.mode.mode = .quiet ∧ ∀ z, fireInput z → (s.zone z).state = .clear)
    (2 < v → refused .valueRange) ∧
    (v ≤ 2 → p = s.pull g → exec (.pullWrite tag i [v]) s = .next (s.onlyAnswers (oneApplied tag g []))) ∧
    (v ≤ 2 → p ≠ s.pull g → busy → refused .zoneBusy) ∧
    (v ≤ 2 → p ≠ s.pull g → ¬ busy →
      ∃ u : State,
        (∀ k, u.pull k = if k = g then p else s.pull k) ∧
        u = { s with
          lines := { s.lines with pulls := u.lines.pulls }, work := { Work.empty with bars := some [] } } ∧
        exec (.pullWrite tag i [v]) s =
          .next (s.requestEnds
            (forEach [4 * g, 4 * g + 1, 4 * g + 2, 4 * g + 3]
              (fun n t => if (t.function n).input = true then (t.samplePin n).lineChanged n (t.keyPressed n) else t)
              u).barHeld
            (oneApplied tag g [])))) ∧
  ∀ (s : State) (n : Nat), s.Tidy →
    let floats := (s.line n).wiring = .unwired ∧ s.pull (n / 4) = .none
    let level := match (s.line n).wiring with
      | .high => true
      | .low => false
      | .unwired =>
        match s.pull (n / 4) with
        | .up => true
        | .down => false
        | .none => Config.floatingPin s.floats
    ((s.function n).input = false → s.samplePin n = s) ∧
    ((s.function n).input = true →
      ∃ u : State,
        (∀ k, u.line k = if k = n then { s.line n with pin := level } else s.line k) ∧
        u = { s with
          lines := { s.lines with lines := u.lines.lines }, floats := if floats then s.floats + 1 else s.floats } ∧
        s.samplePin n = u)

/-! ## READ -/

/-- READ: the refusals, and an ANSWER with the entries from the first index on, up to the count, the end of the table,
or the first entry that does not fit in the 233 bytes left of the body; DONE with the full count, PARTIAL with
INDEX_RANGE where the table ended, and PARTIAL with TOO_LARGE where the body filled. Nothing but the send queue
changes, except that a READ of the RESET table clears the three flags after it has carried them (R15, R19, R193). The
entry of every table carries its fields in the order of its chapter, a value of a set as its place in the set's list.
The model's choices are marked: the widths and the filling of lists (log entry 7), the codes (log entry 9), the order
of a STATION entry (log entry 45), the bits of a LIFT entry's mask (log entry 39), the codes of the nine line
functions (log entry 43). An item entry's state carries its word, and every state but REQUESTED a loan (R124). -/
def Obligations.ReadReturnsEntries : Prop :=
  (∀ (n day : Nat) (l : Loan),
    [ItemState.requested n, .lent l, .inhouse l, .returned l day].map (fun x => (x.word, x.loan)) =
      [(.requested, none), (.lent, some l), (.inhouse, some l), (.returned, some l)]) ∧
  (∀ (s : State) (tag first : BitVec 16) (table count : BitVec 8), s.running →
    let size := s.tableSize table.toNat
    let head := be 1 table.toNat ++ be 2 first.toNat
    let refused (r : Reason) : Prop :=
      exec (.read tag table first count) s = .next (s.onlyAnswers (.refused tag.toNat 6 r (head ++ be 1 0)))
    [1, 2, 3, 4, 5, 6, 7, 8, 9, 10, 12, 14, 15, 16, 17, 18].map s.tableSize =
      [128, 128, 12, 12, 12, 49152, 12, 24, 256, 6, 16, 8, 48, 12, 1, 1].map some ∧
    s.tableSize 11 = some s.loans.items.length ∧ s.tableSize 13 = some s.returns.staging.length ∧
    (size = none ↔ table.toNat = 0 ∨ 18 < table.toNat) ∧
    (size = none → refused .unknownTable) ∧
    (∀ n, size = some n → count.toNat = 0 → refused .valueRange) ∧
    (∀ n, size = some n → count.toNat ≠ 0 → n ≤ first.toNat → refused .indexRange) ∧
    (∀ n, size = some n → count.toNat ≠ 0 → first.toNat < n →
      ∃ k u,
        let entries := (List.range k).map fun i => s.entryBytes table.toNat (first.toNat + i)
        let room := 233 - entries.flatten.length
        k ≤ count.toNat ∧ first.toNat + k ≤ n ∧ entries.flatten.length ≤ 233 ∧
        (k = count.toNat ∨ first.toNat + k = n ∨ room < (s.entryBytes table.toNat (first.toNat + k)).length) ∧
        exec (.read tag table first count) s = .next (s.closeEvent u (some
          { tag := tag.toNat, kind := 6
            outcome := if k = count.toNat then .done else .partially
            reason := if k = count.toNat then none else if first.toNat + k = n then some .indexRange
              else some .tooLarge
            fields := head ++ be 1 k ++ entries.flatten })) ∧
        u = { s with
          work := Work.empty
          resets :=
            if table = 18 then
              { s.resets with record := { s.resets.record with power := false, pin := false, command := false } }
            else s.resets }) ∧
    exec (.resetRead tag first count) s = exec (.read tag 18 first count) s ∧
    (first = 0 → count = 1 →
      exec (.resetRead tag first count) s = .next (s.closeEvent
        { s with
          work := Work.empty
          resets := { s.resets with record := { s.resets.record with power := false, pin := false, command := false } } }
        (some (.done tag.toNat 6 ([18#8, 0#8, 0#8, 1#8] ++ s.resets.record.bytes)))))) ∧
  (∀ (s : State) (i : Nat),
    let carries (table : Nat) (fs : Fields) : Prop := s.entryBytes table i = fs.bytes
    let flag (b : Bool) : Nat × Nat := (1, if b then 0 else 1)
    let slot (t : Slot) : Fields := [(1, t.aisle), (1, t.face.code), (1, t.level), (1, t.column)]
    let point (p : Point) : Fields := match p with
      | .slot f l c => [(1, 0), (1, f.code), (1, l), (1, c)]
      | .front => [(1, 1), (3, 0)]
      | .infeed => [(1, 2), (3, 0)]
      | .park => [(1, 3), (3, 0)]
      | .crane => [(1, 4), (3, 0)]
    let timer (t : Option Nat) : Fields := ifPresent 3 (t.map fun e => [(3, e - s.now)])
    carries 1 (match s.addr i with
      | .none => [(1, 0), (1, 1), (1, 0), (1, 1), (1, 0)]
      | .crane a => [(1, 1), (1, 0), (1, a), (1, 1), (1, 0)]
      | .lift l => [(1, 2), (1, 0), (1, l), (1, 1), (1, 0)]
      | .station st => [(1, 3), (1, 0), (1, st), (1, 1), (1, 0)]
      | .device z => [(1, 4), (1, 1), (1, 0), (1, 0), (1, z)]) ∧
    carries 2 [(1, (if i < 64 then s.treatDown i else s.treatUp (i - 64)).code)] ∧
    carries 3 [(4, s.counter i)] ∧
    (let p := s.params
     ∀ v, [p.watermark, p.holdTime, p.holdRepeat, p.moveMargin, p.moveAllowance, p.termEnd, p.restoreThreshold,
        p.restoreAge, p.stagingWake, p.orderWake, p.wakeReadyLimit, if p.callKeyInhibit then 1 else 0][i]? = some v →
      carries 4 [(4, v)]) ∧
    (let r := s.aisle i
     carries 5 [(1, r.levels), (1, r.columns), (2, r.frontOffset), (2, r.columnPitch), (2, r.levelPitch),
      (1, if r.leftMirrored then 1 else 0), (1, if r.rightMirrored then 1 else 0), (1, r.frontLevel), (1, r.infeedLevel),
      (1, r.frontSize), (1, r.infeedSize), (1, r.parkColumn), (1, r.parkLevel), (2, r.travelVmax), (2, r.travelAccel),
      (2, r.hoistVmax), (2, r.hoistAccel), (2, r.handling), (1, r.lowerZone), (1, r.upperZone), (1, r.split),
      (1, r.mode.code), (1, r.patronWeight), (1, r.restoreWeight), (1, r.houseWeight)]) ∧
    carries 6 (ifPresent 15 ((s.bin i).map fun r => slot r.home ++ [(1, r.state.code)] ++ ifPresent 4 (r.target.map slot) ++
      [(1, r.staged), flag r.pending, (3, r.itemRefs)])) ∧
    (let x := s.crane i
     carries 7 ([(1, x.state.code)] ++ ifPresent 4 (x.place.map fun p => point p.point) ++
      ifPresent 2 (x.place.map fun p => [(2, p.load.getD 65535)]) ++
      ifPresent 13 (x.flight.map fun f => [(1, f.job.kind.code), (1, f.job.cls.code), (2, f.job.bin), (2, f.tag),
        (3, f.estimate), (3, f.deadline), flag f.late]) ++ ifPresent 1 (x.faultCode.map fun c => [(1, c)]) ++
      [(2, x.patronQueue.length), (2, x.restoreQueue.length), (2, x.houseQueue.length), (1, x.patronCredit),
        (1, x.restoreCredit), (1, x.houseCredit), (1, x.front.length), (1, x.infeed.length),
        (2, 512 - s.recordsTaken), (4, x.unmatched), (4, x.rejected), (4, x.refusedRecoveries)])) ∧
    (let w := s.station i
     carries 8 ([(1, w.kind.code), (1, w.zone), (1, w.laneSize), (3, w.slack), (2, w.orderQueue.length)] ++
      listOf 8 3 (w.lane.map fun l => [(2, l.bin), (1, l.mark.code)]) ++ [(1, w.reservations)] ++
      ifPresent 2 ((w.lane.find? fun l => decide (l.mark = .window)).map fun l => [(2, l.bin)]) ++
      ifPresent 2 (w.owner.map fun n => [(2, n)]) ++ [(2, w.presQueue.length), (4, w.unmatched)])) ∧
    carries 9 (ifPresent 54 ((s.desk.orders.find i).map fun o =>
      [(2, o.number), (1, o.kind.code), (1, o.station), (4, o.patron), (1, o.state.code), flag o.gathered] ++
      ifPresent 3 (o.gatherLimit.map fun g => [(3, g)]) ++ ifPresent 4 (o.gatherStart.map fun g => [(4, g)]) ++
      [(1, o.taken), (1, o.notTaken)] ++
      listOf 8 4 (o.members.map fun m => [(2, m.bin), (1, m.state.code), (1, m.items.length)]))) ∧
    (let r := s.lift i
     carries 10 ([(1, r.zone), (3, r.mask.toNat), (1, r.carriers), (3, r.carryLimit), (2, r.answerLimit)] ++
      ifPresent 1 ((s.liftAddress i).map fun a => [(1, a)]) ++ [(1, r.word.code)] ++
      ifPresent 1 (r.word.seq.map fun q => [(1, q)]) ++
      listOf 4 6 (r.carries.map fun c => [(2, c.tag), (2, c.bin), (1, c.leg.code), flag c.late]) ++
      [(4, r.unmatched), (1, s.pool.pointer), (2, s.pool.waitList.length)])) ∧
    (∀ t e, s.loans.items[i]? = some (t, e) →
      carries 11 [(1, 0), (6, t), (2, e.bin), (1, e.category), (1, e.state.word.code),
        (2, match e.state with
          | .requested n => n
          | _ => 0),
        (2, (e.state.loan.map (·.lendDay)).getD 0), (2, (e.state.loan.map (·.dueDay)).getD 0),
        (1, (e.state.loan.map (·.renewals)).getD 0),
        (2, match e.state with
          | .returned _ d => d
          | _ => 0)]) ∧
    (let c := s.lendClass i
     carries 12 [(1, c.cls.code), (2, c.period), (1, c.renewLimit)]) ∧
    (∀ e, s.returns.staging[i]? = some e → carries 13 [(6, e.item), (2, e.bin), (2, e.scanDay), (2, e.age)]) ∧
    (let r := s.zone i
     let lineField (n : Nat) : Fields := ifPresent 1 (if (s.line n).selection = .first then some [(1, n)] else none)
     carries 14 (lineField i ++ lineField (8 + i) ++ lineField (16 + i) ++ lineField (24 + i) ++
      [(2, r.debounce), (2, r.parkAllowance), (2, r.brakeSettle), (3, r.shutterLimit), (3, r.readyLimit),
        (1, r.state.code)] ++ ifPresent 1 (r.cause.map fun c => [(1, c.code)]) ++
      [flag r.fault, flag (decide ((s.line i).selection = .first ∧ s.lineValue i = true)), flag r.debounceTimer.isSome] ++
      timer r.timer)) ∧
    (let l := s.line i
     let input := (s.function i).input
     let active (b : Bool) : Bool := if l.polarity = .activeHigh then b else !b
     let driven : Bool := match s.function i with
       | .generalOut => l.output
       | .shutterClose z => decide (z ∈ s.outputs.shutters)
       | .driveEnable a => decide (a ∈ s.outputs.drives)
       | .beacon => s.outputs.beacon
       | _ => false
     let high : Bool := if input then l.pin else active driven
     let value : Bool := if input then active l.pin else driven
     carries 15 [(1, l.selection.code), (1, l.polarity.code), flag l.output, (1, (s.function i).code), flag input, flag high,
      flag (value && decide ¬ (s.function i = .callKey ∧ s.params.callKeyInhibit = true)), flag l.keyTimer.isSome]) ∧
    carries 16 [(1, (s.pull i).code)] ∧
    (let m := s.mode
     let moving (a : Nat) : Bool := decide ((s.crane a).state ∈ [CraneState.ready, .busy, .parking])
     carries 17 ([(1, m.mode.code)] ++ ifPresent 1 (m.phase.map fun p => [(1, p.code)]) ++ timer m.timer ++
      [(1, (m.awaited.filter moving).length), (2, m.lastStaging), (2, m.lastWaiting)])) ∧
    (let r := s.resets.record
     carries 18 [flag r.power, flag r.pin, flag r.command, (1, r.count)])) ∧
  ([Treatment.pass, .guard, .drop].map Treatment.code = [0, 1, 2] ∧ [Face.left, .right].map Face.code = [0, 1] ∧
    [SchedMode.strict, .weighted].map SchedMode.code = [0, 1] ∧
    [BinState.stored, .reserved, .out, .moving, .blocked, .stranded, .adrift].map BinState.code = List.range 7 ∧
    [CraneState.offline, .ready, .busy, .parking, .parked, .faulted].map CraneState.code = List.range 6 ∧
    [JobKind.fetch, .store, .relocate].map JobKind.code = List.range 3 ∧
    [JobClass.patron, .restore, .house].map JobClass.code = List.range 3 ∧
    [StationKind.pick, .reshelve, .chute].map StationKind.code = List.range 3 ∧
    [LaneMark.lined, .window, .outbound].map LaneMark.code = List.range 3 ∧
    [OrderKind.patron, .restore].map OrderKind.code = List.range 2 ∧
    [OrderState.waiting, .admitted, .presenting].map OrderState.code = List.range 3 ∧
    [MemberState.waitBin, .queued, .fetching, .atFront, .carrying, .inLane, .atWindow, .returning, .done, .stranded,
      .failed, .cancelled].map MemberState.code = List.range 12 ∧
    (∀ q, [Word.off, .ask, .on q, .tail q, .bar].map Word.code = List.range 5) ∧
    [Leg.up, .down].map Leg.code = List.range 2 ∧
    [ItemWord.requested, .lent, .inhouse, .returned].map ItemWord.code = List.range 4 ∧
    [LendClass.loanable, .inhouseOnly, .notLendable].map LendClass.code = List.range 3 ∧
    [ZoneState.clear, .stopping, .settling, .closing, .sealed, .opening, .enabling].map ZoneState.code = List.range 7 ∧
    [ZoneCause.alarm, .manual].map ZoneCause.code = List.range 2 ∧
    [Selection.generalIn, .generalOut, .first, .second].map Selection.code = List.range 4 ∧
    [Polarity.activeHigh, .activeLow].map Polarity.code = List.range 2 ∧
    (∀ n, [LineFunction.generalIn, .zoneAlarm n, .shutterClosed n, .shutterOpen n, .callKey, .generalOut, .shutterClose n,
      .driveEnable n, .beacon].map LineFunction.code = List.range 9) ∧
    [Pull.none, .up, .down].map Pull.code = List.range 3 ∧
    [Mode.run, .draining, .quiet, .waking].map Mode.code = List.range 4 ∧
    [DrainPhase.work, .parkWait].map DrainPhase.code = List.range 2)

/-! ## The Loan Table -/

/-- RENEW: the tests in order, each with its reason; a granted renewal stores the new due day and raises the renewals
by one. The ANSWER carries the tag and the entry's due day and renewals as they stand after the event, 0 for both
where the entry is not LENT. Nothing else changes (R134). -/
def Obligations.RenewMovesTheDueDay : Prop :=
  ∀ (s : State) (tag : BitVec 16) (item : BitVec 48), s.running →
    let held : Nat × Nat := match s.item item.toNat with
      | some { state := .lent l, .. } => (l.dueDay, l.renewals)
      | _ => (0, 0)
    let refused (r : Reason) : Prop :=
      exec (.renew tag item) s =
        .next (s.onlyAnswers (.refused tag.toNat 3 r (be 6 item.toNat ++ be 2 held.1 ++ be 1 held.2)))
    (item.toNat = 0 → refused .valueRange) ∧
    (item.toNat ≠ 0 → s.item item.toNat = none → refused .itemUnknown) ∧
    (∀ e, item.toNat ≠ 0 → s.item item.toNat = some e → e.state.word ≠ .lent → refused .wrongState) ∧
    ∀ e l, item.toNat ≠ 0 → s.item item.toNat = some e → e.state = .lent l →
      let c := s.lendClass e.category
      let due := s.dueDay c.period
      (c.cls ≠ .loanable → refused .notLendable) ∧
      (c.cls = .loanable → c.renewLimit ≤ l.renewals → refused .renewLimit) ∧
      (c.cls = .loanable → l.renewals < c.renewLimit → due ≤ l.dueDay → refused .noExtension) ∧
      (c.cls = .loanable → l.renewals < c.renewLimit → l.dueDay < due →
        ∃ u, exec (.renew tag item) s =
            .next (s.closeEvent u (some (.done tag.toNat 3 (be 6 item.toNat ++ be 2 due ++ be 1 (l.renewals + 1))))) ∧
          (∀ t, u.item t = if t = item.toNat then
              some { e with state := .lent { l with dueDay := due, renewals := l.renewals + 1 } } else s.item t) ∧
          u = { s with loans := { s.loans with items := u.loans.items }, work := Work.empty })

/-- DAY: a day before today is refused with VALUE_RANGE; otherwise today becomes the day, and the ANSWER carries it
with the number of LENT entries and of INHOUSE entries whose due day lies before it. Nothing else changes (R128). -/
def Obligations.DaySetsToday : Prop :=
  ∀ (s : State) (tag day : BitVec 16), s.running →
    let overdue (w : ItemWord) : Nat := s.loans.items.countP fun p =>
      decide (p.2.state.word = w) && decide (∃ l, p.2.state.loan = some l ∧ l.dueDay < day.toNat)
    (day.toNat < s.loans.today →
      exec (.day tag day) s = .next (s.onlyAnswers (.refused tag.toNat 7 .valueRange))) ∧
    (s.loans.today ≤ day.toNat →
      exec (.day tag day) s = .next (s.closeEvent
        { s with loans := { s.loans with today := day.toNat }, work := Work.empty }
        (some (.done tag.toNat 7 (be 2 day.toNat ++ be 3 (overdue .lent) ++ be 3 (overdue .inhouse))))))

/-- A due day: today plus the period, held at term end where term end is set, not past, and passed by it, and at 65535
at most. -/
def Obligations.DueDayFromTodayPeriodAndTermEnd : Prop :=
  ∀ (s : State) (p : Nat),
    let first := s.loans.today + p
    let term := s.params.termEnd
    (term ≠ 0 → s.loans.today ≤ term → term < first → s.dueDay p = min 65535 term) ∧
    (term = 0 ∨ term < s.loans.today ∨ first ≤ term → s.dueDay p = min 65535 first)

/-- ITEM_OUT: the verdicts of R131 in order. An accepted item becomes a loan by its category's class, the order counts
it, NOTICE LENT goes up, and VERDICT ACCEPT with the due day goes to the station; a refusal sends its VERDICT and
changes nothing else. A station without an address is not reported for (R95, R131, R132). The patron of a loan is that
of the order in use. -/
def Obligations.ItemOutLends : Prop :=
  (∀ (s : State) (n : Nat) (o : Order), s.order n = some o → s.patronOf n = o.patron) ∧
  ∀ (s : State) (st : Fin 24) (tag : BitVec 16) (item : BitVec 48), s.running →
    let c := Instr.itemOut st tag item
    let t := item.toNat
    let w := s.station st
    let verdict (a : Nat) (r : Option Reason) (due : Nat) : Queued :=
      { telegram := { dest := a, src := 126, kind := 30, tag := 0
                      body := be 2 tag.toNat ++ be 1 (if r = none then 0 else 1) ++ be 1 (reasonCode r) ++ be 2 due }
        cls := .kept }
    let refused (a : Nat) (r : Reason) : Prop :=
      exec c s = .next (s.closeEvent { s with work := { Work.empty with down := [verdict a (some r) 0] } } none)
    let requested (e : Item) (n : Nat) : Prop := s.item t = some e ∧ e.state = .requested n ∧ w.owner = some n ∧
      ∃ l, w.window = some l ∧ l.bin = e.bin
    (s.stationAddress st = none → exec c s = .next (s.closeEvent s.beginEvent none)) ∧
    ∀ a, s.stationAddress st = some a →
      (w.kind ≠ .pick → refused a .stationUnfit) ∧
      (w.kind = .pick → (¬ ∃ e n, requested e n) → refused a .notRequested) ∧
      ∀ e n, w.kind = .pick → requested e n →
        let cl := s.lendClass e.category
        let due := if cl.cls = .loanable then s.dueDay cl.period else s.loans.today
        let loan : Loan := { lendDay := s.loans.today, dueDay := due, renewals := 0 }
        let state : ItemState := if cl.cls = .loanable then .lent loan else .inhouse loan
        (cl.cls = .notLendable → refused a .notLendable) ∧
        (cl.cls ≠ .notLendable →
          ∃ u, exec c s = .next (s.closeEvent u none) ∧
            (∀ k, u.item k = if k = t then some { e with state } else s.item k) ∧
            (∀ k, u.order k = (s.order k).map fun o => if k = n then { o with taken := o.taken + 1 } else o) ∧
            u = { s with
              loans := { s.loans with items := u.loans.items }
              desk := { s.desk with orders := u.desk.orders }
              work := { Work.empty with
                up := [.notice (.lent n (s.patronOf n) t state.word due)], down := [verdict a none due] } })

/-! ## The Return Unit -/

/-- ITEM_IN: the verdicts and notices of R140 in order. An accepted item becomes RETURNED with today's scan day, joins
the tail of the staging list and its bin's staged count, and the open item list of its bin's restore order; NOTICE
RETURNED goes up and VERDICT ACCEPT with the loan's due day to the chute; the length of the list is handed to Mode
Control, and a creation attempt for the bin is owed (R139 to R141, R145, R147, R189). -/
def Obligations.ItemInStages : Prop :=
  ∀ (s : State) (st : Fin 24) (tag : BitVec 16) (item : BitVec 48), s.running →
    let c := Instr.itemIn st tag item
    let t := item.toNat
    let verdict (a : Nat) (r : Option Reason) (due : Nat) : Queued :=
      { telegram := { dest := a, src := 126, kind := 30, tag := 0
                      body := be 2 tag.toNat ++ be 1 (if r = none then 0 else 1) ++ be 1 (reasonCode r) ++ be 2 due }
        cls := .kept }
    let refused (a : Nat) (r : Reason) (up : List UpMsg) : Prop :=
      exec c s = .next (s.closeEvent { s with work := { Work.empty with up, down := [verdict a (some r) 0] } } none)
    let exception (r : Reason) : List UpMsg := [.notice (.exception st t r)]
    (s.stationAddress st = none → exec c s = .next (s.closeEvent s.beginEvent none)) ∧
    ∀ a, s.stationAddress st = some a →
      ((s.station st).kind ≠ .chute → refused a .stationUnfit []) ∧
      ((s.station st).kind = .chute → s.item t = none → refused a .itemUnknown (exception .itemUnknown)) ∧
      (∀ e, (s.station st).kind = .chute → s.item t = some e → (e.state.word = .requested ∨ e.state.word = .returned) →
        refused a .itemBusy (exception .itemBusy)) ∧
      ∀ e l, (s.station st).kind = .chute → s.item t = some e → (e.state = .lent l ∨ e.state = .inhouse l) →
        let full := 4096 ≤ s.returns.staging.length ∨ ∃ r, s.bin e.bin = some r ∧ 64 ≤ r.staged
        let listed (o : Order) : Order :=
          if o.kind = .restore ∧ o.listOpen = true ∧ ∃ m ∈ o.members, m.bin = e.bin then
            { o with members := o.members.map fun m => if m.bin = e.bin then { m with items := m.items ++ [t] } else m }
          else o
        (full → refused a .stagingFull []) ∧
        (¬ full →
          ∃ u : State,
            (∀ k, u.item k = if k = t then some { e with state := .returned l s.loans.today } else s.item k) ∧
            (∀ b, u.bin b = if b = e.bin then
              (s.bin b).map fun r => { r with staged := r.staged + 1 } else s.bin b) ∧
            u.desk.orders = s.desk.orders.mapVals listed ∧
            u = { s with
              loans := { s.loans with items := u.loans.items }
              store := { s.store with bins := u.store.bins }
              desk := { s.desk with orders := u.desk.orders }
              returns := { s.returns with
                staging := s.returns.staging ++ [{ item := t, bin := e.bin, scanDay := s.loans.today, age := 0 }] }
              work := { Work.empty with
                up := [.notice (.returned st t e.bin e.state.word l.dueDay s.loans.today)]
                down := [verdict a none l.dueDay] } } ∧
            exec c s = .next (s.eventEnds (u.handStaging.oweRestore (.bin e.bin))))

/-- INTO_BIN: REFUSE STATION_UNFIT, REFUSE NOT_STAGED, or an accepted item: its entry, its staging entry and one unit
of its bin's counts are removed, the order counts it, NOTICE RESTORED goes up and VERDICT ACCEPT to the station, and
the length of the list is handed to Mode Control (R38, R95, R148, R189). -/
def Obligations.IntoBinRestores : Prop :=
  ∀ (s : State) (st : Fin 24) (tag : BitVec 16) (item : BitVec 48), s.running → s.Tidy →
    let c := Instr.intoBin st tag item
    let t := item.toNat
    let w := s.station st
    let verdict (a : Nat) (r : Option Reason) : Queued :=
      { telegram := { dest := a, src := 126, kind := 30, tag := 0
                      body := be 2 tag.toNat ++ be 1 (if r = none then 0 else 1) ++ be 1 (reasonCode r) ++ be 2 0 }
        cls := .kept }
    let refused (a : Nat) (r : Reason) : Prop :=
      exec c s = .next (s.closeEvent { s with work := { Work.empty with down := [verdict a (some r)] } } none)
    let staged (e : Item) (r : MemberRef) : Prop := s.item t = some e ∧ e.state.word = .returned ∧
      ∃ l m, w.window = some l ∧ l.bin = e.bin ∧ l.ref = r ∧ s.member r = some m ∧ m.state = .atWindow ∧ t ∈ m.items
    (s.stationAddress st = none → exec c s = .next (s.closeEvent s.beginEvent none)) ∧
    ∀ a, s.stationAddress st = some a →
      (w.kind ≠ .reshelve → refused a .stationUnfit) ∧
      (w.kind = .reshelve → (¬ ∃ e r, staged e r) → refused a .notStaged) ∧
      ∀ e r, w.kind = .reshelve → staged e r →
        ∃ u : State,
          (∀ k, u.item k = if k = t then none else s.item k) ∧
          (∀ b, u.bin b = if b = e.bin then
            (s.bin b).map fun x => { x with itemRefs := x.itemRefs - 1, staged := x.staged - 1 } else s.bin b) ∧
          (∀ k, u.order k = (s.order k).map fun o => if k = r.order then { o with taken := o.taken + 1 } else o) ∧
          u = { s with
            loans := { s.loans with items := u.loans.items }
            store := { s.store with bins := u.store.bins }
            desk := { s.desk with orders := u.desk.orders }
            returns := { s.returns with staging := s.returns.staging.filter fun x => decide (x.item ≠ t) }
            work := { Work.empty with up := [.notice (.restored r.order t e.bin)], down := [verdict a none] } } ∧
          exec c s = .next (s.eventEnds u.handStaging)

/-- The minute timer's expiry: every staging entry grows one minute older, up to 65535, the timer runs for another
minute, and a restore pass is owed; while the timer does not run the command has no effect (the model's choice, log
entry 12) (R142). A creation attempt for a bin that is due, in RUN, STORED and not pending, takes the fitting RESHELVE
station with the fewest orders not yet presenting, the absent record of lowest index, and the first free restore
number, its member in WAIT_BIN (log entry 20), and its admission pass follows at once, before the next attempt of a
pass (log entry 23); with one of these wanting it does nothing (R87, R144 to R146). Every step keeps the law of the
item entries and of the staging list (R38, R124, R139). A pass attempts each bin of the list once, where it first
stands in it. -/
def Obligations.MinuteTimerAgesTheList : Prop :=
  (∀ s : State, s.running →
    (s.returns.minuteTimer = none → exec .minuteTimerExpiry s = .next (s.closeEvent s.beginEvent none)) ∧
    ∀ m, s.returns.minuteTimer = some m →
      exec .minuteTimerExpiry s = .next (s.eventEnds
        { s with
          returns :=
            { staging := s.returns.staging.map fun e => { e with age := if e.age < 65535 then e.age + 1 else e.age }
              minuteTimer := some (s.now + 60000) }
          work := { Work.empty with restore := [.pass] } })) ∧
  (∀ (s : State) (b : Nat), s.Tidy →
    let due (r : Bin) : Prop := s.params.restoreThreshold ≤ r.staged ∨
      ∃ x, (s.returns.staging.find? fun x => decide (x.bin = b)) = some x ∧ s.params.restoreAge ≤ x.age
    let ready (r : Bin) : Prop := due r ∧ s.mode.mode = .run ∧ r.state = .stored ∧ r.pending = false
    let fits (st : Nat) : Prop := st < 24 ∧ (s.station st).kind = .reshelve ∧ s.stationAddress st ≠ none ∧
      (s.zone (s.station st).zone).state = .clear
    let coming (st : Nat) : Nat := s.desk.orders.countP fun p => decide (p.2.station = st ∧ p.2.state ≠ .presenting)
    let number (k : Nat) : Nat := repeatTimes (fun n => if n < 65535 then n + 1 else 32768) k s.desk.restoreNumber
    ((∀ r, s.bin b = some r → ¬ ready r) → State.restoreAttempt b s = s) ∧
    ((∀ st, ¬ fits st) → State.restoreAttempt b s = s) ∧
    ((∀ i, i < 256 → (s.desk.orders.find i).isSome = true) → State.restoreAttempt b s = s) ∧
    ∀ r st i k, s.bin b = some r → ready r →
      fits st → (∀ y, fits y → coming st < coming y ∨ (coming st = coming y ∧ st ≤ y)) →
      i < 256 → s.desk.orders.find i = none → (∀ j, j < i → (s.desk.orders.find j).isSome = true) →
      k < 256 → s.order (number k) = none → (∀ j, j < k → s.order (number j) ≠ none) →
      ∃ u : State,
        (∀ c, u.bin c = if c = b then some { r with pending := true } else s.bin c) ∧
        (∀ j, j ≠ i → u.desk.orders.find j = s.desk.orders.find j) ∧
        u.desk.orders.find i = some
          { number := number k, kind := .restore, station := st, patron := 0, state := .waiting, gathered := false
            gatherLimit := none, gatherStart := none, gatherTimer := none, taken := 0, notTaken := 0, admission := 0
            listOpen := true
            members := [{ bin := b, state := .waitBin, held := 0
                          items := (s.returns.staging.filter fun x => decide (x.bin = b)).map (·.item) }] } ∧
        (∀ j, u.station j = if j = st then
          { s.station st with orderQueue := (s.station st).orderQueue ++ [number k] } else s.station j) ∧
        u = { s with
          store := { s.store with bins := u.store.bins }
          desk := { s.desk with orders := u.desk.orders, stations := u.desk.stations, restoreNumber := number (k + 1) }
          work := { s.work with waiting := true, hold := true } } ∧
        State.restoreAttempt b s = u.admissionPass) ∧
  (∀ s : State, s.restorePass = forEach (firstOnly [] (s.returns.staging.map (·.bin))) State.restoreAttempt s) ∧
  (firstOnly [] [] = [] ∧
    ∀ (l : List Nat) (x : Nat), firstOnly [] (l ++ [x]) = if x ∈ l then firstOnly [] l else firstOnly [] l ++ [x]) ∧
  ∀ s t : State, s.Tidy → s.itemLaw → step s = .next t → t.itemLaw

/-- The staging list's length, handed to Mode Control, and the waiting count are kept there; while the mode is QUIET a
count that has reached its threshold wakes the part, with cause STAGING or ORDERS. That each hand-over compares both
thresholds, staging first, is the model's choice (log entry 24) (R189). The drain test of DRAINING parks every crane
and begins the park wait once no order is past admission, no job in use and no carry in flight (R186); the park wait
parks the cranes that are READY or BUSY, each in ascending aisle number (log entry 22), and ends in QUIET once no
awaited crane is READY, BUSY or PARKING (R187); and the ready test of WAKING goes to RUN once every counted crane is
READY (R190). The comparison that a new threshold asks for is the same. A crane is counted while its aisle is
configured, it has an address, its drive is enabled and it is not FAULTED (R190). -/
def Obligations.ThresholdsWakeTheQuietPart : Prop :=
  (∀ s : State,
    let staged := { s with mode := { s.mode with lastStaging := s.returns.staging.length } }
    let waiting := { s with mode := { s.mode with lastWaiting := s.waitingCount } }
    let wakes (u : State) : State :=
      if u.params.stagingWake ≠ 0 ∧ u.params.stagingWake ≤ u.mode.lastStaging then u.changeMode .waking .staging
      else if u.params.orderWake ≠ 0 ∧ u.params.orderWake ≤ u.mode.lastWaiting then u.changeMode .waking .orders
      else u
    (s.mode.mode ≠ .quiet → s.handStaging = staged ∧ s.handWaiting = waiting ∧ s.thresholdTest = s) ∧
    (s.mode.mode = .quiet →
      s.handStaging = wakes staged ∧ s.handWaiting = wakes waiting ∧ s.thresholdTest = wakes s)) ∧
  (∀ (s : State) (a : Nat), s.counted a = true ↔
    (s.aisle a).configured = true ∧ s.craneAddress a ≠ none ∧ s.driveLevel a = true ∧ (s.crane a).state ≠ .faulted) ∧
  (∀ (s : State) (a : Nat), s.Tidy →
    let x := s.crane a
    ((s.aisle a).configured = false ∨ s.craneAddress a = none ∨ (x.state ≠ .ready ∧ x.state ≠ .busy) →
      State.parkCrane a s = s) ∧
    ((s.aisle a).configured = true → s.craneAddress a ≠ none → x.state = .ready ∨ x.state = .busy →
      ∃ u : State,
        (∀ k, u.crane k = if k = a then { x with state := .parking } else s.crane k) ∧
        u = { s with
          dispatch := { s.dispatch with cranes := u.dispatch.cranes }
          work := { s.work with
            control := true, down := s.work.down ++ toUnit (s.craneAddress a) 25 Point.park.bytes .kept } } ∧
        State.parkCrane a s = u)) ∧
  ∀ s : State,
    let moving (u : State) (a : Nat) : Prop := (u.crane a).state ∈ [CraneState.ready, .busy, .parking]
    let drained := (∀ p ∈ s.desk.orders, p.2.state = .waiting) ∧ s.jobs = [] ∧ s.carries = []
    let draining (p : DrainPhase) : Prop := s.mode.mode = .draining ∧ s.mode.phase = some p
    let configured := (List.range 12).filter fun a => (s.aisle a).configured
    let parked := forEach configured State.parkCrane { s with mode := { s.mode with phase := some .parkWait } }
    let awaited := configured.filter fun a =>
      decide (s.craneAddress a ≠ none ∧ parked.parkContribution a ≠ none ∧ (parked.crane a).state ≠ .busy)
    let waited := forEach
      ((List.range 12).filter fun a => decide ((s.crane a).state = .ready ∨ (s.crane a).state = .busy)) State.parkCrane s
    let unready := ∃ a, a < 12 ∧ s.counted a = true ∧ (s.crane a).state ≠ .ready
    (¬ (draining .work ∧ drained) → s.drainTest = s) ∧
    (draining .work → drained → s.drainTest =
      { parked with
        mode := { parked.mode with
          timer := some (s.now + parked.parkDeadline configured s.params.moveAllowance), awaited }
        work := { parked.work with modeTest := true } }) ∧
    (¬ draining .parkWait → s.parkWaitTest = s) ∧
    (draining .parkWait →
      ((∃ a ∈ s.mode.awaited, moving waited a) → s.parkWaitTest = waited) ∧
      ((∀ a ∈ s.mode.awaited, ¬ moving waited a) → s.parkWaitTest = waited.changeMode .quiet .drained)) ∧
    (s.mode.mode ≠ .waking ∨ unready → s.wakeTest = s) ∧
    (s.mode.mode = .waking → ¬ unready → s.wakeTest = s.changeMode .run .ready)


/-! ## The Order Unit -/

/-- ORDER: the tests of the whole in order, each with its reason; then one outcome per listed item, and a refusal with
the first item's reason where none is accepted. The ANSWER has one byte for each listed item (R23); that an ORDER
refused whole carries the reason of the whole in each, and a refused one record index 0, is log entry 31. Otherwise
each accepted item becomes a REQUESTED entry counted at its bin, a WAITING order of one member per distinct bin (its
members in WAIT_BIN, log entry 20) takes the absent record of lowest index and joins its station's queue, and an
admission pass is owed; the ANSWER is DONE, or PARTIAL with the first refused item's reason (R85, R86, R125). The
admission pass goes over the stations in ascending index. The head of a queue is admitted only in RUN, with the
station's zone CLEAR, room in the lane for every member, and 32 records more than two per member free. It then leaves
the queue with its places reserved, its records held, its gather limit computed and its place among the admissions; a
member whose bin is STORED has its FETCH asked for, any other waits in WAIT_BIN (R88, R89, R55). -/
def Obligations.OrderTakesARecord : Prop :=
  (∀ (s : State) (tag number : BitVec 16) (station : BitVec 8) (patron : BitVec 32) (items : List OrderItem),
    s.running → s.Tidy → items ≠ [] →
    let c := Instr.order tag number station patron items
    let num := number.toNat
    let refused (r : Reason) (outcomes : List (Option Reason)) : Prop :=
      exec c s = .next (s.onlyAnswers (.refused tag.toNat 1 r
        (be 2 num ++ be 1 0 ++ outcomes.flatMap fun o => be 1 (reasonCode o))))
    let whole (r : Reason) : Prop := refused r (items.map fun _ => some r)
    let ranged := num ≤ 32767 ∧ station.toNat ≤ 127
    let bins (is : List OrderItem) : List Nat := firstOnly [] (is.map fun x => x.bin.toNat)
    let full := ∀ i, i < 256 → (s.desk.orders.find i).isSome = true
    (¬ ranged → whole .valueRange) ∧
    (ranged → s.order num ≠ none → whole .orderExists) ∧
    (ranged → s.order num = none →
      (¬ ∃ st, s.addr station.toNat = .station st ∧ (s.station st).kind = .pick) → whole .stationUnfit) ∧
    ∀ st, ranged → s.order num = none → s.addr station.toNat = .station st → (s.station st).kind = .pick →
      ((s.zone (s.station st).zone).state ≠ .clear → whole .zoneShut) ∧
      ((s.zone (s.station st).zone).state = .clear → full → whole .orderTableFull) ∧
      ((s.zone (s.station st).zone).state = .clear → ¬ full → (s.station st).laneSize < (bins items).length →
        whole .tooLarge) ∧
      ((s.zone (s.station st).zone).state = .clear → (bins items).length ≤ (s.station st).laneSize →
        ∀ i, i < 256 → s.desk.orders.find i = none → (∀ j, j < i → (s.desk.orders.find j).isSome = true) →
        ∃ outcomes : List (Option Reason), outcomes.length = items.length ∧
          (∀ k x, items[k]? = some x → outcomes[k]? = some (
            if x.item.toNat = 0 ∨ 15 < x.category.toNat then some .valueRange
            else if ∃ y ∈ items.take k, y.item = x.item then some .duplicate
            else
              match s.binState x.bin.toNat with
              | none => some .binUnknown
              | some w =>
                if w = .blocked ∨ w = .stranded ∨ w = .adrift then some .binBusy
                else if s.item x.item.toNat ≠ none then some .itemBusy
                else if 65536 ≤ s.loans.items.length + (outcomes.take k).countP Option.isNone then some .itemTableFull
                else none)) ∧
          (∀ r, (∀ o ∈ outcomes, o ≠ none) → outcomes.head? = some (some r) → refused r outcomes) ∧
          ((∃ o ∈ outcomes, o = none) →
            let accepted := (items.zip outcomes).filterMap fun p => if p.2 = none then some p.1 else none
            ∃ u : State,
              (∀ x ∈ accepted, u.item x.item.toNat = some
                { bin := x.bin.toNat, category := x.category.toNat, state := .requested num }) ∧
              (∀ t, (∀ x ∈ accepted, x.item.toNat ≠ t) → u.item t = s.item t) ∧
              (∀ b, u.bin b = (s.bin b).map fun r =>
                { r with itemRefs := r.itemRefs + accepted.countP fun x => decide (x.bin.toNat = b) }) ∧
              (∀ j, j ≠ i → u.desk.orders.find j = s.desk.orders.find j) ∧
              u.desk.orders.find i = some
                { number := num, kind := .patron, station := st, patron := patron.toNat, state := .waiting
                  gathered := false, gatherLimit := none, gatherStart := none, gatherTimer := none, taken := 0
                  notTaken := 0, admission := 0, listOpen := false
                  members := (bins accepted).map fun b =>
                    { bin := b, state := .waitBin, held := 0
                      items := (accepted.filter fun x => decide (x.bin.toNat = b)).map fun x => x.item.toNat } } ∧
              (∀ k, u.station k = if k = st then
                { s.station st with orderQueue := (s.station st).orderQueue ++ [num] } else s.station k) ∧
              u = { s with
                loans := { s.loans with items := u.loans.items }
                store := { s.store with bins := u.store.bins }
                desk := { s.desk with orders := u.desk.orders, stations := u.desk.stations }
                work := { Work.empty with admission := true, waiting := true, hold := true } } ∧
              exec c s = .next (s.requestEnds u
                { tag := tag.toNat, kind := 1
                  outcome := if ∀ o ∈ outcomes, o = none then .done else .partially
                  reason := (outcomes.filterMap fun o => o).head?
                  fields := be 2 num ++ be 1 i ++ outcomes.flatMap fun o => be 1 (reasonCode o) })))) ∧
  (∀ (s : State) (st n : Nat) (rest : List Nat) (o : Order), s.Tidy →
    (s.station st).orderQueue = n :: rest → s.order n = some o →
    let w := s.station st
    let k := o.members.length
    let admits := s.mode.mode = .run ∧ (s.zone w.zone).state = .clear ∧
      k + (w.lane.length + w.reservations) ≤ w.laneSize ∧ 32 + 2 * k ≤ 512 - s.recordsTaken
    (¬ admits → State.admissionStep st s = s) ∧
    (admits →
      ∃ u : State,
        (∀ j, u.station j = if j = st then { w with orderQueue := rest, reservations := w.reservations + k }
          else s.station j) ∧
        (∀ j, u.order j = (s.order j).map fun p => if j = n then
          { p with
            state := .admitted, admission := s.desk.admissions
            gatherLimit := some (s.gatherLimit (o.members.map (·.bin)) w.slack)
            members := p.members.map fun m => { m with held := 2, state := .waitBin } } else p) ∧
        u = { s with
          desk := { s.desk with
            stations := u.desk.stations, orders := u.desk.orders, admissions := s.desk.admissions + 1 }
          work := { s.work with waiting := true, hold := true } } ∧
        (s.laneFits st → u.laneFits st) ∧
        State.admissionStep st s =
          forEach ((List.range k).map fun i => { order := n, pos := i }) State.admitMember u)) ∧
  (∀ (s : State) (st : Nat), (s.station st).orderQueue = [] → State.admissionStep st s = s) ∧
  (∀ (s : State) (r : MemberRef) (m : Member), s.member r = some m →
    (s.binState m.bin ≠ some .stored → State.admitMember r s = s) ∧
    (s.binState m.bin = some .stored → State.admitMember r s = s.requestFetch r m.bin)) ∧
  ∀ s : State, s.admissionPass = forEach (List.range 24)
    (fun st t => repeatTimes (State.admissionStep st) (t.station st).orderQueue.length t) s

/-- CANCEL: ORDER_UNKNOWN; a WAITING order leaves its station's queue and the table, its REQUESTED items are removed
and reported as not taken, a restore order's flag is cleared, and the ANSWER carries 0 members; an order past
admission has its members cancelled in member order, and the ANSWER carries the number of those in a state that a
CANCEL still finds. A member becomes CANCELLED, has its REQUESTED items removed, and by its stage gives up its
reservation, its FETCH while that is queued, its place on the carry wait list or its held records, has its bin stored
again, sent down or withdrawn, or is left to be met at its arrival (R99, R100). That the gather, the window and the
end are tested once, after the last member, is the model's choice (log entry 14). Items given up lose their entries
and their place in the reference counts, are counted by the order, and are reported each by a NOTICE NOT_TAKEN (R126),
those of a whole order member by member (log entry 53). The class of a member's jobs is that of its order's kind, the
aisle of a bin that of its home slot; records that are given up set the member's held number to 0 and owe the
admission pass and the drain test, where it held any. -/
def Obligations.CancelTakesAnOrderBack : Prop :=
  (∀ (s : State) (r : MemberRef) (o : Order), s.order r.order = some o →
    s.memberClass r = if o.kind = .patron then .patron else .restore) ∧
  (∀ (s : State) (b : Nat) (x : Bin), s.bin b = some x → s.binAisle b = x.home.aisle) ∧
  (∀ (s : State) (r : MemberRef), s.Tidy →
    let held := ∃ m, s.member r = some m ∧ m.held ≠ 0
    ∃ u : State,
      (∀ k, u.order k = (s.order k).map fun p =>
        if k = r.order then { p with members := p.members.modify r.pos fun x => { x with held := 0 } } else p) ∧
      u = { s with
        desk := { s.desk with orders := u.desk.orders }
        work := { s.work with
          admission := s.work.admission || decide held, drain := s.work.drain || decide held } } ∧
      s.releaseHeld r = u) ∧
  (∀ (s : State) (tag number : BitVec 16), s.running → s.Tidy →
    let c := Instr.cancel tag number
    let num := number.toNat
    (s.order num = none → exec c s = .next (s.onlyAnswers (.refused tag.toNat 2 .orderUnknown))) ∧
    (∀ o, s.order num = some o → o.state = .waiting →
      let removed := s.requestedOf num (o.members.flatMap (·.items))
      ∃ u : State,
        (∀ t, u.item t = if t ∈ removed then none else s.item t) ∧
        (∀ b, u.bin b = (s.bin b).map fun r =>
          { r with
            itemRefs := r.itemRefs - s.homedIn b removed
            pending := if o.kind = .restore ∧ ∃ m ∈ o.members, m.bin = b then false else r.pending }) ∧
        (∀ k, u.station k = if k = o.station then
          { s.station k with orderQueue := (s.station k).orderQueue.filter fun n => decide (n ≠ num) } else s.station k) ∧
        u = { s with
          loans := { s.loans with items := u.loans.items }
          store := { s.store with bins := u.store.bins }
          desk := { s.desk with
            stations := u.desk.stations, orders := s.desk.orders.filter fun p => decide (p.2.number ≠ num) }
          work := { Work.empty with
            up := removed.map fun t => .notice (.notTaken num o.patron t .cancel)
            drain := true, admission := true, waiting := true, hold := true
            restore := (if o.kind = .restore then o.members.map fun m => .bin m.bin else []) ++ [.pass] } } ∧
        exec c s = .next (s.requestEnds u (.done tag.toNat 2 (be 1 0)))) ∧
    ∀ o, s.order num = some o → o.state ≠ .waiting →
      let stages : List MemberState := [.waitBin, .queued, .fetching, .atFront, .carrying, .inLane, .atWindow]
      let members : List MemberRef := (List.range o.members.length).map fun i => { order := num, pos := i }
      exec c s = .next (s.requestEnds ((forEach members (State.cancelMember o.station) s.beginEvent).settleOrder num)
        (.done tag.toNat 2 (be 1 (o.members.countP fun m => decide (m.state ∈ stages)))))) ∧
  (∀ (s : State) (st : Nat) (r : MemberRef) (m : Member), s.Tidy → s.member r = some m →
    let becomes (f : Member → Member) (w : Station → Station) (waits : List WaitEntry → List WaitEntry)
        (work : Work) (rest : State → State) : Prop :=
      ∃ u : State,
        (∀ k, u.order k = (s.order k).map fun p =>
          if k = r.order then { p with members := p.members.modify r.pos f } else p) ∧
        (∀ k, u.station k = if k = st then w (s.station st) else s.station k) ∧
        u = { s with
          desk := { s.desk with orders := u.desk.orders, stations := u.desk.stations }
          pool := { s.pool with waitList := waits s.pool.waitList }, work } ∧
        State.cancelMember st r s = (rest u).giveUpItems r.order .cancel m.items
    let cancelled (x : Member) : Member := { x with state := .cancelled }
    let released (w : Station) : Station := { w with reservations := w.reservations - 1 }
    (m.state ∈ [MemberState.returning, .done, .stranded, .failed, .cancelled] → State.cancelMember st r s = s) ∧
    (m.state = .waitBin → becomes (fun x => { x with state := .cancelled, held := 0 }) released id
      { s.work with admission := true, drain := s.work.drain || decide (m.held ≠ 0) } id) ∧
    (m.state = .queued ∨ m.state = .fetching →
      becomes cancelled released id { s.work with admission := true } fun u => u.cancelFetch r m.bin) ∧
    (m.state = .atFront → becomes cancelled released (fun l => l.filter fun e => decide (e.ref ≠ r))
      { s.work with admission := true } fun u => u.requestStore r m.bin .front) ∧
    (m.state = .carrying → becomes cancelled id id s.work id) ∧
    (m.state = .inLane → becomes cancelled
      (fun w => { w with lane := w.lane.map fun x => if x.bin = m.bin then { x with mark := .outbound } else x })
      (fun l => l ++ [{ bin := m.bin, leg := .down, aisle := s.binAisle m.bin, station := st, ref := r }])
      { s.work with scan := true } id) ∧
    (m.state = .atWindow → becomes cancelled id id
      { s.work with down := s.work.down ++ toUnit (s.stationAddress st) 29 (be 2 m.bin) .kept } id)) ∧
  (∀ (s : State) (r : MemberRef) (b : Nat), s.Tidy →
    let a := s.binAisle b
    let q := (s.crane a).queue (s.memberClass r)
    let mine (j : Job) : Bool := decide (j.kind = .fetch ∧ j.owner = .member r)
    (q.find? mine = none → s.cancelFetch r b = s) ∧
    (q.find? mine ≠ none →
      ∃ u : State,
        (∀ k, u.crane k = if k = a then (s.crane a).setQueue (s.memberClass r) (q.eraseP mine) else s.crane k) ∧
        u = { s with
          dispatch := { s.dispatch with cranes := u.dispatch.cranes }
          work := { s.work with admission := true, drain := true } } ∧
        s.cancelFetch r b = (u.becomeStored b).releaseHeld r)) ∧
  ∀ (s : State) (num : Nat) (cause : NotTakenCause) (tags : List Nat) (o : Order), s.Tidy → s.order num = some o →
    let removed := s.requestedOf num tags
    ∃ u : State,
      (∀ t, u.item t = if t ∈ removed then none else s.item t) ∧
      (∀ b, u.bin b = (s.bin b).map fun r => { r with itemRefs := r.itemRefs - s.homedIn b removed }) ∧
      (∀ k, u.order k = (s.order k).map fun p =>
        if k = num then { p with notTaken := p.notTaken + removed.length } else p) ∧
      u = { s with
        loans := { s.loans with items := u.loans.items }
        store := { s.store with bins := u.store.bins }
        desk := { s.desk with orders := u.desk.orders }
        work := { s.work with up := s.work.up ++ removed.map fun t => .notice (.notTaken num o.patron t cause) } } ∧
      s.giveUpItems num cause tags = u

/-- BIN_DONE: a report that names no window bin, or of a CHUTE station, is counted and nothing else. The window bin
becomes OUTBOUND and joins the carry wait list for its down leg; its AT_WINDOW member becomes RETURNING; the items of
a patron member still REQUESTED are removed, and their number, or for a restore member that of the items still
RETURNED, is added to the order's count; then the order's tests follow (R96, R97, R126, R149). A window of a CLEAR
station without a bin takes the head of the presentation queue as its owner, has the owner's IN_LANE member of lowest
position presented, or loses an owner of whose members none is in the lane and none is on its way (R94, R95). An order
past admission ends once every member has come to its end and nothing holds it: its requests are removed (their order:
log entry 53), its records released, its station left, a restore order's flag cleared, ORDER_END sent, and its record
is absent (R98). The tests of an order are those of its gather, of its station's window and of its end, in this order;
the window is taken as far as it goes, so that a further step would change nothing, wherever the IN_LANE members of
the owner and of the queued orders have their bins in the lane (R93, R94, R98). The window's bin is the first of the
lane that stands at the window. -/
def Obligations.BinDoneFinishesTheWindow : Prop :=
  (∀ (w : Station) (l : LaneBin), w.window = some l ↔
    ∃ before after_, w.lane = before ++ l :: after_ ∧ l.mark = .window ∧ ∀ x ∈ before, x.mark ≠ .window) ∧
  (∀ (s : State) (st : Fin 24) (bin : BitVec 16), s.running → s.Tidy →
    let c := Instr.binDone st bin
    let w := s.station st
    let named := w.kind ≠ .chute ∧ ∃ l, w.window = some l ∧ l.bin = bin.toNat
    (s.stationAddress st = none → HasNoEffect c s) ∧
    (s.stationAddress st ≠ none → ¬ named →
      ∃ u : State,
        (∀ k, u.station k = if k = st.val then
          { w with unmatched := if w.unmatched < 4294967295 then w.unmatched + 1 else w.unmatched } else s.station k) ∧
        u = { s with desk := { s.desk with stations := u.desk.stations }, work := Work.empty } ∧
        exec c s = .next (s.closeEvent u none)) ∧
    ∀ l o m, s.stationAddress st ≠ none → w.kind ≠ .chute → w.window = some l → l.bin = bin.toNat →
      s.order l.ref.order = some o → s.member l.ref = some m →
      let removed := if o.kind = .patron then s.requestedOf o.number m.items else []
      let returned := m.items.countP fun t =>
        match s.item t with
        | some e => decide (e.state.word = .returned)
        | none => false
      let lost := if o.kind = .patron then removed.length else returned
      ∃ u : State,
        (∀ t, u.item t = if t ∈ removed then none else s.item t) ∧
        (∀ b, u.bin b = (s.bin b).map fun r => { r with itemRefs := r.itemRefs - s.homedIn b removed }) ∧
        (∀ k, u.station k = if k = st.val then
          { w with lane := w.lane.map fun x => if x.bin = l.bin then { x with mark := .outbound } else x }
          else s.station k) ∧
        (∀ k, u.order k = (s.order k).map fun p => if k = o.number then
          { p with
            notTaken := p.notTaken + lost
            members := p.members.modify l.ref.pos fun x =>
              if x.state = .atWindow then { x with state := .returning } else x } else p) ∧
        u = { s with
          loans := { s.loans with items := u.loans.items }
          store := { s.store with bins := u.store.bins }
          desk := { s.desk with orders := u.desk.orders, stations := u.desk.stations }
          pool := { s.pool with
            waitList := s.pool.waitList ++
              [{ bin := l.bin, leg := .down, aisle := s.binAisle l.bin, station := st, ref := l.ref }] }
          work := { Work.empty with
            up := removed.map fun t => .notice (.notTaken o.number o.patron t .binDone), scan := true } } ∧
        exec c s = .next (s.eventEnds (u.settleOrder o.number))) ∧
  (∀ (s : State) (st : Nat), s.Tidy →
    let w := s.station st
    let onWay (m : Member) : Prop := m.state ∈ [MemberState.queued, .fetching, .atFront, .carrying]
    let step := State.windowStep st s
    ((s.zone w.zone).state ≠ .clear ∨ w.window ≠ none → step = s) ∧
    ((s.zone w.zone).state = .clear → w.window = none →
      (w.owner = none → w.presQueue = [] → step = s) ∧
      (∀ n rest, w.owner = none → w.presQueue = n :: rest →
        ∃ u : State,
          (∀ k, u.station k = if k = st then { w with owner := some n, presQueue := rest } else s.station k) ∧
          (∀ k, u.order k = (s.order k).map fun p => if k = n then { p with state := .presenting } else p) ∧
          u = { s with desk := { s.desk with stations := u.desk.stations, orders := u.desk.orders } } ∧ step = u) ∧
      ∀ n o, w.owner = some n → s.order n = some o →
        (∀ i m, o.members[i]? = some m → m.state = .inLane →
          (∀ j x, j < i → o.members[j]? = some x → x.state ≠ .inLane) →
          ∃ u : State,
            (∀ k, u.station k = if k = st then
              { w with lane := w.lane.map fun l => if l.bin = m.bin then { l with mark := .window } else l }
              else s.station k) ∧
            (∀ k, u.order k = (s.order k).map fun p => if k = n then
              { p with listOpen := false, members := p.members.modify i fun x => { x with state := .atWindow } }
              else p) ∧
            u = { s with
              desk := { s.desk with stations := u.desk.stations, orders := u.desk.orders }
              work := { s.work with
                down := s.work.down ++ toUnit (s.stationAddress st) 28 (be 2 m.bin) .kept } } ∧
            step = u) ∧
        ((∀ m ∈ o.members, m.state ≠ .inLane) →
          ((∃ m ∈ o.members, onWay m) → step = s) ∧
          ((∀ m ∈ o.members, ¬ onWay m) →
            ∃ u : State,
              (∀ k, u.station k = if k = st then { w with owner := none } else s.station k) ∧
              u = { s with desk := { s.desk with stations := u.desk.stations } } ∧ step = u)))) ∧
  (∀ (s : State) (num : Nat) (o : Order), s.order num = some o →
    let past (m : Member) : Prop := m.state ∈ [MemberState.done, .stranded, .failed, .cancelled]
    let held := (∃ j ∈ s.jobs, ∃ r, j.owner = .member r ∧ r.order = num) ∨ (∃ c ∈ s.carries, c.ref.order = num) ∨
      (∃ e ∈ s.pool.waitList, e.ref.order = num) ∨ ∃ p ∈ s.desk.stations, ∃ l ∈ p.2.lane, l.ref.order = num
    let ends := o.state ≠ .waiting ∧ (∀ m ∈ o.members, past m) ∧ ¬ held
    (¬ ends → s.endTest num = s) ∧ (ends → s.endTest num = (s.endOrder o).windowPass o.station)) ∧
  (∀ (s : State) (num : Nat),
    (s.order num = none → s.settleOrder num = s) ∧
    ∀ o, s.order num = some o → s.settleOrder num = ((s.gatherTest num).windowPass o.station).endTest num) ∧
  (∀ (s : State) (st : Nat), s.Tidy →
    let w := s.station st
    let t := s.windowPass st
    t = repeatTimes (State.windowStep st) (2 * w.presQueue.length + 3) s ∧
    ((∀ n o m, w.owner = some n ∨ n ∈ w.presQueue → s.order n = some o → m ∈ o.members → m.state = .inLane →
      ∃ l ∈ w.lane, l.bin = m.bin) → State.windowStep st t = t)) ∧
  ∀ (s : State) (num : Nat) (o : Order), s.Tidy → s.order num = some o →
    let refs : List MemberRef := (List.range o.members.length).map fun i => { order := num, pos := i }
    let v := forEach refs (fun r t => t.releaseHeld r) (s.giveUpItems num .orderEnd (o.members.flatMap (·.items)))
    let bins := if o.kind = .restore then o.members.map (·.bin) else []
    ∃ (p : Order) (u : State), v.order num = some p ∧
      (let count (x : MemberState) : Nat := p.members.countP fun m => decide (m.state = x)
       (∀ b, u.bin b = (v.bin b).map fun r => if b ∈ bins then { r with pending := false } else r) ∧
       (∀ k, u.station k = if k = o.station then
         { v.station k with
           owner := if (v.station k).owner = some num then none else (v.station k).owner
           presQueue := (v.station k).presQueue.filter fun n => decide (n ≠ num) } else v.station k) ∧
       u = { v with
         store := { v.store with bins := u.store.bins }
         desk := { v.desk with
           stations := u.desk.stations, orders := v.desk.orders.filter fun q => decide (q.2.number ≠ num) }
         work := { v.work with
           drain := true, restore := v.work.restore ++ bins.map RestoreTest.bin ++ [.pass]
           up := v.work.up ++ [.notice (.orderEnd num p.kind p.station p.patron p.taken p.notTaken (count .stranded)
             (count .failed) (count .cancelled))] } } ∧
       s.endOrder o = u)

/-- The expiry of an order's gather timer completes its gather: the timer stops, the order is marked gathered and
joins its station's presentation queue, and NOTICE GATHER_PARTIAL, before the notices of the order's tests (log entry
56), carries the members in the lane and those still expected. The gather test of an admitted order that is not
gathered completes it likewise, without the NOTICE, once its live members are all in the lane, and stops the timer
where none is left (R93). The hold-off repeat timer's expiry sends HOLDOFF with the hold time again and starts the
timer afresh on the smaller of its two settings; at the end of an event that changed the waiting count or the
watermark, HOLDOFF is sent as the count has passed the watermark (R104). That either command is honoured whenever its
timer runs, and has no effect while it does not, is the model's choice (log entry 12). The waiting count is the number
of orders in WAITING (R104). -/
def Obligations.GatherAndHoldOffTimers : Prop :=
  (∀ (s : State) (number : BitVec 16), s.running → s.Tidy →
    let c := Instr.gatherTimerExpiry number
    let num := number.toNat
    ((∀ o, s.order num = some o → o.gatherTimer = none) → HasNoEffect c s) ∧
    ∀ o, s.order num = some o → o.gatherTimer ≠ none →
      let inLane := o.members.countP fun m => decide (m.state = .inLane)
      let expected := o.members.countP fun m =>
        decide (m.state ∈ [MemberState.waitBin, .queued, .fetching, .atFront, .carrying])
      ∃ u : State,
        (∀ k, u.order k = (s.order k).map fun p =>
          if k = num then { p with gatherTimer := none, gathered := true } else p) ∧
        (∀ k, u.station k = if k = o.station then
          { s.station k with presQueue := (s.station k).presQueue ++ [num] } else s.station k) ∧
        u = { s with
          desk := { s.desk with orders := u.desk.orders, stations := u.desk.stations }
          work := { Work.empty with up := [.notice (.gatherPartial num inLane expected)] } } ∧
        exec c s = .next (s.eventEnds (u.settleOrder num))) ∧
  (∀ s : State, s.running →
    let runs := s.desk.holdTimer ≠ none ∧ s.desk.holding = true
    (¬ runs → HasNoEffect .holdRepeatExpiry s) ∧
    (runs → exec .holdRepeatExpiry s = .next (s.closeEvent
      { s with
        desk := { s.desk with holdTimer := some (s.now + min s.params.holdRepeat s.params.holdTime) }
        work := { Work.empty with up := [.holdoff s.params.holdTime] } } none))) ∧
  (∀ s : State,
    let sends (ms : Nat) : Work := { s.work with up := s.work.up ++ [.holdoff ms] }
    (s.waitingCount = s.desk.orders.countP fun p => decide (p.2.state = .waiting)) ∧
    (s.params.watermark ≤ s.waitingCount → s.desk.holding = false → s.holdTest =
      { s with
        desk := { s.desk with
          holding := true, holdTimer := some (s.now + min s.params.holdRepeat s.params.holdTime) }
        work := sends s.params.holdTime }) ∧
    (s.waitingCount < s.params.watermark → s.desk.holding = true → s.holdTest =
      { s with desk := { s.desk with holding := false, holdTimer := none }, work := sends 0 }) ∧
    ((s.params.watermark ≤ s.waitingCount ↔ s.desk.holding = true) → s.holdTest = s) ∧
    (s.work.hold = true → s.holdPhase = s.holdTest) ∧ (s.work.hold = false → s.holdPhase = s)) ∧
  ∀ (s : State) (num : Nat) (o : Order), s.Tidy → s.order num = some o →
    let live (m : Member) : Prop := m.state ∉ [MemberState.done, .stranded, .failed, .cancelled]
    let gathers := o.state = .admitted ∧ o.gathered = false
    (¬ gathers → s.gatherTest num = s) ∧
    (gathers → (∀ m ∈ o.members, ¬ live m) →
      ∃ u : State,
        (∀ k, u.order k = (s.order k).map fun p => if k = num then { p with gatherTimer := none } else p) ∧
        u = { s with desk := { s.desk with orders := u.desk.orders } } ∧ s.gatherTest num = u) ∧
    (gathers → (∃ m ∈ o.members, live m) → (∀ m ∈ o.members, live m → m.state = .inLane) →
      ∃ u : State,
        (∀ k, u.order k = (s.order k).map fun p =>
          if k = num then { p with gatherTimer := none, gathered := true } else p) ∧
        (∀ k, u.station k = if k = o.station then
          { s.station k with presQueue := (s.station k).presQueue ++ [num] } else s.station k) ∧
        u = { s with desk := { s.desk with orders := u.desk.orders, stations := u.desk.stations } } ∧
        s.gatherTest num = u) ∧
    (gathers → (∃ m ∈ o.members, live m ∧ m.state ≠ .inLane) → s.gatherTest num = s)


/-! ## The Lift Pool -/

/-- JOIN: WRONG_STATE for a lift in ASK or in rotation or without an address, ZONE_SHUT while its zone is not CLEAR;
otherwise the carries that a BAR lift still has are given up first, each leaving the lift, its reservation and its
member's held records released, CARRY_GIVEN_UP sent before the order is tested (log entry 41) (R120), the word becomes
ASK, MEMBER ASK is sent (its sequence number, absent, a zero byte: log entry 7), the answer timer starts on the answer
limit, and the ANSWER carries the number given up (R109). LEAVE: WRONG_STATE for OFF and BAR; a lift in ASK becomes
OFF; a lift in rotation becomes OFF, the numbers above its own fall by one, the highest left is TAIL, and the pointer
goes on naming the lift it named; MEMBER goes to every lift changed, and the ANSWER carries the carries in flight
(R111, R112). A lift is in rotation while its word is ON or TAIL, with a sequence number (R108). -/
def Obligations.JoinAndLeave : Prop :=
  (∀ (w : Word) (q : Nat), w.seq = some q ↔ w = .on q ∨ w = .tail q) ∧
  (∀ s : State, s.rotationSize = (List.range 6).countP fun l => (s.lift l).word.seq.isSome) ∧
  (∀ (s : State) (tag : BitVec 16) (l : Fin 6), s.running → s.Tidy →
    let c := Instr.join tag l
    let r := s.lift l
    let refused (x : Reason) : Prop := exec c s = .next (s.onlyAnswers (.refused tag.toNat 7 x))
    let given := if r.word = .bar then r.carries else []
    let joinable := (r.word = .off ∨ r.word = .bar) ∧ ∃ a, s.liftAddress l = some a
    (¬ joinable → refused .wrongState) ∧
    (joinable → (s.zone r.zone).state ≠ .clear → refused .zoneShut) ∧
    ∀ a, (r.word = .off ∨ r.word = .bar) → s.liftAddress l = some a → (s.zone r.zone).state = .clear →
      let t := forEach given (State.giveUpCarry l) s.beginEvent
      ∃ u : State,
        (∀ k, u.lift k = if k = l.val then
          { t.lift l with word := .ask, answerTimer := some (s.now + r.answerLimit) } else t.lift k) ∧
        u = { t with
          pool := { t.pool with lifts := u.pool.lifts }
          work := { t.work with
            down := t.work.down ++
              [{ telegram := { dest := a, src := 126, kind := 26, tag := 0, body := [1#8, 0#8] }, cls := .kept }]
            scan := true } } ∧
        exec c s = .next (s.requestEnds u (.done tag.toNat 7 (be 1 given.length)))) ∧
  (∀ (s : State) (l : Nat) (c : Carry), s.Tidy →
    let r := s.lift l
    let held := ∃ m, s.member c.ref = some m ∧ m.held ≠ 0
    ∃ u : State,
      (∀ k, u.lift k = if k = l then { r with carries := r.carries.filter fun y => decide (y.tag ≠ c.tag) }
        else s.lift k) ∧
      (∀ k, u.station k = if k = c.station ∧ c.leg = .up then
        { s.station k with reservations := (s.station k).reservations - 1 } else s.station k) ∧
      (∀ k, u.order k = (s.order k).map fun p => if k = c.ref.order then
        { p with members := p.members.modify c.ref.pos fun x => { x with held := 0 } } else p) ∧
      u.work.admission = (s.work.admission || decide (c.leg = .up ∨ held)) ∧
      u.work.drain = (s.work.drain || decide held) ∧
      u = { s with
        pool := { s.pool with lifts := u.pool.lifts }
        desk := { s.desk with stations := u.desk.stations, orders := u.desk.orders }
        work := { s.work with
          up := s.work.up ++ [.notice (.carryGivenUp l c.tag c.bin)]
          admission := u.work.admission, drain := u.work.drain } } ∧
      (let v := u.settleOrder c.ref.order
       State.giveUpCarry l c s = { v with work := { v.work with scan := true, drain := true } })) ∧
  ∀ (s : State) (tag : BitVec 16) (l : Fin 6), s.running → s.Tidy →
    let c := Instr.leave tag l
    let r := s.lift l
    let n := s.rotationSize
    let answer := Answer.done tag.toNat 7 (be 1 r.carries.length)
    ((r.word = .off ∨ r.word = .bar) → exec c s = .next (s.onlyAnswers (.refused tag.toNat 7 .wrongState))) ∧
    (r.word = .ask →
      ∃ u : State,
        (∀ k, u.lift k = if k = l.val then { r with word := .off, answerTimer := none } else s.lift k) ∧
        u = { s with pool := { s.pool with lifts := u.pool.lifts }, work := Work.empty } ∧
        exec c s = .next (s.requestEnds (u.tellWords s) answer)) ∧
    ∀ q, r.word.seq = some q →
      let lowered (k : Nat) : Nat := if q < k then k - 1 else k
      let word (k : Nat) : Word := if lowered k = n - 2 then .tail (lowered k) else .on (lowered k)
      ∃ u : State,
        (∀ k, k < 6 → u.lift k =
          if k = l.val then { r with word := .off, answerTimer := none }
          else match (s.lift k).word.seq with
            | some m => { s.lift k with word := word m }
            | none => s.lift k) ∧
        (∀ k, 6 ≤ k → u.lift k = s.lift k) ∧
        u = { s with
          pool := { s.pool with
            lifts := u.pool.lifts
            pointer := if n ≤ 1 then 0 else lowered s.pool.pointer % (n - 1) }
          work := Work.empty } ∧
        exec c s = .next (s.requestEnds (u.tellWords s) answer)

/-- FITNESS: from OFF and BAR, and FIT from a lift in rotation, nothing; FIT in ASK makes the lift TAIL with the
number of those in rotation before it, and the TAIL before it ON; UNFIT in ASK, like the answer timer's expiry, makes
it OFF with NOTICE JOIN_FAILED; UNFIT in rotation bars it (R109, R110). That the expiry command is honoured whenever
the answer timer runs, and has no effect while it does not, is the model's choice (log entry 12). Barring takes the
lifts out of the rotation in descending order of their numbers, renumbering it each time, sends one MEMBER to each
lift changed (OFF, ASK and BAR with a zero byte in place of the absent sequence number: log entry 7; one that was in
no rotation among those that leave it: log entry 62), and for each lift stops its timers, makes its carries late and
their bins and members STRANDED, and sends LIFT_BARRED (R108, R111, R113). The model's choices here are MEMBER before
a PRESENT that a stranding brings about (log entry 50), MEMBER_LOST only where a member's state changes (log entry
15), its position counted from 0 (log entry 40), and the carries in order of assignment, lift by lift (log entry 56);
the lifts that the zones of one WRITE bar are barred together (R111, R114; log entry 47). -/
def Obligations.FitnessDecidesTheJoin : Prop :=
  (∀ (s : State) (l : Fin 6), s.running → s.Tidy →
    let r := s.lift l
    let n := s.rotationSize
    let fails (c : Instr) (a : Nat) (cause : JoinCause) : Prop :=
      ∃ u : State,
        (∀ k, u.lift k = if k = l.val then { r with word := .off, answerTimer := none } else s.lift k) ∧
        u = { s with
          pool := { s.pool with lifts := u.pool.lifts }
          work := { Work.empty with
            up := [.notice (.joinFailed l cause)]
            down := [{ telegram := { dest := a, src := 126, kind := 26, tag := 0, body := [0#8, 0#8] }, cls := .kept }] } } ∧
        exec c s = .next (s.closeEvent u none)
    (s.liftAddress l = none → HasNoEffect (.fitness l true) s ∧ HasNoEffect (.fitness l false) s) ∧
    ((r.word = .off ∨ r.word = .bar) → HasNoEffect (.fitness l true) s ∧ HasNoEffect (.fitness l false) s) ∧
    (∀ q, r.word.seq = some q → HasNoEffect (.fitness l true) s) ∧
    (r.answerTimer = none → HasNoEffect (.answerTimerExpiry l) s) ∧
    ∀ a, s.liftAddress l = some a →
      (r.word = .ask → fails (.fitness l false) a .unfit) ∧
      (r.answerTimer ≠ none → fails (.answerTimerExpiry l) a .noAnswer) ∧
      (∀ q, r.word.seq = some q →
        exec (.fitness l false) s = .next (s.eventEnds (s.beginEvent.barLifts [l.val] .unfit))) ∧
      (r.word = .ask →
        ∃ u : State,
          (∀ k, k < 6 → u.lift k =
            if k = l.val then { r with word := .tail n, answerTimer := none }
            else match (s.lift k).word with
              | .tail q => { s.lift k with word := .on q }
              | _ => s.lift k) ∧
          (∀ k, 6 ≤ k → u.lift k = s.lift k) ∧
          u = { s with pool := { s.pool with lifts := u.pool.lifts }, work := Work.empty } ∧
          exec (.fitness l true) s = .next (s.eventEnds (u.tellWords s).oweScan))) ∧
  (∀ (s : State) (l : Nat), s.Tidy →
    let r := s.lift l
    let n := s.rotationSize
    (r.word.seq = none → ∃ u : State,
      (∀ k, u.lift k = if k = l then { r with word := .bar } else s.lift k) ∧
      u = { s with pool := { s.pool with lifts := u.pool.lifts } } ∧ s.removeLift l .bar = u) ∧
    ∀ q, l < 6 → r.word.seq = some q →
      let lowered (k : Nat) : Nat := if q < k then k - 1 else k
      let word (k : Nat) : Word := if lowered k = n - 2 then .tail (lowered k) else .on (lowered k)
      ∃ u : State,
        (∀ k, k < 6 → u.lift k =
          if k = l then { r with word := .bar }
          else match (s.lift k).word.seq with
            | some m => { s.lift k with word := word m }
            | none => s.lift k) ∧
        (∀ k, 6 ≤ k → u.lift k = s.lift k) ∧
        u = { s with pool := { s.pool with
          lifts := u.pool.lifts, pointer := if n ≤ 1 then 0 else lowered s.pool.pointer % (n - 1) } } ∧
        s.removeLift l .bar = u) ∧
  (∀ (s : State) (ls : List Nat) (cause : BarCause),
    s.barLifts ls cause = (forEach ls (State.barCarries cause)
      ((forEach (s.bySeqDown ls) (fun l t => t.removeLift l .bar) s).tellWords s)).oweDrain) ∧
  (∀ (s : State) (ls : List Nat), s.rotationLaw → ls.Nodup → (∀ l ∈ ls, l < 6) →
    (s.bySeqDown ls).Perm ls ∧ (s.bySeqDown ls).Pairwise fun k l =>
      ∀ q, (s.lift l).word.seq = some q → ∃ p, (s.lift k).word.seq = some p ∧ q < p) ∧
  (∀ s before : State,
    let changed (l : Nat) : Bool := decide ((s.lift l).word ≠ (before.lift l).word)
    let outside := (List.range 6).filter fun l => changed l && decide ((s.lift l).word.seq = none)
    let inside := ((List.range 6).filterMap fun q =>
      (List.range 6).find? fun l => decide ((s.lift l).word.seq = some q)).filter changed
    s.tellWords before = { s with work := { s.work with
      down := s.work.down ++ (outside ++ inside).flatMap fun l => toUnit (s.liftAddress l) 26
        (be 1 (match (s.lift l).word with
          | .off => 0 | .ask => 1 | .on _ => 2 | .tail _ => 3 | .bar => 4) ++
          be 1 ((s.lift l).word.seq.getD 0)) .kept } }) ∧
  (∀ (s : State) (l : Nat) (cause : BarCause), s.Tidy →
    let r := s.lift l
    ∃ u : State,
      (∀ k, u.lift k = if k = l then
        { r with answerTimer := none, carries := r.carries.map fun c => { c with late := true, timer := none } }
        else s.lift k) ∧
      u = { s with pool := { s.pool with lifts := u.pool.lifts } } ∧
      State.barCarries cause l s =
        (forEach r.carries State.strandCarry u).notice (.liftBarred l cause r.carries.length)) ∧
  (∀ (s : State) (c : Carry) (m : Member), s.Tidy → s.member c.ref = some m →
    let loses := m.state ≠ .cancelled ∧ m.state ≠ .stranded
    ∃ u : State,
      (∀ b, u.bin b = (s.bin b).map fun x => if b = c.bin then { x with state := .stranded } else x) ∧
      (∀ k, u.order k = (s.order k).map fun p => if k = c.ref.order ∧ loses then
        { p with members := p.members.modify c.ref.pos fun x => { x with state := .stranded } } else p) ∧
      u = { s with
        store := { s.store with bins := u.store.bins }, desk := { s.desk with orders := u.desk.orders }
        work := { s.work with
          up := if loses then s.work.up ++ [.notice (.memberLost c.ref.order c.ref.pos m.bin .stranded)]
            else s.work.up } } ∧
      State.strandCarry c s = u.settleOrder c.ref.order) ∧
  ∀ (s : State) (held : List Nat), s.work.bars = some held →
    let ls := (List.range 6).filter fun l => decide (l ∈ held)
    let t := { s with work := { s.work with bars := none } }
    s.barHeld = if ls = [] then t else t.barLifts ls .zone

/-- CARRIED: a tag that matches no carry of the lift is counted; a match ends the carry, and its bin, back OUT if the
carry was late, goes on by its leg (R118, R120). At a CLEAR station the bin joins the lane in its reserved place: a
cancelled member's as OUTBOUND and on the carry wait list for its down leg (R101), any other's as LINED, its member
IN_LANE, the gather begun, and the order back on the presentation queue where it has lost the window (R91, R93, R94;
which orders come back: log entry 21); at a station that is not CLEAR the bin and its member are STRANDED, with
MEMBER_LOST where the member's state changes (log entries 15 and 40), and their place and records given up (R102); at
an infeed the bin joins the infeed list and its STORE is asked for (R97); CARRY_LATE_DONE goes after the notices of
the arrival (log entry 52). The expiry of a carry's deadline sends NOTICE CARRY_LATE, first of all (log entry 51), and
bars the lift (R119); that the command has no effect while that timer stands is the model's choice (log entry 12). An
entry of the carry wait list goes to the first lift that can take it (bit k of its mask for station k, log entry 39),
going round the rotation from the pointer (R116), and its carry begins, the bin leaving its front or its lane (R117);
the layout of CARRY (log entry 7) and its codes of places, front 0, station 1 and infeed 2 (log entry 60), are the
model's; no scan takes an infeed list over its size (R60). -/
def Obligations.CarriedEndsTheCarry : Prop :=
  (∀ (s : State) (l : Fin 6) (carry : BitVec 16), s.running → s.Tidy →
    let c := Instr.carried l carry
    let r := s.lift l
    let matching := fun (x : Carry) => decide (x.tag = carry.toNat)
    (s.liftAddress l = none → HasNoEffect c s) ∧
    (s.liftAddress l ≠ none → r.carries.find? matching = none →
      ∃ u : State,
        (∀ k, u.lift k = if k = l.val then
          { r with unmatched := if r.unmatched < 4294967295 then r.unmatched + 1 else r.unmatched } else s.lift k) ∧
        u = { s with pool := { s.pool with lifts := u.pool.lifts }, work := Work.empty } ∧
        exec c s = .next (s.closeEvent u none)) ∧
    (∀ x, s.liftAddress l ≠ none → r.carries.find? matching = some x →
      ∃ u : State,
        (∀ k, u.lift k = if k = l.val then
          { r with carries := r.carries.filter fun y => decide (y.tag ≠ carry.toNat) } else s.lift k) ∧
        (∀ b, u.bin b = (s.bin b).map fun p => if b = x.bin ∧ x.late = true then { p with state := .out } else p) ∧
        u = { s with
          pool := { s.pool with lifts := u.pool.lifts }, store := { s.store with bins := u.store.bins }
          work := Work.empty } ∧
        (let v := if x.leg = .up then u.upArrived x.ref x.bin x.station else u.downArrived x.ref x.bin x.aisle
         let w := if x.late = true then v.notice (.carryLateDone l x.tag x.bin) else v
         exec c s = .next (s.eventEnds w.oweScan.oweDrain))) ∧
    (∀ x, r.carries.find? matching = some x → x.timer ≠ none →
      exec (.carryDeadlineExpiry l carry) s =
        .next (s.eventEnds ((s.beginEvent.notice (.carryLate l x.tag x.bin)).barLifts [l.val] .carryLate))) ∧
    ((∀ x, r.carries.find? matching = some x → x.timer = none) → HasNoEffect (.carryDeadlineExpiry l carry) s)) ∧
  (∀ (s : State) (r : MemberRef) (b : Nat), s.Tidy →
    (∀ st, (s.zone (s.station st).zone).state = .clear → s.memberState r = some .cancelled →
      ∃ u : State,
        (∀ k, u.station k = if k = st then
          { s.station st with
            reservations := (s.station st).reservations - 1
            lane := (s.station st).lane ++ [{ bin := b, mark := .outbound, ref := r }] } else s.station k) ∧
        u = { s with
          desk := { s.desk with stations := u.desk.stations }
          pool := { s.pool with
            waitList := s.pool.waitList ++
              [{ bin := b, leg := .down, aisle := s.binAisle b, station := st, ref := r }] }
          work := { s.work with scan := true } } ∧
        s.upArrived r b st = u) ∧
    ∀ a,
      let t := if s.memberState r = some .stranded then s.setMember r .returning else s
      ∃ u : State,
        (∀ k, u.crane k = if k = a then { s.crane a with infeed := (s.crane a).infeed ++ [b] } else s.crane k) ∧
        u = { t with dispatch := { s.dispatch with cranes := u.dispatch.cranes } } ∧
        s.downArrived r b a = u.requestStore r b .infeed) ∧
  (∀ (s : State) (r : MemberRef) (b st : Nat) (o : Order) (m : Member), s.Tidy → s.order r.order = some o →
    s.member r = some m →
    let w := s.station st
    ((s.zone w.zone).state = .clear → m.state ≠ .cancelled →
      let starts := o.gatherStart = none ∧ o.gathered = false
      ∃ u : State,
        (∀ k, u.station k = if k = st then
          { w with
            reservations := w.reservations - 1, lane := w.lane ++ [{ bin := b, mark := .lined, ref := r }]
            presQueue := if o.state = .presenting ∧ w.owner ≠ some r.order ∧ r.order ∉ w.presQueue then
              w.presQueue ++ [r.order] else w.presQueue } else s.station k) ∧
        (∀ k, u.order k = (s.order k).map fun p => if k = r.order then
          { p with
            members := p.members.modify r.pos fun x => { x with state := .inLane }
            gatherStart := if starts then some s.now else p.gatherStart
            gatherTimer := if starts then some (s.now + o.gatherLimit.getD 0) else p.gatherTimer } else p) ∧
        u = { s with desk := { s.desk with stations := u.desk.stations, orders := u.desk.orders } } ∧
        (1 ≤ w.reservations → s.laneFits st → u.laneFits st) ∧
        s.upArrived r b st = u.settleOrder r.order) ∧
    ((s.zone w.zone).state ≠ .clear →
      let loses := m.state ≠ .cancelled ∧ m.state ≠ .stranded
      ∃ u : State,
        (∀ c, u.bin c = (s.bin c).map fun x => if c = b then { x with state := .stranded } else x) ∧
        (∀ k, u.station k = if k = st then { w with reservations := w.reservations - 1 } else s.station k) ∧
        (∀ k, u.order k = (s.order k).map fun p => if k = r.order then
          { p with members := p.members.modify r.pos fun x =>
            { x with state := if loses then .stranded else x.state, held := 0 } } else p) ∧
        u = { s with
          store := { s.store with bins := u.store.bins }
          desk := { s.desk with stations := u.desk.stations, orders := u.desk.orders }
          work := { s.work with
            admission := true, drain := s.work.drain || decide (m.held ≠ 0)
            up := if loses then s.work.up ++ [.notice (.memberLost r.order r.pos m.bin .stranded)] else s.work.up } } ∧
        s.upArrived r b st = u.settleOrder r.order)) ∧
  (∀ (s : State) (e : WaitEntry), s.Tidy → s.rotationLaw →
    let n := s.rotationSize
    let y := s.aisle e.aisle
    let clear (z : Nat) : Prop := (s.zone z).state = .clear
    let able (l : Nat) : Prop :=
      (s.lift l).word.seq ≠ none ∧ clear (s.lift l).zone ∧ (s.lift l).carries.length < (s.lift l).carriers ∧
      (s.lift l).mask.getLsbD e.station = true ∧
      (e.leg = .up → clear y.frontZone) ∧
      (e.leg = .down → clear y.infeedZone ∧ (s.crane e.aisle).infeed.length +
        s.carries.countP (fun c => decide (c.leg = .down ∧ c.aisle = e.aisle)) < y.infeedSize)
    ((∀ l, l < 6 → ¬ able l) → State.scanEntry e s = s) ∧
    ∀ i l, i < n → l < 6 → (s.lift l).word.seq = some ((s.pool.pointer + i) % n) → able l →
      (∀ j k, j < i → k < 6 → (s.lift k).word.seq = some ((s.pool.pointer + j) % n) → ¬ able k) →
      State.scanEntry e s = s.assign e l) ∧
  (∀ (s : State) (e : WaitEntry) (l : Nat), s.Tidy →
    let r := s.lift l
    let body := be 2 s.pool.carryTag ++ be 2 e.bin ++
      if e.leg = .up then be 1 0 ++ be 1 e.aisle ++ be 1 1 ++ be 1 e.station
      else be 1 1 ++ be 1 e.station ++ be 1 2 ++ be 1 e.aisle
    ∃ u : State,
      (∀ k, u.lift k = if k = l then
        { r with carries := r.carries ++
          [{ tag := s.pool.carryTag, bin := e.bin, leg := e.leg, aisle := e.aisle, station := e.station, ref := e.ref
             late := false, timer := some (s.now + r.carryLimit) }] } else s.lift k) ∧
      u = { s with
        pool :=
          { lifts := u.pool.lifts
            pointer := match r.word with
              | .on q => q + 1
              | _ => 0
            carryTag := if s.pool.carryTag < 65535 then s.pool.carryTag + 1 else 0
            waitList := s.pool.waitList.filter fun x => decide (x.ref ≠ e.ref) }
        work := { s.work with down := s.work.down ++ toUnit (s.liftAddress l) 27 body .kept } } ∧
      let v := u.leaveFront e.aisle e.bin
      (e.leg = .up → v.memberState e.ref = some .atFront → s.assign e l = v.setMember e.ref .carrying) ∧
      (e.leg = .up → v.memberState e.ref ≠ some .atFront → s.assign e l = v) ∧
      (e.leg = .down → s.assign e l = u.leaveLane e.station e.bin)) ∧
  (∀ (s : State) (st b : Nat), s.Tidy →
    ∃ u : State,
      (∀ k, u.station k = if k = st then
        { s.station st with lane := (s.station st).lane.filter fun l => decide (l.bin ≠ b) } else s.station k) ∧
      u = { s with
        desk := { s.desk with stations := u.desk.stations }, work := { s.work with admission := true, drain := true } } ∧
      s.leaveLane st b = u) ∧
  (∀ s : State, s.scan = forEach s.pool.waitList State.scanEntry s) ∧
  ∀ (s : State) (e : WaitEntry) (a : Nat), s.Tidy → s.listsFit a → (State.scanEntry e s).listsFit a


/-! ## Crane Dispatch -/

/-- STATUS, by the crane's state: READY with a valid position makes an OFFLINE crane, or a PARKED one not held parked,
READY, or BUSY where a job is in flight on an OFFLINE one, records position and load, and has the load judged and the
aisle tested; it only records them on a crane held parked; it is rejected and counted on a BUSY or PARKING one. READY
with a position that is not valid is counted, and the crane goes OFFLINE unless it is BUSY or PARKING. NOT_READY makes
the crane OFFLINE. A FAULTED crane takes no STATUS (R61, R62). A carried point is a position of an aisle's present
geometry where the aisle is configured and the point is FRONT, INFEED or PARK, whatever its last three fields hold, or
a SLOT on the LEFT or RIGHT face with a level from 1 to the levels and a column from 1 to the columns; CRANE is none
(R28). -/
def Obligations.StatusByCraneState : Prop :=
  (∀ (r : Aisle) (q : RawPoint) (p : Point),
    let level := q.level.toNat
    let column := q.column.toNat
    let slot (f : Face) : Prop :=
      1 ≤ level ∧ level ≤ r.levels ∧ 1 ≤ column ∧ column ≤ r.columns ∧ p = .slot f level column
    r.position q = some p ↔ 1 ≤ r.levels ∧
      ((q.kind = 0 ∧ (q.face = 0 ∧ slot .left ∨ q.face = 1 ∧ slot .right)) ∨
        (q.kind = 1 ∧ p = .front) ∨ (q.kind = 2 ∧ p = .infeed) ∨ (q.kind = 3 ∧ p = .park))) ∧
  ∀ (s : State) (a : Fin 12) (position : RawPoint) (load : BitVec 16), s.running → s.Tidy →
    let ready := Instr.status a true position load
    let notReady := Instr.status a false position load
    let x := s.crane a
    let held := (∃ z ∈ (s.aisle a).zones, (s.zone z).state ≠ .clear ∧ (s.zone z).state ≠ .enabling) ∨
      s.mode.mode = .quiet ∨ (s.mode.mode = .draining ∧ s.mode.phase = some .parkWait)
    let rejected := if x.rejected < 4294967295 then x.rejected + 1 else x.rejected
    let carried := if load.toNat = 65535 then none else some load.toNat
    (s.craneAddress a = none → HasNoEffect ready s ∧ HasNoEffect notReady s) ∧
    (s.craneAddress a ≠ none →
      (x.state = .faulted → HasNoEffect ready s ∧ HasNoEffect notReady s) ∧
      (x.state = .offline → HasNoEffect notReady s) ∧
      (x.state ≠ .offline → x.state ≠ .faulted →
        CraneBecomes s a notReady { x with state := .offline, place := none } { Work.empty with control := true } id) ∧
      (x.state = .busy ∨ x.state = .parking → CraneBecomes s a ready { x with rejected := rejected } Work.empty id) ∧
      ((s.aisle a).position position = none → x.state = .offline ∨ x.state = .ready ∨ x.state = .parked →
        CraneBecomes s a ready { x with state := .offline, place := none, rejected := rejected }
          { Work.empty with control := decide (x.state ≠ .offline) } id) ∧
      ∀ p, (s.aisle a).position position = some p →
        let placed := { x with place := some { point := p, load := carried } }
        (x.state = .offline → x.flight ≠ none →
          CraneBecomes s a ready { placed with state := .busy } { Work.empty with control := true } id) ∧
        (x.state = .parked → held → CraneBecomes s a ready placed Work.empty id) ∧
        ((x.state = .offline ∧ x.flight = none) ∨ x.state = .ready ∨ (x.state = .parked ∧ ¬ held) →
          CraneBecomes s a ready { placed with state := .ready } { Work.empty with control := decide (x.state ≠ .ready) }
            fun u => (u.judgeLoad a).dispatchTest a))

/-- DONE: a tag that is not that of the job in flight is counted and nothing else; a match ends the flight, has the
effects of the job's kind, frees the record, and then changes the crane by its state: BUSY becomes READY with its load
judged and its aisle tested, or OFFLINE where the position is not valid; PARKING and FAULTED stay and record the
position or count the report; OFFLINE stays; MOVE_LATE_DONE of a late job goes last (R67 to R69; log entry 56). A
FETCH that completes puts its bin on the front list, and its member AT_FRONT and, at a CLEAR station, on the carry
wait list; a cancelled member's bin is stored again. A STORE makes its bin STORED, and its member, where it is
RETURNING, DONE; a RELOCATE makes its target the bin's home (R68, R91, R97, R101). A bin that becomes STORED leaves
every list and is offered: to the member in WAIT_BIN for it whose order was admitted first, and else to the Return
Unit (R37, R60, R90, R145). A member that changes state changes nothing else of its order; a drain test, a scan or a
restore attempt that is owed is kept for the end of the event. -/
def Obligations.DoneCompletesTheJob : Prop :=
  (∀ (s : State) (a : Fin 12) (job : BitVec 16) (position : RawPoint) (load : BitVec 16), s.running → s.Tidy →
    let c := Instr.done a job position load
    let x := s.crane a
    let carried := if load.toNat = 65535 then none else some load.toNat
    let unmatched := if x.unmatched < 4294967295 then x.unmatched + 1 else x.unmatched
    (s.craneAddress a = none → HasNoEffect c s) ∧
    (s.craneAddress a ≠ none → (∀ f, x.flight = some f → f.tag ≠ job.toNat) →
      CraneBecomes s a c { x with unmatched := unmatched } Work.empty id) ∧
    ∀ f, s.craneAddress a ≠ none → x.flight = some f → f.tag = job.toNat →
      ∃ u : State,
        let t := (u.completeJob a f.job).recordsFreed
        let late (v : State) : State :=
          if f.late = true then v.notice (.moveLateDone a f.tag f.job.kind f.job.bin) else v
        let ends (v : State) : Prop := exec c s = .next (s.eventEnds v)
        (∀ k, u.crane k = if k = a.val then { x with flight := none } else s.crane k) ∧
        u = { s with dispatch := { s.dispatch with cranes := u.dispatch.cranes }, work := Work.empty } ∧
        (∀ r, f.job.kind = .relocate → s.bin f.job.bin = some r →
          ∃ r', t.bin f.job.bin = some r' ∧ r'.home = r.target.getD r.home ∧ r'.target = none) ∧
        (x.state = .offline → ends t) ∧
        (∀ p, (s.aisle a).position position = some p →
          let v := t.recordPlace a p carried
          (x.state = .busy → ends (((v.setCraneState a .ready).judgeLoad a).dispatchTest a)) ∧
          (x.state = .parking → ends v) ∧ (x.state = .faulted → ends (late v))) ∧
        ((s.aisle a).position position = none →
          let v := t.rejectReport a
          (x.state = .busy → ends ((State.craneOffline a t).rejectReport a)) ∧
          (x.state = .parking → ends v) ∧ (x.state = .faulted → ends (late v)))) ∧
  (∀ (s : State) (a : Nat) (j : Job), s.Tidy → j.kind = .fetch →
    ∃ u : State,
      (∀ k, u.crane k = if k = a then { s.crane a with front := (s.crane a).front ++ [j.bin] } else s.crane k) ∧
      u = { s with dispatch := { s.dispatch with cranes := u.dispatch.cranes } } ∧
      ((∀ r, j.owner ≠ .member r) → s.completeJob a j = u) ∧
      ∀ r, j.owner = .member r →
        (s.memberState r = some .cancelled → s.completeJob a j = u.requestStore r j.bin .front) ∧
        (s.memberState r ≠ some .cancelled → ∀ o, s.order r.order = some o →
          ∃ v : State,
            (∀ k, v.order k = (s.order k).map fun p => if k = r.order then
              { p with members := p.members.modify r.pos fun x => { x with state := .atFront } } else p) ∧
            v = { u with desk := { s.desk with orders := v.desk.orders } } ∧
            s.completeJob a j =
              if (s.zone (s.station o.station).zone).state = .clear then
                { v with
                  pool := { s.pool with waitList := s.pool.waitList ++
                    [{ bin := j.bin, leg := .up, aisle := s.binAisle j.bin, station := o.station, ref := r }] }
                  work := { s.work with scan := true } }
              else v)) ∧
  (∀ (s : State) (a : Nat) (j : Job),
    let t := s.becomeStored j.bin
    (j.kind = .store → (∀ r, j.owner ≠ .member r) → s.completeJob a j = t) ∧
    (j.kind = .store → ∀ r, j.owner = .member r → s.completeJob a j =
      (if t.memberState r = some .returning then t.setMember r .done else t).settleOrder r.order) ∧
    (j.kind = .relocate → ∀ x, s.bin j.bin = some x →
      ∃ u : State,
        (∀ c, u.bin c = if c = j.bin then some { x with home := x.target.getD x.home, target := none } else s.bin c) ∧
        u = { s with store := { s.store with bins := u.store.bins } } ∧
        s.completeJob a j = (u.becomeStored j.bin).notice (.shiftDone j.bin (x.target.getD x.home)))) ∧
  (∀ (s : State) (b : Nat),
    ∃ u : State,
      (∀ c, u.bin c = (s.bin c).map fun x => if c = b then { x with state := .stored } else x) ∧
      u = { s with store := { s.store with bins := u.store.bins } } ∧
      s.becomeStored b = (forEach (List.range 12) (fun a t => t.leaveLists a b) u).offer b) ∧
  (∀ (s : State) (a : Nat), s.Tidy →
    let x := s.crane a
    let becomes (y : Crane) (work : Work) (t : State) : Prop :=
      ∃ u : State,
        (∀ k, u.crane k = if k = a then y else s.crane k) ∧
        u = { s with dispatch := { s.dispatch with cranes := u.dispatch.cranes }, work } ∧ t = u
    (∀ p load, becomes { x with place := some { point := p, load } } s.work (s.recordPlace a p load)) ∧
    becomes { x with rejected := if x.rejected < 4294967295 then x.rejected + 1 else x.rejected } s.work
      (s.rejectReport a) ∧
    (∀ c, x.state = c → s.setCraneState a c = s) ∧
    (∀ c, x.state ≠ c → becomes { x with state := c } { s.work with control := true } (s.setCraneState a c)) ∧
    s.recordsFreed = { s with work := { s.work with admission := true, drain := true } } ∧
    s.oweDrain = { s with work := { s.work with drain := true } } ∧
    s.oweScan = { s with work := { s.work with scan := true } } ∧
    ∀ t, s.oweRestore t = { s with work := { s.work with restore := s.work.restore ++ [t] } }) ∧
  (∀ (s : State) (r : MemberRef) (st : MemberState),
    ∃ u : State,
      (∀ k, u.order k = (s.order k).map fun p => if k = r.order then
        { p with members := p.members.modify r.pos fun x => { x with state := st } } else p) ∧
      u = { s with desk := { s.desk with orders := u.desk.orders } } ∧ s.setMember r st = u) ∧
  ∀ (s : State) (b : Nat),
    let waits (o : Order) (i : Nat) : Prop := o.state ≠ .waiting ∧
      (∃ m, o.members[i]? = some m ∧ m.bin = b ∧ m.state = .waitBin) ∧
      ∀ j m, j < i → o.members[j]? = some m → ¬ (m.bin = b ∧ m.state = .waitBin)
    ((∀ p ∈ s.desk.orders, ∀ i, ¬ waits p.2 i) → s.offer b = s.oweRestore (.bin b)) ∧
    ∀ p i, p ∈ s.desk.orders → waits p.2 i →
      (∀ q ∈ s.desk.orders, ∀ j, waits q.2 j → q = p ∨ p.2.admission < q.2.admission) →
      s.offer b = s.requestFetch { order := p.2.number, pos := i } b

/-- The expiry of a move deadline marks the job late, makes the crane FAULTED with whatever fault code it holds, and
sends NOTICE MOVE_LATE; the job stays in flight (R70). That the command is honoured whenever the timer runs, and has
no effect while it does not, is the model's choice (log entry 12). FAULT with code 0 is rejected and counted; any
other makes the crane FAULTED with its code, counts a named job where none is in flight, ends the job in flight as
failed, and sends NOTICE CRANE_FAULT. CLEAR_FAULT is refused with WRONG_STATE unless the crane is FAULTED; then the
crane becomes OFFLINE, its position and code go, the job in flight is abandoned, and the ANSWER carries its tag and
bin (zeros after the presence field where there was none: log entry 7). A job so ended leaves its bin STRANDED and its
record free; a RELOCATE releases its target and sends NOTICE SHIFT_ENDED (its causes: log entry 48), and a member that
owns the job is told (R71, R72); CRANE_FAULT goes after the notices of the job so ended (log entry 56). A member whose
FETCH is lost takes the new state, with MEMBER_LOST where its state changes (log entries 15 and 40), its reservation
unless a cancellation has given it up, and its held records are released; one whose STORE is lost is STRANDED; the
tests of its order follow (R92, R101). -/
def Obligations.FaultsAndMoveDeadlines : Prop :=
  (∀ (s : State) (a : Fin 12), s.running → s.Tidy →
    let c := Instr.moveDeadlineExpiry a
    let x := s.crane a
    ((∀ f, x.flight = some f → f.timer = none) → HasNoEffect c s) ∧
    ∀ f, x.flight = some f → f.timer ≠ none →
      CraneBecomes s a c { x with state := .faulted, flight := some { f with late := true, timer := none } }
        { Work.empty with
          control := decide (x.state ≠ .faulted), up := [.notice (.moveLate a f.tag f.job.kind f.job.bin)] } id) ∧
  (∀ (s : State) (a : Fin 12) (code : BitVec 8) (job : Option (BitVec 16)), s.running → s.Tidy →
    let c := Instr.fault a code job
    let x := s.crane a
    (s.craneAddress a = none → HasNoEffect c s) ∧
    (s.craneAddress a ≠ none → code = 0 →
      CraneBecomes s a c { x with rejected := if x.rejected < 4294967295 then x.rejected + 1 else x.rejected }
        Work.empty id) ∧
    (s.craneAddress a ≠ none → code ≠ 0 →
      CraneBecomes s a c
        { x with
          state := .faulted, faultCode := some code.toNat
          unmatched := if x.flight = none ∧ job ≠ none ∧ x.unmatched < 4294967295 then x.unmatched + 1 else x.unmatched }
        { Work.empty with control := decide (x.state ≠ .faulted) }
        fun u => (u.endFlight a .fault).notice
          (.craneFault a .reported (some code.toNat) (x.flight.map fun f => (f.tag, f.job.bin))))) ∧
  (∀ (s : State) (tag : BitVec 16) (a : Fin 12), s.running → s.Tidy →
    let c := Instr.clearFault tag a
    let x := s.crane a
    (x.state ≠ .faulted → exec c s = .next (s.onlyAnswers (.refused tag.toNat 7 .wrongState))) ∧
    (x.state = .faulted →
      ∃ u : State,
        (∀ k, u.crane k = if k = a.val then { x with state := .offline, place := none, faultCode := none }
          else s.crane k) ∧
        u = { s with
          dispatch := { s.dispatch with cranes := u.dispatch.cranes }, work := { Work.empty with control := true } } ∧
        exec c s = .next (s.requestEnds (u.endFlight a .clearFault) (.done tag.toNat 7
          (match x.flight with
            | some f => be 1 0 ++ be 2 f.tag ++ be 2 f.job.bin
            | none => [1#8, 0#8, 0#8, 0#8, 0#8]))))) ∧
  (∀ (s : State) (a : Nat) (cause : ShiftCause), s.Tidy →
    ((s.crane a).flight = none → s.endFlight a cause = s) ∧
    ∀ f, (s.crane a).flight = some f →
      let j := f.job
      ∃ u : State,
        (∀ k, u.crane k = if k = a then { s.crane a with flight := none } else s.crane k) ∧
        (∀ b, u.bin b = (s.bin b).map fun r => if b = j.bin then
          { r with state := .stranded, target := if j.kind = .relocate then none else r.target } else r) ∧
        u = { s with
          dispatch := { s.dispatch with cranes := u.dispatch.cranes }, store := { s.store with bins := u.store.bins }
          work := { s.work with
            admission := true, drain := true
            up := if j.kind = .relocate then s.work.up ++ [.notice (.shiftEnded j.bin .stranded cause)] else s.work.up } } ∧
        s.endFlight a cause =
          match j.owner with
          | .member r => if j.kind = .fetch then u.fetchLost r .stranded else if j.kind = .store then u.storeLost r else u
          | _ => u) ∧
  ∀ (s : State) (r : MemberRef) (o : Order) (m : Member), s.Tidy → s.order r.order = some o →
    o.members[r.pos]? = some m →
    let lost (st : MemberState) (drops : Bool) (work : Work) (t : State) : Prop :=
      let loses := m.state ≠ .cancelled ∧ m.state ≠ st
      ∃ u : State,
        (∀ k, u.order k = (s.order k).map fun p => if k = r.order then
          { p with members := p.members.modify r.pos fun x =>
            { x with state := if loses then st else x.state, held := if drops = true then 0 else x.held } } else p) ∧
        (∀ k, u.station k = if k = o.station ∧ drops = true ∧ m.state ≠ .cancelled then
          { s.station k with reservations := (s.station k).reservations - 1 } else s.station k) ∧
        u = { s with
          desk := { s.desk with orders := u.desk.orders, stations := u.desk.stations }
          work := { work with
            up := if loses then s.work.up ++ [.notice (.memberLost r.order r.pos m.bin st)] else s.work.up } } ∧
        t = u.settleOrder r.order
    (∀ st, lost st true
      { s.work with
        admission := s.work.admission || decide (m.state ≠ .cancelled ∨ m.held ≠ 0)
        drain := s.work.drain || decide (m.held ≠ 0) } (s.fetchLost r st)) ∧
    lost .stranded false s.work (s.storeLost r)

/-- PARKED is taken in every crane state: position and load are recorded, or go absent and the report is counted where
the position is not valid; a job in flight is disposed of by its kind and the load; and the crane becomes PARKED
unless it is FAULTED (R75). The job goes back to the head of its queue, its bin RESERVED again for a FETCH or a
RELOCATE, or is re-formed as a STORE from CRANE where the crane has the bin of a STORE or a RELOCATE aboard, or is
ended with its bin STRANDED for a FETCH aboard and ADRIFT for a STORE from CRANE that is not (R76, R101). That the
load decides where the position is not valid (log entry 17), the owner and class of a RELOCATE re-formed as a STORE
(log entry 19), the cause of its SHIFT_ENDED (log entry 48), and that the bin of a STORE re-formed leaves both lists
of the aisle, whichever its STORE came from (log entry 63), are the model's choices. A FETCH that goes back to its
queue for a CANCELLED member is removed at once, as its cancellation would have removed it (R100, R101). A bin's home
point is the SLOT of its home. -/
def Obligations.ParkedDisposesOfTheJob : Prop :=
  (∀ (s : State) (b : Nat) (x : Bin), s.bin b = some x →
    s.homePoint b = .slot x.home.face x.home.level x.home.column) ∧
  (∀ (s : State) (a : Fin 12) (position : RawPoint) (load : BitVec 16), s.running → s.Tidy →
    let c := Instr.parked a position load
    let x := s.crane a
    let carried := if load.toNat = 65535 then none else some load.toNat
    let seen := match (s.aisle a).position position with
      | some p => { x with place := some { point := p, load := carried } }
      | none =>
        { x with place := none, rejected := if x.rejected < 4294967295 then x.rejected + 1 else x.rejected }
    let rests (u : State) : State := if x.state = .faulted then u else u.setCraneState a .parked
    (s.craneAddress a = none → HasNoEffect c s) ∧
    (s.craneAddress a ≠ none → x.flight = none → CraneBecomes s a c seen Work.empty rests) ∧
    ∀ f, s.craneAddress a ≠ none → x.flight = some f →
      CraneBecomes s a c seen Work.empty fun u => rests (u.disposeParked a f.job (decide (carried = some f.job.bin)))) ∧
  (∀ (s : State) (j : Job),
    ((∀ r, j.owner ≠ .member r) → s.removeCancelled j = s) ∧
    ∀ r, j.owner = .member r →
      (s.memberState r ≠ some .cancelled → s.removeCancelled j = s) ∧
      (s.memberState r = some .cancelled → s.removeCancelled j = (s.cancelFetch r j.bin).settleOrder r.order)) ∧
  (∀ (s : State) (b : Nat),
    ∃ u : State,
      (∀ c, u.bin c = (s.bin c).map fun x => if c = b then { x with target := none } else x) ∧
      u = { s with store := { s.store with bins := u.store.bins } } ∧ s.releaseTarget b = u) ∧
  ∀ (s : State) (a : Nat) (j : Job) (own : Bool), s.Tidy →
    let disposed (queued : Option Job) (state : Option BinState) (f : State → State) : Prop :=
      let x := { s.crane a with flight := none }
      ∃ u : State,
        (∀ k, u.crane k = if k = a then
          match queued with
          | some q => x.setQueue q.cls (q :: x.queue q.cls)
          | none => x
          else s.crane k) ∧
        (∀ b, u.bin b = (s.bin b).map fun r => if b = j.bin then { r with state := state.getD r.state } else r) ∧
        u = { s with
          dispatch := { s.dispatch with cranes := u.dispatch.cranes }, store := { s.store with bins := u.store.bins }
          work := if queued = none then { s.work with admission := true, drain := true } else s.work } ∧
        s.disposeParked a j own = f u
    let told (f : MemberRef → State → State) (u : State) : State :=
      match j.owner with
      | .member r => f r u
      | _ => u
    (j.kind = .fetch → own = false → disposed (some j) (some .reserved) fun u => u.removeCancelled j) ∧
    (j.kind = .fetch → own = true → disposed none (some .stranded) (told fun r u => u.fetchLost r .stranded)) ∧
    (j.kind = .store → (own = true ↔ j.origin = .crane) → disposed (some j) none id) ∧
    (j.kind = .store → own = true → j.origin ≠ .crane →
      disposed (some { j with origin := .crane }) none fun u => u.leaveLists a j.bin) ∧
    (j.kind = .store → own = false → j.origin = .crane →
      disposed none (some .adrift) (told fun r u => u.storeLost r)) ∧
    (j.kind = .relocate → own = false → disposed (some j) (some .reserved) id) ∧
    (j.kind = .relocate → own = true →
      disposed (some { j with kind := .store, cls := .house, origin := .crane, dest := s.homePoint j.bin }) (some .out)
        fun u => (u.releaseTarget j.bin).notice (.shiftEnded j.bin .out .parked))

/-- INFEED: rejected for an absent bin or one of another aisle; without effect for a bin whose STORE from INFEED
stands; a bin that is ADRIFT, STRANDED with no carry naming it, or OUT and held by nothing becomes OUT with a recovery
STORE queued, or is counted as refused where no record is free; any other is rejected (R77). A load that a ready crane
reports is judged likewise (R78): an expected one changes nothing; a lost bin's leaves every list, becomes OUT and has
a recovery STORE from CRANE queued, with NOTICE RECOVERY_QUEUED, or is counted as refused where no record is free, the
queue, the count and the notice's aisle being those of the bin's own aisle (log entry 16); any other is reported.
Where no load is reported, each queued STORE from CRANE ends, in class order and oldest first (log entry 56), its
record free, its bin ADRIFT and its member told. The jobs in use are those queued or in flight at the cranes, the
carries those of the lifts, and 512 less the records taken are free (R56). -/
def Obligations.InfeedAndLoadsRecoverBins : Prop :=
  (∀ s : State,
    (s.jobs = s.dispatch.cranes.flatMap fun p => p.2.queued ++ (p.2.flight.map (·.job)).toList) ∧
    (s.carries = s.pool.lifts.flatMap fun p => p.2.carries) ∧ s.freeCount = 512 - s.recordsTaken) ∧
  (∀ x : Crane, x.load = x.place.bind (·.load)) ∧
  (∀ (s : State) (a : Fin 12) (bin : BitVec 16), s.running → s.Tidy →
    let c := Instr.infeed a bin
    let x := s.crane a
    let b := bin.toNat
    let rejected : Prop := CraneBecomes s a c
      { x with rejected := if x.rejected < 4294967295 then x.rejected + 1 else x.rejected } Work.empty id
    let expected := ∃ j ∈ s.jobs, j.kind = .store ∧ j.origin = .infeed ∧ j.bin = b
    let held := (∃ j ∈ s.jobs, j.bin = b) ∨ (∃ y ∈ s.carries, y.bin = b) ∨ (∃ e ∈ s.pool.waitList, e.bin = b) ∨
      ∃ p ∈ s.desk.stations, ∃ y ∈ p.2.lane, y.bin = b
    let lost (r : Bin) : Prop := r.state = .adrift ∨ (r.state = .stranded ∧ ¬ ∃ y ∈ s.carries, y.bin = b) ∨
      (r.state = .out ∧ ¬ held)
    (s.craneAddress a = none → HasNoEffect c s) ∧
    (s.craneAddress a ≠ none →
      (s.bin b = none → rejected) ∧
      ∀ r, s.bin b = some r →
        (r.home.aisle ≠ a → rejected) ∧
        (r.home.aisle = a → expected → HasNoEffect c s) ∧
        (r.home.aisle = a → ¬ expected → ¬ lost r → rejected) ∧
        (r.home.aisle = a → ¬ expected → lost r → s.freeCount = 0 →
          CraneBecomes s a c
            { x with
              refusedRecoveries :=
                if x.refusedRecoveries < 4294967295 then x.refusedRecoveries + 1 else x.refusedRecoveries }
            Work.empty id) ∧
        (r.home.aisle = a → ¬ expected → lost r → s.freeCount ≠ 0 →
          let j : Job := { kind := .store, cls := .house, bin := b, origin := .infeed
                           dest := .slot r.home.face r.home.level r.home.column, owner := .recovery }
          ∃ u : State,
            (∀ k, u.bin k = if k = b then some { r with state := .out } else s.bin k) ∧
            (∀ k, u.crane k = if k = a.val then { x with houseQueue := x.houseQueue ++ [j] } else s.crane k) ∧
            u = { s with
              store := { s.store with bins := u.store.bins }
              dispatch := { s.dispatch with cranes := u.dispatch.cranes }
              work := { Work.empty with up := [.notice (.recoveryQueued a b .infeed)] } } ∧
            exec c s = .next (s.eventEnds (u.dispatchTest a))))) ∧
  (∀ (s : State) (a b : Nat) (r : Bin), s.Tidy → (s.crane a).load = some b → s.bin b = some r →
    let fromCrane := ∃ j ∈ (s.crane a).queued, j.origin = .crane ∧ j.bin = b
    let lost := r.state = .adrift ∨ (r.state = .stranded ∧ ¬ ∃ y ∈ s.carries, y.bin = b)
    let home := r.home.aisle
    (fromCrane → s.judgeLoad a = s) ∧
    (¬ fromCrane → ¬ lost → s.judgeLoad a = s.notice (.unexpectedLoad a b)) ∧
    (¬ fromCrane → lost → s.freeCount = 0 →
      ∃ u : State,
        (∀ k, u.crane k = if k = home then
          { s.crane home with refusedRecoveries := if (s.crane home).refusedRecoveries < 4294967295 then
            (s.crane home).refusedRecoveries + 1 else (s.crane home).refusedRecoveries } else s.crane k) ∧
        u = { s with dispatch := { s.dispatch with cranes := u.dispatch.cranes } } ∧ s.judgeLoad a = u) ∧
    (¬ fromCrane → lost → s.freeCount ≠ 0 →
      let j : Job := { kind := .store, cls := .house, bin := b, origin := .crane
                       dest := .slot r.home.face r.home.level r.home.column, owner := .recovery }
      let v := forEach (List.range 12) (fun k t => t.leaveLists k b) s
      ∃ u : State,
        (∀ c, u.bin c = (v.bin c).map fun x => if c = b then { x with state := .out } else x) ∧
        (∀ k, u.crane k = if k = home then { v.crane home with houseQueue := (v.crane home).houseQueue ++ [j] }
          else v.crane k) ∧
        u = { v with
          store := { v.store with bins := u.store.bins }
          dispatch := { v.dispatch with cranes := u.dispatch.cranes }
          work := { v.work with up := v.work.up ++ [.notice (.recoveryQueued home b .crane)] } } ∧
        s.judgeLoad a = u.dispatchTest home)) ∧
  (∀ (s : State) (a b : Nat), (s.crane a).load = some b → s.bin b = none →
    (¬ ∃ j ∈ (s.crane a).queued, j.origin = .crane ∧ j.bin = b) → s.judgeLoad a = s.notice (.unexpectedLoad a b)) ∧
  (∀ (s : State) (a : Nat), (s.crane a).load = none → s.judgeLoad a =
    forEach ((s.crane a).queued.filter fun j => decide (j.origin = .crane)) (State.endOrphan a) s) ∧
  (∀ (s : State) (a : Nat) (j : Job), s.Tidy →
    ∃ u : State,
      (∀ k, u.crane k = if k = a then (s.crane a).setQueue j.cls (((s.crane a).queue j.cls).erase j) else s.crane k) ∧
      (∀ c, u.bin c = (s.bin c).map fun x => if c = j.bin then { x with state := .adrift } else x) ∧
      u = { s with
        store := { s.store with bins := u.store.bins }
        dispatch := { s.dispatch with cranes := u.dispatch.cranes }
        work := { s.work with admission := true, drain := true } } ∧
      State.endOrphan a j s = match j.owner with
        | .member r => u.storeLost r
        | _ => u) ∧
  ∀ (s : State) (a b : Nat), s.Tidy →
    let front := { s.crane a with front := (s.crane a).front.erase b }
    (b ∉ (s.crane a).front → s.leaveFront a b = s) ∧
    (b ∈ (s.crane a).front → ∃ u : State,
      (∀ k, u.crane k = if k = a then front else s.crane k) ∧
      u = { s with dispatch := { s.dispatch with cranes := u.dispatch.cranes } } ∧
      s.leaveFront a b = u.dispatchTest a) ∧
    (b ∉ (s.crane a).infeed → s.leaveInfeed a b = s) ∧
    (b ∈ (s.crane a).infeed → ∃ u : State,
      (∀ k, u.crane k = if k = a then { s.crane a with infeed := (s.crane a).infeed.erase b } else s.crane k) ∧
      u = { s with
        dispatch := { s.dispatch with cranes := u.dispatch.cranes }, work := { s.work with scan := true } } ∧
      s.leaveInfeed a b = u) ∧
    s.leaveLists a b = (s.leaveFront a b).leaveInfeed a b

/-- SHIFT: BIN_UNKNOWN, VALUE_RANGE for a target that is no slot of the bin's own aisle, BIN_BUSY unless STORED,
SLOT_TAKEN, and QUEUE_FULL below 33 free records; otherwise the bin becomes RESERVED with its target, a RELOCATE joins
the HOUSE queue, and the aisle is tested. FLUSH: AISLE_BUSY while the crane is BUSY or PARKING; otherwise each queued
job is removed in class order, oldest first, with dispatch tests held until the last removal, and the ANSWER carries
their number. A FETCH or RELOCATE removed makes its bin STORED and offered, a STORE makes it ADRIFT (R33, R58, R79).
That the SHIFT_ENDED of a flushed RELOCATE carries STORED (log entry 19) and a cause FLUSH (log entry 48) is the
model's choice. -/
def Obligations.ShiftAndFlush : Prop :=
  (∀ (s : State) (tag bin : BitVec 16) (target : RawSlot), s.running → s.Tidy →
    let c := Instr.shift tag bin target
    let b := bin.toNat
    let refused (x : Reason) : Prop := exec c s = .next (s.onlyAnswers (.refused tag.toNat 4 x))
    (s.bin b = none → refused .binUnknown) ∧
    ∀ r, s.bin b = some r →
      let a := r.home.aisle
      let y := s.aisle a
      let ranged := target.aisle.toNat = a ∧ a < 12 ∧ 1 ≤ y.levels ∧ target.face.toNat ≤ 1 ∧
        1 ≤ target.level.toNat ∧ target.level.toNat ≤ y.levels ∧ 1 ≤ target.column.toNat ∧
        target.column.toNat ≤ y.columns
      let t : Slot := { aisle := a, face := if target.face.toNat = 0 then .left else .right
                        level := target.level.toNat, column := target.column.toNat }
      let taken := ∃ p ∈ s.store.bins, p.2.home = t ∨ p.2.target = some t
      (¬ ranged → refused .valueRange) ∧
      (ranged → r.state ≠ .stored → refused .binBusy) ∧
      (ranged → r.state = .stored → taken → refused .slotTaken) ∧
      (ranged → r.state = .stored → ¬ taken → s.freeCount < 33 → refused .queueFull) ∧
      (ranged → r.state = .stored → ¬ taken → 33 ≤ s.freeCount →
        let j : Job := { kind := .relocate, cls := .house, bin := b
                         origin := .slot r.home.face r.home.level r.home.column
                         dest := .slot t.face t.level t.column, owner := .shift }
        ∃ u : State,
          (∀ k, u.bin k = if k = b then some { r with state := .reserved, target := some t } else s.bin k) ∧
          (∀ k, u.crane k = if k = a then { s.crane a with houseQueue := (s.crane a).houseQueue ++ [j] }
            else s.crane k) ∧
          u = { s with
            store := { s.store with bins := u.store.bins }
            dispatch := { s.dispatch with cranes := u.dispatch.cranes }, work := Work.empty } ∧
          exec c s = .next (s.requestEnds (u.dispatchTest a) (.done tag.toNat 4 (be 2 b))))) ∧
  (∀ (s : State) (tag : BitVec 16) (a : Fin 12), s.running → s.Tidy →
    let c := Instr.flush tag a
    let x := s.crane a
    let jobs := x.patronQueue ++ x.restoreQueue ++ x.houseQueue
    let held := { s with work := { Work.empty with testsHeld := true } }
    (x.state = .busy ∨ x.state = .parking → exec c s = .next (s.onlyAnswers (.refused tag.toNat 7 .aisleBusy))) ∧
    (x.state ≠ .busy → x.state ≠ .parking →
      let u := forEach jobs (State.flushJob a) held
      exec c s = .next (s.requestEnds
        (State.dispatchTest { u with work := { u.work with testsHeld := false } } a)
        (.done tag.toNat 7 (be 2 jobs.length))))) ∧
  ∀ (s : State) (a : Nat) (j : Job), s.Tidy →
    ∃ u : State,
      (∀ k, u.crane k = if k = a then (s.crane a).setQueue j.cls (((s.crane a).queue j.cls).erase j) else s.crane k) ∧
      (∀ b, u.bin b = (s.bin b).map fun r => if b = j.bin then
        { r with
          state := if j.kind = .store then .adrift else r.state
          target := if j.kind = .relocate then none else r.target } else r) ∧
      u = { s with
        store := { s.store with bins := u.store.bins }
        dispatch := { s.dispatch with cranes := u.dispatch.cranes }
        work := { s.work with admission := true, drain := true } } ∧
      State.flushJob a j s =
        match j.kind, j.owner with
        | .fetch, .member r => (u.becomeStored j.bin).fetchLost r .failed
        | .fetch, _ => u.becomeStored j.bin
        | .store, .member r => u.storeLost r
        | .store, _ => u
        | .relocate, _ => (u.becomeStored j.bin).notice (.shiftEnded j.bin .stored .flush)

/-! ## The Travel Estimator -/

/-- The axis time of a run, by its two branches, for every speed limit and acceleration in range: on the full-speed
branch the exact time rounded up, on the short-run branch the smallest whole time that suffices (R45); the coordinates
of the points (R29, R30), the leg, the longer of two axis times (R47), the estimates of a job and of a PARK (R48,
R49), the move deadline (R50), the gather limit (R51) and the park deadline with what each crane contributes to it
(R52). A dispatch test starts at most one job: the oldest that can go (R63, R64) of the class that the STRICT order or
the credits of WEIGHTED choose (R65). The job takes the next tag, its estimate and deadline are computed from the
crane's position and its timer starts, crane, bin and member change state, and MOVE is sent (R66). A job is asked for
at the tail of its class's queue, and the aisle tested (R57); what a member's job takes it had held (R55), and no test
takes a front list over its size (R60). The queue and the credit of each class, and the four bytes that carry a point
(R28), are stated as well. -/
def Obligations.AxisTimesAndMoveDeadlines : Prop :=
  (∀ (x : Crane) (q : List Job),
    x.queue .patron = x.patronQueue ∧ x.queue .restore = x.restoreQueue ∧ x.queue .house = x.houseQueue ∧
    x.setQueue .patron q = { x with patronQueue := q } ∧ x.setQueue .restore q = { x with restoreQueue := q } ∧
    x.setQueue .house q = { x with houseQueue := q } ∧ x.credit .patron = x.patronCredit ∧
    x.credit .restore = x.restoreCredit ∧ x.credit .house = x.houseCredit ∧
    x.queued = x.patronQueue ++ x.restoreQueue ++ x.houseQueue ∧
    x.jobs = x.queued ++ (x.flight.map (·.job)).toList) ∧
  (∀ p : Point, p.bytes = Fields.bytes (match p with
    | .slot f l c => [(1, 0), (1, f.code), (1, l), (1, c)]
    | .front => [(1, 1), (3, 0)]
    | .infeed => [(1, 2), (3, 0)]
    | .park => [(1, 3), (3, 0)]
    | .crane => [(1, 4), (3, 0)])) ∧
  (∀ v a, axisTime 0 v a = 0) ∧
  (∀ d v a, 0 < d → 0 < v → 0 < a → v * v ≤ d * a →
    let t := axisTime d v a
    1000 * (d * a + v * v) ≤ t * (v * a) ∧ (t - 1) * (v * a) < 1000 * (d * a + v * v)) ∧
  (∀ d v a, 0 < d → 100 ≤ v → v ≤ 5000 → 100 ≤ a → a ≤ 3000 → d * a < v * v →
    let t := axisTime d v a
    4000000 * d ≤ t * t * a ∧ ∀ m, m < t → m * m * a < 4000000 * d) ∧
  (∀ (p : Params) (e : Nat), p.moveDeadline e = min 900000 (e + e * p.moveMargin / 100 + p.moveAllowance)) ∧
  (∀ r : Aisle,
    let column (c : Nat) : Nat := r.frontOffset + c * r.columnPitch
    let mirrored (f : Face) : Prop := (f = .left ∧ r.leftMirrored = true) ∨ (f = .right ∧ r.rightMirrored = true)
    (∀ f l c, (¬ mirrored f → r.x (.slot f l c) = column c) ∧ (mirrored f → r.x (.slot f l c) = column (r.columns + 1 - c)) ∧
      r.y (.slot f l c) = l * r.levelPitch) ∧
    r.x .front = 0 ∧ r.x .infeed = 0 ∧ r.x .park = column r.parkColumn ∧ r.y .front = r.frontLevel * r.levelPitch ∧
    r.y .infeed = r.infeedLevel * r.levelPitch ∧ r.y .park = r.parkLevel * r.levelPitch ∧
    (∀ p q, ∃ tx ty, r.leg p q = max tx ty ∧
      (∀ d, r.x p + d = r.x q ∨ r.x q + d = r.x p → tx = axisTime d r.travelVmax r.travelAccel) ∧
      ∀ d, r.y p + d = r.y q ∨ r.y q + d = r.y p → ty = axisTime d r.hoistVmax r.hoistAccel) ∧
    (∀ p o d, o ≠ .crane → r.jobEstimate p o d = min 600000 (r.leg p o + r.handling + r.leg o d + r.handling)) ∧
    (∀ p d, r.jobEstimate p .crane d = min 600000 (r.leg p d + r.handling)) ∧
    ∀ p, r.parkEstimate p = min 600000 (r.leg p .park)) ∧
  (∀ (s : State) (bins : List Nat) (slack : Nat),
    let fetch (b t : Nat) : Prop := ∃ x, s.bin b = some x ∧
      let r := s.aisle x.home.aisle
      t = min 600000 (2 * r.leg .front (.slot x.home.face x.home.level x.home.column) + 2 * r.handling)
    ∀ hi lo, (∀ b ∈ bins, ∃ t, fetch b t ∧ lo ≤ t ∧ t ≤ hi) → (∃ b ∈ bins, fetch b hi) → (∃ b ∈ bins, fetch b lo) →
      s.gatherLimit bins slack = max slack (min 600000 (hi - lo + slack))) ∧
  (∀ (s : State) (a : Nat),
    let r := s.aisle a
    let x := s.crane a
    let counted := r.configured = true ∧ x.place ≠ none ∧ x.state ≠ .offline ∧ x.state ≠ .faulted
    (¬ counted → s.parkContribution a = none) ∧
    ∀ p, counted → x.place = some p →
      let at_ (q : Point) : Point := if q = .crane then p.point else q
      (x.state = .ready ∨ x.state = .parked ∨ x.flight = none → s.parkContribution a = some (r.parkEstimate p.point)) ∧
      ∀ f, x.flight = some f → x.state = .busy ∨ x.state = .parking →
        s.parkContribution a =
          some (max (r.parkEstimate (at_ f.job.origin)) (r.parkEstimate (at_ f.job.dest)))) ∧
  (∀ (s : State) (as : List Nat) (allowance hi : Nat),
    (hi = 0 ∨ ∃ a ∈ as, s.parkContribution a = some hi) → (∀ a ∈ as, ∀ c, s.parkContribution a = some c → c ≤ hi) →
      s.parkDeadline as allowance = min 900000 (hi + allowance)) ∧
  (∀ (s : State) (a : Nat), s.Tidy →
    let x := s.crane a
    let y := s.aisle a
    let may := s.work.testsHeld = false ∧ y.configured = true ∧ x.state = .ready ∧ s.craneAddress a ≠ none ∧
      (∀ z ∈ y.zones, (s.zone z).state = .clear) ∧ (s.mode.mode = .run ∨ s.mode.mode = .draining)
    let load := x.place.bind (·.load)
    let flying := if ∃ f, x.flight = some f ∧ f.job.kind = .fetch then 1 else 0
    let able (j : Job) : Prop :=
      (j.origin = .crane → load = some j.bin) ∧ (j.origin ≠ .crane → load = none) ∧
      (j.kind = .fetch → j.origin ≠ .crane → x.front.length + flying < y.frontSize)
    let some_ (k : JobClass) : Prop := ∃ j ∈ x.queue k, able j
    let before (i k : JobClass) : Prop := (i = .patron ∧ k ≠ .patron) ∨ (i = .restore ∧ k = .house)
    let weight (k : JobClass) : Nat := match k with
      | .patron => y.patronWeight
      | .restore => y.restoreWeight
      | .house => y.houseWeight
    let paid (c : JobClass → Nat) (k i : JobClass) : Nat := if i = k then c i - 1 else c i
    let first (p : JobClass → Prop) (k : JobClass) : Prop := p k ∧ ∀ i, before i k → ¬ p i
    let credited (i : JobClass) : Prop := some_ i ∧ 0 < x.credit i
    let chosen (k : JobClass) (credit : JobClass → Nat) : Prop :=
      (y.mode = .strict ∧ first some_ k ∧ credit = x.credit) ∨
      (y.mode = .weighted ∧ first credited k ∧ credit = paid x.credit k) ∨
      (y.mode = .weighted ∧ (∀ i, ¬ credited i) ∧ first (fun i => some_ i ∧ 0 < weight i) k ∧ credit = paid weight k)
    (¬ may ∨ (∀ k, ¬ some_ k) ∨ x.place = none → s.dispatchTest a = s) ∧
    ∀ p k credit l j r, may → x.place = some p → chosen k credit → x.queue k = l ++ j :: r → able j →
      (∀ i ∈ l, ¬ able i) →
      let estimate := y.jobEstimate p.point j.origin j.dest
      let deadline := s.params.moveDeadline estimate
      let tag := s.dispatch.jobTag
      ∃ u : State,
        (∀ c, u.crane c = if c = a then
          { x.setQueue k (l ++ r) with
            state := .busy, patronCredit := credit .patron, restoreCredit := credit .restore
            houseCredit := credit .house
            flight := some { job := j, tag, estimate, deadline, late := false, timer := some (s.now + deadline) } }
          else s.crane c) ∧
        (∀ b, u.bin b = (s.bin b).map fun q => if b = j.bin then
          { q with state := if j.kind = .relocate then .moving else .out } else q) ∧
        (∀ n, u.order n = (s.order n).map fun o => match j.owner with
          | .member m => if n = m.order ∧ j.kind = .fetch ∧ s.memberState m = some .queued then
              { o with members := o.members.modify m.pos fun q => { q with state := .fetching } } else o
          | _ => o) ∧
        u = { s with
          dispatch := { cranes := u.dispatch.cranes, jobTag := if tag < 65535 then tag + 1 else 0 }
          store := { s.store with bins := u.store.bins }
          desk := { s.desk with orders := u.desk.orders }
          work := { s.work with
            control := true
            down := s.work.down ++ toUnit (s.craneAddress a) 24
              (be 2 tag ++ be 1 j.kind.code ++ j.origin.bytes ++ j.dest.bytes ++ be 2 j.bin) (.move a) } } ∧
        s.dispatchTest a = u) ∧
  (∀ (s : State) (r : MemberRef) (b : Nat) (o : Order) (m : Member) (x : Bin) (origin : Point), s.Tidy →
    s.order r.order = some o → o.members[r.pos]? = some m → s.bin b = some x →
    let a := x.home.aisle
    let home := Point.slot x.home.face x.home.level x.home.column
    let cls : JobClass := if o.kind = .patron then .patron else .restore
    let asked (j : Job) (f : Member → Member) (st : BinState) (t : State) : Prop :=
      ∃ u : State,
        (∀ k, u.crane k = if k = a then (s.crane a).setQueue cls ((s.crane a).queue cls ++ [j]) else s.crane k) ∧
        (∀ c, u.bin c = if c = b then some { x with state := st } else s.bin c) ∧
        (∀ n, u.order n = (s.order n).map fun p => if n = r.order then
          { p with members := p.members.modify r.pos f } else p) ∧
        u = { s with
          dispatch := { s.dispatch with cranes := u.dispatch.cranes }
          store := { s.store with bins := u.store.bins }
          desk := { s.desk with orders := u.desk.orders } } ∧
        (1 ≤ m.held → u.recordsTaken ≤ s.recordsTaken) ∧ t = u.dispatchTest a
    asked { kind := .fetch, cls, bin := b, origin := home, dest := .front, owner := .member r }
      (fun q => { q with held := q.held - 1, state := .queued }) .reserved (s.requestFetch r b) ∧
    asked { kind := .store, cls, bin := b, origin, dest := home, owner := .member r }
      (fun q => { q with held := q.held - 1 }) x.state (s.requestStore r b origin)) ∧
  ∀ (s : State) (a : Nat), s.Tidy →
    (s.listsFit a → (s.dispatchTest a).listsFit a) ∧ (s.dispatchTest a).recordsTaken ≤ s.recordsTaken


/-! ## Zone Control -/

/-- ZONE_SHUT and the expiry of the alarm debounce timer start a shutdown by the zone's state and the mode: CLEAR goes
to STOPPING, or to CLOSING in QUIET, and leaves CLEAR for its stations and lifts; ENABLING goes to STOPPING, or to
CLOSING in QUIET; OPENING goes to CLOSING; the other states stay. The cause is given where the state changes, and a
command's ANSWER carries the state after the event (R155, R156). That the expiry command is honoured whenever its
timer runs, and has no effect while it does not, is the model's choice (log entry 12). SEAL_NOW goes to CLOSING from
every state but CLOSING and SEALED, faulting the awaited cranes of a STOPPING zone that are not at rest (R163). A zone
that leaves CLEAR has its stations' lanes stranded and their windows taken from their owners (R102), and then its
lifts barred, or held back in a WRITE that can shut several zones (R114; log entry 47). The stations and the named
cranes go in ascending number (log entry 22), the bins of a lane in its order with the tests of their orders after the
last (log entry 49), and MEMBER_LOST is sent only where a member's state changes (log entries 15 and 40). STOPPING
takes the park deadline of the cranes it names, awaits those that the deadline counts, and has them parked (R158); it
parks a crane that becomes READY, and goes to SETTLING once none it awaits is READY, BUSY or PARKING (R159). Each
course of a shutdown is stated too for an operation that both events share. -/
def Obligations.ShutdownsByZoneState : Prop :=
  (∀ (s : State) (tag : BitVec 16) (z : Fin 8), s.running → s.Tidy →
    let r := s.zone z
    let closing (x : Zone) : Zone := { x with state := .closing, fault := false, timer := some (s.now + x.shutterLimit) }
    let stopping (x : Zone) : Zone := { x with state := .stopping, timer := none }
    let answered (c : Instr) (u : State) : Prop :=
      exec c s = .next (s.requestEnds u (.done tag.toNat 7 (be 1 (u.settle.zone z).state.code)))
    let shutdown (x : Zone) (ends : State → Prop) (cause : ZoneCause) : Prop :=
      let y := { x with cause := some cause }
      (x.state = .clear → s.mode.mode ≠ .quiet →
        ∃ u, ZoneGoes s.beginEvent u z (stopping y) ∧ ends ((u.leaveClear z).beginStopping z)) ∧
      (x.state = .clear → s.mode.mode = .quiet →
        ∃ u, ZoneGoes s.beginEvent u z (closing y) ∧ ends (State.feedback z (u.leaveClear z))) ∧
      (x.state = .enabling → s.mode.mode ≠ .quiet →
        ∃ u, ZoneGoes s.beginEvent u z (stopping y) ∧ ends (u.beginStopping z)) ∧
      (x.state = .opening ∨ (x.state = .enabling ∧ s.mode.mode = .quiet) →
        ∃ u, ZoneGoes s.beginEvent u z (closing y) ∧ ends (State.feedback z u))
    let stays := r.state = .stopping ∨ r.state = .settling ∨ r.state = .closing ∨ r.state = .sealed
    shutdown r (answered (.zoneShut tag z)) .manual ∧
    (stays → exec (.zoneShut tag z) s = .next (s.onlyAnswers (.done tag.toNat 7 (be 1 r.state.code)))) ∧
    (r.debounceTimer = none → HasNoEffect (.alarmDebounceExpiry z) s) ∧
    (r.debounceTimer ≠ none →
      shutdown { r with debounceTimer := none }
        (fun u => exec (.alarmDebounceExpiry z) s = .next (s.eventEnds u)) .alarm ∧
      (stays →
        ∃ u : State,
          (∀ k, u.zone k = if k = z.val then { r with debounceTimer := none } else s.zone k) ∧
          u = { s with zones := u.zones, work := Work.empty } ∧
          exec (.alarmDebounceExpiry z) s = .next (s.closeEvent u none))) ∧
    (r.state = .clear →
      ∃ u, ZoneGoes s.beginEvent u z (closing { r with cause := some .manual }) ∧
        answered (.sealNow tag z) (State.feedback z (u.leaveClear z))) ∧
    (r.state = .opening ∨ r.state = .enabling →
      ∃ u, ZoneGoes s.beginEvent u z (closing { r with cause := some .manual }) ∧
        answered (.sealNow tag z) (State.feedback z u)) ∧
    (r.state = .settling →
      ∃ u, ZoneGoes s.beginEvent u z (closing r) ∧ answered (.sealNow tag z) (State.feedback z u)) ∧
    (r.state = .stopping →
      let late := r.awaited.filter fun a => decide ((s.crane a).state ∈ [CraneState.ready, .busy, .parking])
      ∃ u, ZoneGoes (s.beginEvent.faultRequest late .parkLate) u z (closing { r with awaited := [] }) ∧
        answered (.sealNow tag z) (State.feedback z u)) ∧
    (r.state = .closing ∨ r.state = .sealed →
      exec (.sealNow tag z) s = .next (s.onlyAnswers (.done tag.toNat 7 (be 1 r.state.code))))) ∧
  (∀ (s : State) (z : Nat) (cause : ZoneCause), s.Tidy →
    let y := { s.zone z with cause := some cause }
    let st := (s.zone z).state
    let closing : Zone := { y with state := .closing, fault := false, timer := some (s.now + y.shutterLimit) }
    let stopping : Zone := { y with state := .stopping, timer := none }
    (st = .clear → s.mode.mode ≠ .quiet →
      ∃ u, ZoneGoes s u z stopping ∧ s.shutdown z cause = (u.leaveClear z).beginStopping z) ∧
    (st = .clear → s.mode.mode = .quiet →
      ∃ u, ZoneGoes s u z closing ∧ s.shutdown z cause = State.feedback z (u.leaveClear z)) ∧
    (st = .enabling → s.mode.mode ≠ .quiet →
      ∃ u, ZoneGoes s u z stopping ∧ s.shutdown z cause = u.beginStopping z) ∧
    (st = .opening ∨ (st = .enabling ∧ s.mode.mode = .quiet) →
      ∃ u, ZoneGoes s u z closing ∧ s.shutdown z cause = State.feedback z u) ∧
    (st = .stopping ∨ st = .settling ∨ st = .closing ∨ st = .sealed → s.shutdown z cause = s)) ∧
  (∀ (s : State) (z : Nat),
    let within (k : Nat) (at_ : Nat → Nat) : List Nat := (List.range k).filter fun n => decide (at_ n = z)
    let t := forEach (within 24 fun st => (s.station st).zone) State.stationShut s
    let shuts (l : Nat) : Bool := decide ((t.lift l).zone = z ∧ (t.lift l).word ≠ .bar ∧
      ((t.lift l).word = .off → (t.lift l).carries ≠ []))
    let ls := (List.range 6).filter shuts
    (t.work.bars = none → ls = [] → s.leaveClear z = t) ∧
    (t.work.bars = none → ls ≠ [] → s.leaveClear z = t.barLifts ls .zone) ∧
    ∀ held, t.work.bars = some held →
      s.leaveClear z = { t with work := { t.work with bars := some (held ++ ls) } }) ∧
  (∀ (s : State) (st : Nat), s.Tidy →
    let w := s.station st
    ∃ u v : State,
      (∀ k, u.station k = if k = st then { w with lane := [], owner := none } else s.station k) ∧
      u = { s with
        desk := { s.desk with stations := u.desk.stations }
        pool := { s.pool with waitList := s.pool.waitList.filter fun e => decide (e.station ≠ st) }
        work := { s.work with drain := true, admission := s.work.admission || decide (w.lane ≠ []) } } ∧
      (let t := forEach w.lane State.strandLaneBin u
       let rejoins (n : Nat) : Prop := w.owner = some n ∧ ∃ o, t.order n = some o ∧
         ∃ m ∈ o.members, m.state ∉ [MemberState.done, .stranded, .failed, .cancelled]
       ((∀ n, ¬ rejoins n) → v = t) ∧
       (∀ n, rejoins n →
         (∀ k, v.station k = if k = st then { t.station st with presQueue := (t.station st).presQueue ++ [n] }
           else t.station k) ∧
         v = { t with desk := { t.desk with stations := v.desk.stations } })) ∧
      State.stationShut st s = forEach (w.lane.map fun l => l.ref.order).dedup (fun n x => x.settleOrder n) v) ∧
  (∀ (s : State) (l : LaneBin) (m : Member), s.Tidy → s.member l.ref = some m →
    let loses := m.state ≠ .cancelled ∧ m.state ≠ .stranded
    ∃ u : State,
      (∀ b, u.bin b = (s.bin b).map fun x => if b = l.bin then { x with state := .stranded } else x) ∧
      (∀ k, u.order k = (s.order k).map fun p => if k = l.ref.order then
        { p with members := p.members.modify l.ref.pos fun x =>
          { x with state := if loses then .stranded else x.state, held := 0 } } else p) ∧
      u = { s with
        store := { s.store with bins := u.store.bins }, desk := { s.desk with orders := u.desk.orders }
        work := { s.work with
          admission := s.work.admission || decide (m.held ≠ 0), drain := s.work.drain || decide (m.held ≠ 0)
          up := if loses then s.work.up ++ [.notice (.memberLost l.ref.order l.ref.pos m.bin .stranded)]
            else s.work.up } } ∧
      State.strandLaneBin l s = u) ∧
  ∀ (s : State) (z : Nat), s.Tidy →
    let named := (List.range 12).filter fun a => decide (z ∈ (s.aisle a).zones)
    let unparked (t : State) (a : Nat) : Prop := (t.crane a).state ∈ [CraneState.ready, .busy, .parking]
    (∃ u : State,
      (∀ k, u.zone k = if k = z then
        { s.zone z with
          timer := some (s.now + s.parkDeadline named (s.zone z).parkAllowance)
          awaited := named.filter fun a =>
            decide (s.craneAddress a ≠ none ∧ s.parkContribution a ≠ none) }
        else s.zone k) ∧
      u = { s with zones := u.zones } ∧
      (let t := forEach named State.parkCrane u
       s.beginStopping z = { t with work := { t.work with zoneTests := t.work.zoneTests ++ [z] } })) ∧
    ((s.zone z).state ≠ .stopping → State.stoppingTest z s = s) ∧
    ((s.zone z).state = .stopping →
      let t := forEach (named.filter fun a => decide ((s.crane a).state = .ready)) State.parkCrane s
      ((∃ a ∈ (s.zone z).awaited, unparked t a) → State.stoppingTest z s = t) ∧
      ((∀ a ∈ (s.zone z).awaited, ¬ unparked t a) →
        ∃ u : State,
          ZoneGoes t u z
            { s.zone z with state := .settling, timer := some (s.now + (s.zone z).brakeSettle), awaited := [] } ∧
          State.stoppingTest z s = if (s.zone z).brakeSettle = 0 then u.enterClosing z else u))

/-- ZONE_RESTORE: WRONG_STATE unless SEALED, ALARM_ACTIVE while the alarm line is present and asserted; otherwise the
cause and the fault flag are cleared and the zone is OPENING (R164). The expiries of the zone's timers, each in the
state that runs it: the park deadline faults the awaited cranes not at rest and enters SETTLING; the brake settle
timer enters CLOSING; the shutter timer seals a CLOSING zone, and seals or enables an OPENING one, with the fault flag
and NOTICE SHUTTER_FAULT where the feedback line is present; the ready timer makes the zone CLEAR once the cranes
found wanting are faulted, or in QUIET made OFFLINE (R159 to R161, R165, R167); these cranes and the aisles tested for
a dispatch go in ascending number (log entry 22). That an expiry command is honoured whenever its timer runs in its
state, and has no effect otherwise, is the model's choice (log entry 12). A zone that becomes CLEAR has its aisles
tested for a dispatch, hands on the AT_FRONT members of its stations in the order of their orders' admission and gives
their windows owners, has an admission pass made, and owes the scan of the carry wait list and then a restore pass
(R103, R168). The ready test makes it CLEAR when every counted crane is READY, as when none is counted (R166, R167);
none is made in the event that ends a reset period (log entry 42). -/
def Obligations.RestoreAndZoneTimers : Prop :=
  (∀ (s : State) (tag : BitVec 16) (z : Fin 8), s.running → s.Tidy →
    let r := s.zone z
    let present (n : Nat) : Prop := (s.line n).selection = .first
    let refused (x : Reason) : Prop := exec (.zoneRestore tag z) s = .next (s.onlyAnswers (.refused tag.toNat 7 x))
    let alarm := present z ∧ s.lineValue z = true
    let closing (x : Zone) : Zone := { x with state := .closing, fault := false, timer := some (s.now + x.shutterLimit) }
    let enabling (x : Zone) : Zone := { x with state := .enabling, timer := some (s.now + x.readyLimit) }
    let runs (st : ZoneState) : Prop := r.state = st ∧ r.timer ≠ none
    let ends (c : Instr) (u : State) : Prop := exec c s = .next (s.eventEnds u)
    (r.state ≠ .sealed → refused .wrongState) ∧
    (r.state = .sealed → alarm → refused .alarmActive) ∧
    (r.state = .sealed → ¬ alarm →
      ∃ u, ZoneGoes s.beginEvent u z
          { r with state := .opening, cause := none, fault := false, timer := some (s.now + r.shutterLimit) } ∧
        exec (.zoneRestore tag z) s = .next (s.requestEnds (State.feedback z u) (.done tag.toNat 7 [5#8]))) ∧
    (¬ runs .stopping → HasNoEffect (.parkDeadlineExpiry z) s) ∧
    (runs .stopping →
      let late := r.awaited.filter fun a => decide ((s.crane a).state ∈ [CraneState.ready, .busy, .parking])
      ∃ u, ZoneGoes (s.beginEvent.faultRequest late .parkLate) u z
          { r with state := .settling, timer := some (s.now + r.brakeSettle), awaited := [] } ∧
        ends (.parkDeadlineExpiry z) (if r.brakeSettle = 0 then u.enterClosing z else u)) ∧
    (¬ runs .settling → HasNoEffect (.brakeSettleExpiry z) s) ∧
    (runs .settling →
      ∃ u, ZoneGoes s.beginEvent u z (closing r) ∧ ends (.brakeSettleExpiry z) (State.feedback z u)) ∧
    (¬ runs .closing → HasNoEffect (.shutterCloseLimitExpiry z) s) ∧
    (runs .closing → ¬ present (16 + z) →
      ∃ u, ZoneGoes s.beginEvent u z { r with state := .sealed, timer := none } ∧ ends (.shutterCloseLimitExpiry z) u) ∧
    (runs .closing → present (16 + z) →
      ∃ u, ZoneGoes (s.beginEvent.notice (.shutterFault z .close)) u z
          { r with state := .sealed, fault := true, timer := none } ∧
        ends (.shutterCloseLimitExpiry z) u) ∧
    (¬ runs .opening → HasNoEffect (.shutterOpenLimitExpiry z) s) ∧
    (runs .opening → ¬ present (24 + z) →
      ∃ u, ZoneGoes s.beginEvent u z (enabling r) ∧
        ends (.shutterOpenLimitExpiry z) { u with work := { u.work with zoneTests := u.work.zoneTests ++ [z.val] } }) ∧
    (runs .opening → present (24 + z) →
      ∃ u, ZoneGoes (s.beginEvent.notice (.shutterFault z .opening)) u z
          { r with state := .sealed, fault := true, timer := none } ∧
        ends (.shutterOpenLimitExpiry z) u) ∧
    (¬ runs .enabling → HasNoEffect (.zoneReadyExpiry z) s) ∧
    (runs .enabling →
      let touching := (List.range 12).filter fun a => decide (z.val ∈ (s.aisle a).zones)
      (s.mode.mode ≠ .quiet → ends (.zoneReadyExpiry z)
        ((s.beginEvent.faultRequest
          (touching.filter fun a => s.counted a && decide ((s.crane a).state ≠ .ready)) .readyLate).becomeClear z)) ∧
      (s.mode.mode = .quiet → ends (.zoneReadyExpiry z)
        ((s.beginEvent.offlineRequest (touching.filter fun a => decide (∀ y ∈ (s.aisle a).zones,
          (s.zone y).state = .clear ∨ (s.zone y).state = .enabling))).becomeClear z)))) ∧
  (∀ (s : State) (z : Nat), s.Tidy →
    ∃ u, ZoneGoes s u z { s.zone z with state := .clear, cause := none, timer := none } ∧
      let t := forEach ((List.range 12).filter fun a => decide (z ∈ (s.aisle a).zones)) (fun a x => x.dispatchTest a) u
      let v := forEach ((List.range 24).filter fun st => decide ((t.station st).zone = z)) State.stationOpen t
      let w := State.admissionPass { v with work := { v.work with admission := false } }
      s.becomeClear z = { w with work := { w.work with scan := true, restore := w.work.restore ++ [.pass] } }) ∧
  (∀ (s : State) (st : Nat),
    ∃ (os : List Order) (u : State),
      os.Perm ((s.desk.orders.map (·.2)).filter fun o => decide (o.station = st ∧ o.state ≠ .waiting)) ∧
      os.Pairwise (fun o p => o.admission ≤ p.admission) ∧
      (let front (o : Order) (i : Nat) : Option WaitEntry := match o.members[i]? with
         | some m =>
           if m.state = .atFront then
             some { bin := m.bin, leg := .up, aisle := s.binAisle m.bin, station := st, ref := ⟨o.number, i⟩ }
           else none
         | none => none
       let fronts := os.flatMap fun o => (List.range o.members.length).filterMap (front o)
       u = { s with
         pool := { s.pool with waitList := s.pool.waitList ++ fronts }
         work := { s.work with scan := s.work.scan || decide (fronts ≠ []) } }) ∧
      State.stationOpen st s = repeatTimes (State.windowStep st) (2 * (s.station st).presQueue.length + 3) u) ∧
  ∀ (s : State) (z : Nat),
    let counted (a : Nat) : Prop :=
      a < 12 ∧ z ∈ (s.aisle a).zones ∧ s.craneAddress a ≠ none ∧ s.driveLevel a = true ∧ (s.crane a).state ≠ .faulted
    let clears := (s.zone z).state = .enabling ∧ s.mode.mode ≠ .quiet ∧ s.running ∧
      ∀ a, counted a → (s.crane a).state = .ready
    (clears → State.readyTest z s = s.becomeClear z) ∧ (¬ clears → State.readyTest z s = s) ∧
    (s.Tidy → ∃ u, ZoneGoes s u z
        { s.zone z with state := .closing, fault := false, timer := some (s.now + (s.zone z).shutterLimit) } ∧
      s.enterClosing z = State.feedback z u)

/-! ## The Line Block -/

/-- A change at a local line: while the part runs an input line takes the wire's level, or the pull of its group where
it is unwired, and its change is taken (R175 to R177). That the wire presents its new state whatever the part does
(log entry 32), and that a value which nothing determines is read where there is no pull either (log entry 4), are the
model's choices. On the alarm line of a zone a rise starts the debounce timer, or a shutdown where the setting is 0,
and a fall stops it; a line that no longer carries the alarm reads as deasserted (R155). A feedback line, where it is
present, is taken at its level: the closed one seals a CLOSING zone and the open one enables an OPENING one, at the
entry and at any change (R161, R165, R166). A call key that becomes pressed starts its debounce timer of 50 ms, and
one that is pressed no longer, or carries CALL_KEY no longer, stops it; the timer's expiry sends NOTICE CALL_KEY
unless inhibited (R181). At any other line nothing follows. That the expiry command is honoured whenever the timer
runs, and has no effect while it does not, is the model's choice (log entry 12). The function of a line is the one
that its number and its selection give in the table of R175, which says too which functions are inputs and which are
fire functions; its logical value is the pin's under its polarity while it is an input, and else what the part drives:
the output value of its record, or the level kept for its shutter, its drive or the beacon (R175, R176, R179, R180). -/
def Obligations.LinesTakeTheirInputs : Prop :=
  (let first (n : Nat) (f : LineFunction) : Prop := lineFunction n .first = f
   let second (n : Nat) (f : LineFunction) : Prop := lineFunction n .second = f
   (∀ n, lineFunction n .generalIn = .generalIn ∧ lineFunction n .generalOut = .generalOut) ∧
   (∀ z, z < 8 →
     first z (.zoneAlarm z) ∧ first (8 + z) (.shutterClose z) ∧ first (16 + z) (.shutterClosed z) ∧
     first (24 + z) (.shutterOpen z) ∧ second z .callKey ∧ second (8 + z) .beacon ∧ second (16 + z) .callKey ∧
     second (24 + z) .callKey) ∧
   (∀ a, a < 12 → first (32 + a) (.driveEnable a) ∧ second (32 + a) .beacon) ∧
   (∀ k, k < 4 → first (44 + k) .beacon ∧ second (44 + k) .callKey)) ∧
  (∀ f : LineFunction,
    (f.input = true ↔ f = .generalIn ∨ f = .callKey ∨
      ∃ z, f = .zoneAlarm z ∨ f = .shutterClosed z ∨ f = .shutterOpen z) ∧
    (f.fire = true ↔ ∃ k, f = .zoneAlarm k ∨ f = .shutterClose k ∨ f = .shutterClosed k ∨ f = .shutterOpen k ∨
      f = .driveEnable k)) ∧
  (∀ (s : State) (n : Nat),
    let l := s.line n
    let f := lineFunction n l.selection
    let value := s.lineValue n
    s.function n = f ∧
    (s.keyPressed n = true ↔ f = .callKey ∧ value = true) ∧
    (f.input = true → (value = true ↔ (l.polarity = .activeHigh ↔ l.pin = true))) ∧
    (f = .generalOut → value = l.output) ∧
    (∀ z, f = .shutterClose z → (value = true ↔ z ∈ s.outputs.shutters)) ∧
    (∀ a, f = .driveEnable a → (value = true ↔ a ∈ s.outputs.drives)) ∧
    (f = .beacon → value = s.outputs.beacon)) ∧
  (∀ (s : State) (n : Fin 48) (w : Wiring), s.Tidy →
    let c := Instr.lineInputChange n w
    let l := s.line n
    let floats := w = .unwired ∧ s.pull (n / 4) = .none
    let level := match w with
      | .high => true
      | .low => false
      | .unwired =>
        match s.pull (n / 4) with
        | .up => true
        | .down => false
        | .none => Config.floatingPin s.floats
    (¬ s.running →
      ∃ u : State,
        (∀ k, u.line k = if k = n.val then { l with wiring := w } else s.line k) ∧
        u = { s with lines := { s.lines with lines := u.lines.lines } } ∧ exec c s = .next u) ∧
    (s.running →
      ∃ u : State,
        (∀ k, u.line k = if k = n.val then
          { l with wiring := w, pin := if (s.function n).input = true then level else l.pin } else s.line k) ∧
        u = { s with
          lines := { s.lines with lines := u.lines.lines }, work := Work.empty
          floats := if (s.function n).input = true ∧ floats then s.floats + 1 else s.floats } ∧
        exec c s = .next (s.eventEnds (u.lineChanged n (s.keyPressed n))))) ∧
  (∀ (s : State) (n : Nat) (before : Bool), s.Tidy →
    let l := s.line n
    let r := s.zone n
    let pressed := s.function n = .callKey ∧ s.lineValue n = true
    let level := l.selection = .first ∧ s.lineValue n = true
    ∃ t : State,
      (∀ k, t.line k = if k = n then
        { l with keyTimer := if ¬ pressed then none else if before = true then l.keyTimer else some (s.now + 50) }
        else s.line k) ∧
      t = { s with lines := { s.lines with lines := t.lines.lines } } ∧
      ((if pressed then before = true else l.keyTimer = none) → t = s) ∧
      (let becomes (x : Zone) (f : State → State) : Prop :=
        ∃ u : State, (∀ k, u.zone k = if k = n then x else s.zone k) ∧ u = { t with zones := u.zones } ∧
          s.lineChanged n before = f u
       (n < 8 → (r.alarm = true ↔ level) → s.lineChanged n before = t) ∧
       (n < 8 → r.alarm = true → ¬ level → becomes { r with alarm := false, debounceTimer := none } id) ∧
       (n < 8 → r.alarm = false → level → r.debounce ≠ 0 →
         becomes { r with alarm := true, debounceTimer := some (s.now + r.debounce) } id) ∧
       (n < 8 → r.alarm = false → level → r.debounce = 0 →
         becomes { r with alarm := true, debounceTimer := none } fun u => u.shutdown n .alarm)) ∧
      (16 ≤ n → n < 24 → l.selection = .first → s.lineChanged n before = State.feedback (n - 16) t) ∧
      (24 ≤ n → n < 32 → l.selection = .first → s.lineChanged n before = State.feedback (n - 24) t) ∧
      (8 ≤ n → ¬ (16 ≤ n ∧ n < 32 ∧ l.selection = .first) → s.lineChanged n before = t)) ∧
  (∀ (s : State) (z : Nat), s.Tidy →
    let r := s.zone z
    let seen (n : Nat) : Prop := (s.line n).selection = .first ∧ s.lineValue n = true
    (r.state = .closing → seen (16 + z) →
      ∃ u, ZoneGoes s u z { r with state := .sealed, timer := none } ∧ State.feedback z s = u) ∧
    (r.state = .opening → seen (24 + z) →
      ∃ u, ZoneGoes s u z { r with state := .enabling, timer := some (s.now + r.readyLimit) } ∧
        State.feedback z s = { u with work := { u.work with zoneTests := u.work.zoneTests ++ [z] } }) ∧
    (¬ (r.state = .closing ∧ seen (16 + z)) → ¬ (r.state = .opening ∧ seen (24 + z)) → State.feedback z s = s)) ∧
  ∀ (s : State) (n : Fin 48), s.running → s.Tidy →
    let c := Instr.callKeyDebounceExpiry n
    ((s.line n).keyTimer = none → HasNoEffect c s) ∧
    ((s.line n).keyTimer ≠ none →
      ∃ u : State,
        (∀ k, u.line k = if k = n.val then { s.line n with keyTimer := none } else s.line k) ∧
        u = { s with
          lines := { s.lines with lines := u.lines.lines }
          work := { Work.empty with up := if s.params.callKeyInhibit = true then [] else [.notice (.callKey n)] } } ∧
        exec c s = .next (s.closeEvent u none))

/-! ## Mode Control -/

/-- QUIET and WAKE by the mode, each ANSWER carrying the mode after the event: QUIET takes RUN to DRAINING, changes
nothing in DRAINING and QUIET, and is refused in WAKING; WAKE takes QUIET to WAKING and DRAINING to RUN and changes
nothing else. The expiry of the park wait timer faults the awaited cranes not at rest and goes to QUIET, that of the
wake ready timer faults the counted cranes not READY and goes to RUN; that either command is honoured whenever its
timer runs, and has no effect while it does not, is the model's choice (log entry 12). A crane faulted on such a
request becomes FAULTED with no fault code, its job and place kept, with NOTICE CRANE_FAULT; one taken off line
becomes OFFLINE and loses position and load; one that is FAULTED stays as it is (R73). A change of mode sets the mode,
the phase and the timer as the new mode has them; then, in this order, the ready tests of the zones are made, every
aisle is tested for a dispatch in RUN and DRAINING, an admission pass and a restore pass follow in RUN, and MODE_STATE
is sent last (R184, R186, R187, R190). Aisles go in ascending number (log entry 22), zones likewise (log entry 44). -/
def Obligations.ModeChanges : Prop :=
  (∀ (s : State) (tag : BitVec 16), s.running →
    let answered (c : Instr) (u : State) : Prop :=
      exec c s = .next (s.requestEnds u (.done tag.toNat 7 (be 1 u.settle.mode.mode.code)))
    let stays (c : Instr) : Prop := exec c s = .next (s.onlyAnswers (.done tag.toNat 7 (be 1 s.mode.mode.code)))
    (s.mode.mode = .run → answered (.quiet tag) (s.beginEvent.changeMode .draining .command).oweDrain) ∧
    (s.mode.mode = .draining ∨ s.mode.mode = .quiet → stays (.quiet tag)) ∧
    (s.mode.mode = .waking →
      exec (.quiet tag) s = .next (s.onlyAnswers (.refused tag.toNat 7 .wrongState [3#8]))) ∧
    (s.mode.mode = .quiet → answered (.wake tag) (s.beginEvent.changeMode .waking .command)) ∧
    (s.mode.mode = .draining → answered (.wake tag) (s.beginEvent.changeMode .run .command)) ∧
    (s.mode.mode = .run ∨ s.mode.mode = .waking → stays (.wake tag))) ∧
  (∀ s : State, s.running →
    let waits := s.mode.phase = some .parkWait ∧ s.mode.timer ≠ none
    let late := s.mode.awaited.filter fun a => decide ((s.crane a).state ∈ [CraneState.ready, .busy, .parking])
    (¬ waits → HasNoEffect .parkWaitExpiry s) ∧
    (waits → exec .parkWaitExpiry s =
      .next (s.eventEnds ((s.beginEvent.faultRequest late .parkLate).changeMode .quiet .drained)))) ∧
  (∀ s : State, s.running →
    let waits := s.mode.mode = .waking ∧ s.mode.timer ≠ none
    let unready := (List.range 12).filter fun a => s.counted a && decide ((s.crane a).state ≠ .ready)
    (¬ waits → HasNoEffect .wakeReadyExpiry s) ∧
    (waits → exec .wakeReadyExpiry s =
      .next (s.eventEnds ((s.beginEvent.faultRequest unready .readyLate).changeMode .run .readyLate)))) ∧
  (∀ (s : State) (a : Nat) (cause : FaultCause), s.Tidy →
    let x := s.crane a
    let becomes (y : Crane) (work : Work) (t : State) : Prop :=
      ∃ u : State,
        (∀ k, u.crane k = if k = a then y else s.crane k) ∧
        u = { s with dispatch := { s.dispatch with cranes := u.dispatch.cranes }, work } ∧ t = u
    (x.state = .faulted → State.faultCrane cause a s = s) ∧
    (x.state ≠ .faulted → becomes { x with state := .faulted, faultCode := none }
      { s.work with control := true, up := s.work.up ++ [.notice (.craneFault a cause none none)] }
      (State.faultCrane cause a s)) ∧
    becomes { x with state := .offline, place := none }
      { s.work with control := s.work.control || decide (x.state ≠ .offline) } (State.craneOffline a s)) ∧
  (∀ (s : State) (as : List Nat) (cause : FaultCause),
    s.faultRequest as cause = forEach as (State.faultCrane cause) s ∧
    s.offlineRequest as = forEach (as.filter fun a => decide ((s.crane a).state ≠ .faulted)) State.craneOffline s) ∧
  (∀ (s : State) (m : Mode) (cause : ModeCause),
    let t :=
      { s with
        mode := { s.mode with
          mode := m, awaited := []
          phase := if m = .draining then some .work else none
          timer := if m = .waking then some (s.now + s.params.wakeReadyLimit) else none }
        work := { s.work with modeTest := s.work.modeTest || decide (m = .waking) } }
    let ready := forEach (List.range 8) State.readyTest t
    let dispatched := forEach (List.range 12) (fun a x => x.dispatchTest a) ready
    let last := if m = .run then dispatched.admissionPass.restorePass else if m = .draining then dispatched else ready
    s.changeMode m cause = { last with work := { last.work with up := last.work.up ++ [.notice (.modeState m cause)] } }) ∧
  ∀ (s : State) (m : Mode) (cause : ModeCause), s.Tidy →
    (s.changeMode m cause).mode =
      { s.mode with
        mode := m, awaited := []
        phase := if m = .draining then some .work else none
        timer := if m = .waking then some (s.now + s.params.wakeReadyLimit) else none } ∧
    (s.changeMode m cause).work.up.getLast? = some (.notice (.modeState m cause)) ∧
    (s.changeMode m cause).params = s.params

/-! ## Resets -/

/-- RESTART hands over its ANSWER, empties the D send queue, and takes no further event until the command reset. At a
U send queue of 64 telegrams the ANSWER displaces the forwarded telegram or NOTICE queued last, which is counted;
where all are kept the ANSWER itself is discarded and counted, and the command reset begins at once (R7, R191). A
command reset and a pin reset empty both queues, give up every timer, release every drive, and change the reset record
by its table; the period ends 10 ms after a command reset's beginning or after the release of the reset line. A loss
of supply leaves every table blank, and a power-on reset begins from there (R183, R191 to R193). The phases in which
COMMAND_RESET, PIN_RESET and LOSS_OF_SUPPLY take effect (log entry 13), the wires kept through a loss of supply (log
entry 3) and the timebase at 0 after it (log entry 29) are the model's choices. -/
def Obligations.ResetsBegin : Prop :=
  (∀ (s : State) (tag : BitVec 16), s.running → s.ports.uQueue.length < 64 →
    exec (.restart tag) s = .next
      { s.untimed with
        ports := { s.ports with
          uQueue := s.ports.uQueue ++ [(Answer.done tag.toNat 7).queued], dQueue := [] }
        resets := { s.resets with phase := .restarting }, work := Work.empty }) ∧
  (∀ (s : State) (tag : BitVec 16), s.running → s.Tidy → s.ports.uQueue.length = 64 →
    let discardable (q : Queued) : Prop := q.cls = .notice ∨ ∃ p, q.cls = .forwarded p
    (∀ before last after_, s.ports.uQueue = before ++ last :: after_ → discardable last →
      (∀ q ∈ after_, ¬ discardable q) →
      ∃ t, Counted
          { s.untimed with
            ports := { s.ports with
              uQueue := before ++ after_ ++ [(Answer.done tag.toNat 7).queued], dQueue := [] }
            resets := { s.resets with phase := .restarting }, work := Work.empty } t 10 ∧
        exec (.restart tag) s = .next t) ∧
    ((∀ q ∈ s.ports.uQueue, ¬ discardable q) →
      ∃ t, Counted
          { s.untimed with
            ports := { s.ports with dQueue := [] }
            resets := { s.resets with phase := .restarting }, work := Work.empty } t 10 ∧
        exec (.restart tag) s = exec .commandReset t)) ∧
  (∀ s : State,
    let begun (r : ResetControl) : State :=
      { s.untimed with
        ports := { uQueue := [], dQueue := [], noticeSeq := s.ports.noticeSeq, uLine := none, dLine := none }
        resets := r, outputs := { s.outputs with drives := [] } }
    let record := s.resets.record
    let raised := if record.count < 255 then record.count + 1 else 255
    (s.resets.phase ≠ .restarting → exec .commandReset s = .next s) ∧
    (s.resets.phase = .restarting → exec .commandReset s = .next (begun { s.resets with
      phase := .resetting, ending := some (s.now + 10), record := { record with command := true, count := raised } })) ∧
    (s.resets.lineAsserted = true → exec .pinReset s = .next s) ∧
    (s.resets.lineAsserted = false → s.resets.phase = .unpowered →
      exec .pinReset s = .next { s with resets := { s.resets with lineAsserted := true } }) ∧
    (s.resets.lineAsserted = false → s.resets.phase ≠ .unpowered →
      exec .pinReset s = .next (begun
        { phase := .resetting, lineAsserted := true, ending := none
          record := { record with pin := true, count := raised } })) ∧
    (s.resets.lineAsserted = false → exec .resetLineRelease s = .next s) ∧
    (s.resets.lineAsserted = true → exec .resetLineRelease s = .next
      { s with resets := { s.resets with
        lineAsserted := false
        ending := if s.resets.phase = .resetting then some (s.now + 10) else s.resets.ending } })) ∧
  (∀ s : State, s.Tidy →
    ∃ u : State,
      (∀ n, u.line n = { Line.powerOn with wiring := (s.line n).wiring }) ∧
      u = { State.reset with
        ports := { uQueue := [], dQueue := [], noticeSeq := 0, uLine := none, dLine := none }
        returns := { staging := [], minuteTimer := none }
        lines := { lines := u.lines.lines, pulls := [] }
        resets :=
          { phase := .unpowered, lineAsserted := s.resets.lineAsserted, ending := none
            record := { power := true, pin := false, command := false, count := 0 } }
        floats := s.floats, pending := s.pending } ∧
      exec .lossOfSupply s = .next u ∧
      exec .powerOnReset s = .next { u with resets := { u.resets with
        phase := .resetting, ending := if s.resets.lineAsserted = true then none else some 10 } }) ∧
  ∀ s : State, s.Tidy →
    let u := s.untimed
    (∀ a, u.crane a = { s.crane a with flight := (s.crane a).flight.map fun f => { f with timer := none } }) ∧
    (∀ n, u.order n = (s.order n).map fun o => { o with gatherTimer := none }) ∧
    (∀ l, u.lift l = { s.lift l with
      answerTimer := none, carries := (s.lift l).carries.map fun c => { c with timer := none } }) ∧
    (∀ z, u.zone z = { s.zone z with timer := none, debounceTimer := none }) ∧
    (∀ n, u.line n = { s.line n with keyTimer := none }) ∧
    u.desk.holdTimer = none ∧ u.returns.minuteTimer = none ∧ u.mode.timer = none

/-- RESET_PERIOD_END has no effect unless a reset period runs to its end, and is honoured whenever that end stands
(the model's choice, log entry 12); then the part runs again, the steps in the order of log entry 34. The blocks
settle: the order table, the job pool, the lists, the rotation and the wait list empty, the counters at their first
values, bins, cranes, stations and lifts as a reset leaves them, the item table without its REQUESTED entries, the
minute timer started, and MEMBER OFF, with a zero byte for the absent sequence number (log entry 7), sent to every
lift (R24, R42, R81, R106, R122, R137, R152, R192). Then the input lines are sampled, one that nothing drives at a
free value (log entry 4), and the keys found pressed start their timers (R183), RESET_DONE is the first NOTICE, the
asserted alarms start their debounce timers, one of 0 too, due at once (log entry 33), the zones resume by their
states, and the mode becomes WAKING with cause RESET (R172, R193). No zone becomes CLEAR in this event (R172; log
entry 42). -/
def Obligations.ResetPeriodSettlesTheBlocks : Prop :=
  (∀ s : State, (s.resets.phase ≠ .resetting ∨ s.resets.ending = none) → exec .resetPeriodEnd s = .next s) ∧
  (∀ s : State, s.resets.phase = .resetting → s.resets.ending ≠ none →
    let ports : Ports := { uQueue := [], dQueue := [], noticeSeq := 0, uLine := none, dLine := none }
    let t := State.eventEnds { s with ports } (State.resume { s with ports, work := Work.empty })
    exec .resetPeriodEnd s = .next t ∧ t.running ∧ t.pending = s.pending ∧ t.now = s.now ∧ t.work = Work.empty ∧
    ∀ z, (t.zone z).state = .clear → (s.zone z).state = .clear) ∧
  (∀ s : State, s.Tidy → s.work = Work.empty →
    let wires (n : Nat) : Prop := (s.function n).input = true
    let floats (n : Nat) : Prop := wires n ∧ (s.line n).wiring = .unwired ∧ s.pull (n / 4) = .none
    let level (n : Nat) : Bool := match (s.line n).wiring with
      | .high => true
      | .low => false
      | .unwired =>
        match s.pull (n / 4) with
        | .up => true
        | .down => false
        | .none => Config.floatingPin (s.floats + (List.range n).countP fun k => decide (floats k))
    ∃ u : State,
      (∀ n, u.line n = if n < 48 then
        { s.line n with
          pin := if wires n then level n else (s.line n).pin
          keyTimer := if s.function n = .callKey ∧ u.lineValue n = true then some (s.now + 50) else none }
        else s.line n) ∧
      u = { s.settleBlocks with
        lines := { s.lines with lines := u.lines.lines }
        floats := s.floats + (List.range 48).countP fun k => decide (floats k)
        work := { s.settleBlocks.work with up := [.notice (.resetDone s.resets.record)] } } ∧
      s.resume = (forEach (List.range 8) State.resumeZone
        (forEach (List.range 8) State.resumeAlarm u)).changeMode .waking .reset ∧
      s.resume.mode.mode = .waking ∧ s.resume.work.up.getLast? = some (.notice (.modeState .waking .reset))) ∧
  (∀ (s : State) (z : Nat), s.Tidy →
    let r := s.zone z
    let becomes (x : Zone) (u : State) : Prop :=
      (∀ k, u.zone k = if k = z then x else s.zone k) ∧ u = { s with zones := u.zones }
    let asserted := (s.line z).selection = .first ∧ s.lineValue z = true
    let moves : Zone := { r with fault := false, timer := some (s.now + r.shutterLimit) }
    becomes
      { r with
        alarm := decide asserted, awaited := []
        debounceTimer := if asserted then some (s.now + r.debounce) else none } (State.resumeAlarm z s) ∧
    (r.state = .clear ∨ r.state = .sealed → State.resumeZone z s = s) ∧
    (r.state = .stopping ∨ r.state = .settling →
      ∃ u, ZoneGoes s u z { moves with state := .closing } ∧ State.resumeZone z s = State.feedback z u) ∧
    (r.state = .closing ∨ r.state = .opening →
      ∃ u, becomes moves u ∧ State.resumeZone z s = State.feedback z u) ∧
    (r.state = .enabling →
      ∃ u, ZoneGoes s u z { r with state := .stopping, cause := some .manual, timer := none } ∧
        State.resumeZone z s = State.stoppingTest z (u.beginStopping z))) ∧
  ∀ s : State, s.Tidy →
    let t := s.settleBlocks
    let items := s.loans.items.filter fun p => decide (p.2.state.word ≠ .requested)
    (∀ b, t.bin b = (s.bin b).map fun r =>
      { r with
        target := none, pending := false, itemRefs := items.countP fun p => decide (p.2.bin = b)
        state := if r.state = .reserved then .stored else if r.state = .out ∨ r.state = .moving then .adrift
          else r.state }) ∧
    (∀ a, a < 12 → t.crane a =
      { Crane.idle with
        unmatched := (s.crane a).unmatched, rejected := (s.crane a).rejected
        refusedRecoveries := (s.crane a).refusedRecoveries, patronCredit := (s.aisle a).patronWeight
        restoreCredit := (s.aisle a).restoreWeight, houseCredit := (s.aisle a).houseWeight }) ∧
    (∀ st, st < 24 → t.station st =
      { s.station st with orderQueue := [], lane := [], reservations := 0, owner := none, presQueue := [] }) ∧
    (∀ l, l < 6 → t.lift l = { s.lift l with word := .off, answerTimer := none, carries := [] }) ∧
    t.loans = { s.loans with items } ∧ t.dispatch.jobTag = 0 ∧ t.desk.orders = [] ∧ t.desk.restoreNumber = 32768 ∧
    t.desk.holding = false ∧ t.desk.holdTimer = none ∧ t.pool.pointer = 0 ∧ t.pool.carryTag = 0 ∧ t.pool.waitList = [] ∧
    t.returns = { s.returns with minuteTimer := some (s.now + 60000) } ∧ t.link = s.link ∧ t.params = s.params ∧
    t.store.aisles = s.store.aisles ∧ t.zones = s.zones ∧ t.lines = s.lines ∧ t.outputs = s.outputs ∧
    t.ports = { s.ports with uQueue := [], dQueue := [], noticeSeq := 0 } ∧
    t.mode = { s.mode with
      phase := none, timer := none, awaited := [], lastStaging := s.returns.staging.length, lastWaiting := 0 } ∧
    t.work = { s.work with
      down := s.work.down ++ (List.range 6).flatMap fun l => toUnit (s.liftAddress l) 26 [0#8, 0#8] .kept }

/-! ## The end of an event -/

/-- The tests that an event owes are made at its end, in rounds: the drain test (R186), the tests of the zones and of
the mode until none is owed (R159, R166, R187, R190; zones in ascending number, log entry 44), the scan of the carry
wait list (R116), the admission pass (R88), the restore attempts and passes in the order in which they came to be owed
(R145; log entry 54) and the handing over of the waiting count (R189). That a second round follows, of four at most,
where the first has left a test owed, and the order of the tests in a round, are the model's choice (log entry 35).
The watermark is compared last (R104). The tests change neither settings nor tables that they do not own: the link's
tables and counters but the two of the overflows, the settings, the aisles, the lending classes, the day, the entries
that are no requests, the staging list, the lines, the timebase, the waiting commands, and what each bin, crane,
station, lift and zone record holds beyond the work of the blocks stay as the event's own effects left them; a zone
outside STOPPING and ENABLING stays as it is, and so does a crane's state other than READY and BUSY. An entry is a
request while its state is REQUESTED. -/
def Obligations.TestsAtTheEndKeep : Prop :=
  (∀ t : Tab Item, retainedItems t = t.filter fun p => decide (p.2.state.word ≠ .requested)) ∧
  (∀ s : State,
    let drained := if s.work.drain = true then State.drainTest { s with work := { s.work with drain := false } } else s
    let control (x : State) : State :=
      let owed := (List.range 8).filter fun z => x.work.control || decide (z ∈ x.work.zoneTests)
      let y := forEach owed (fun z y => State.readyTest z (State.stoppingTest z y))
        { x with work := { x.work with control := false, zoneTests := [], modeTest := false } }
      if x.work.control = true ∨ x.work.modeTest = true then y.parkWaitTest.wakeTest else y
    let controlled := repeatTimes control 24 drained
    let scanned := if controlled.work.scan = true then
      State.scan { controlled with work := { controlled.work with scan := false } } else controlled
    let admitted := if scanned.work.admission = true then
      State.admissionPass { scanned with work := { scanned.work with admission := false } } else scanned
    let restored := forEach admitted.work.restore
      (fun t y => match t with
        | .bin b => State.restoreAttempt b y
        | .pass => y.restorePass)
      { admitted with work := { admitted.work with restore := [] } }
    s.settleRound =
      if restored.work.waiting = true then
        State.handWaiting { restored with work := { restored.work with waiting := false } }
      else restored) ∧
  (∀ s : State,
    let owes (x : State) : Prop := x.work.drain = true ∨ x.work.control = true ∨ x.work.zoneTests ≠ [] ∨
      x.work.modeTest = true ∨ x.work.scan = true ∨ x.work.admission = true ∨ x.work.restore ≠ [] ∨ x.work.waiting = true
    let one := s.settleRound
    let two := one.settleRound
    let three := two.settleRound
    (¬ owes s → s.settle = s.holdPhase) ∧ (¬ owes one → s.settle = one.holdPhase) ∧
    (¬ owes two → s.settle = two.holdPhase) ∧ s.settle = three.settleRound.holdPhase) ∧
  ∀ (s u : State) (a : Option Answer), u.Tidy →
    let t := s.closeEvent u.settle a
    t.link.addresses = u.link.addresses ∧ t.link.trafficDown = u.link.trafficDown ∧
    t.link.trafficUp = u.link.trafficUp ∧ (∀ i, i ≠ 10 → i ≠ 11 → t.counter i = u.counter i) ∧
    t.params = u.params ∧ t.store.aisles = u.store.aisles ∧ t.loans.classes = u.loans.classes ∧
    t.loans.today = u.loans.today ∧ retainedItems t.loans.items = retainedItems u.loans.items ∧
    t.returns = u.returns ∧ t.lines = u.lines ∧ t.floats = u.floats ∧ t.now = s.now ∧ t.pending = s.pending ∧
    t.work = Work.empty ∧ t.resets = { u.resets with phase := .running } ∧
    (∀ b, (t.bin b).map Bin.standing = (u.bin b).map Bin.standing) ∧
    (∀ k, (t.crane k).standing = (u.crane k).standing) ∧
    (∀ k, (t.station k).standing = (u.station k).standing) ∧
    (∀ k, (t.lift k).standing = (u.lift k).standing) ∧
    (∀ k, (t.zone k).standing = (u.zone k).standing) ∧
    (∀ z, (u.zone z).state ≠ .stopping → (u.zone z).state ≠ .enabling → t.zone z = u.zone z) ∧
    (∀ k, (u.crane k).state ≠ .ready → (t.crane k).state ≠ .ready ∧ (t.crane k).flight = (u.crane k).flight) ∧
    ∀ k, (u.crane k).state ≠ .ready → (u.crane k).state ≠ .busy → (t.crane k).state = (u.crane k).state
end

