-- ==== Sys2Proof/Laws/Tables.lean ====
section
/-! SUPPORT. The laws of tables: reading after writing, the order of the indices, and the canonical form; and
the laws of runs over lists of keys. -/

namespace Sys2Proof.Machine

variable {α β σ : Type}

/-! ## Reading after writing -/

@[simp] theorem Tab.find_nil (k : Nat) : Tab.find ([] : Tab α) k = none := rfl

theorem Tab.find_cons (i : Nat) (a : α) (t : Tab α) (k : Nat) :
    Tab.find ((i, a) :: t) k = if k = i then some a else Tab.find t k := rfl

/-- What reads at an index below every listed one. -/
theorem Tab.find_of_below (t : Tab α) (k : Nat) (h : ∀ p ∈ t, k < p.1) : t.find k = none := by
  fun_induction Tab.find t k <;> simp_all

/-- Reading after listing a value. -/
theorem Tab.find_put (t : Tab α) (k j : Nat) (v : α) : (t.put k v).find j = if j = k then some v else t.find j := by
  fun_induction Tab.put t k v <;> grind [Tab.find]

/-- Striking a value changes no other index. -/
theorem Tab.find_del_ne (t : Tab α) (k j : Nat) (hj : j ≠ k) : (t.del k).find j = t.find j := by
  fun_induction Tab.del t k <;> grind [Tab.find]

/-- Reading after striking a value. -/
theorem Tab.find_del (t : Tab α) (k j : Nat) (h : t.wf) :
    (t.del k).find j = if j = k then none else t.find j := by
  fun_induction Tab.del t k <;> grind [Tab.find, Tab.find_of_below, List.pairwise_cons]

/-- The entry read at an index after an entry is written. -/
theorem Tab.get_set [DecidableEq α] (t : Tab α) (d : α) (k j : Nat) (v : α) (h : t.wf) :
    (t.set d k v).get d j = if j = k then v else t.get d j := by
  unfold Tab.get Tab.set
  split
  · rw [Tab.find_del t k j h]; split <;> simp_all
  · rw [Tab.find_put t k j v]; split <;> simp

/-- Writing an entry changes no other index. -/
theorem Tab.get_set_ne [DecidableEq α] (t : Tab α) (d : α) (k j : Nat) (v : α) (hj : j ≠ k) :
    (t.set d k v).get d j = t.get d j := by
  unfold Tab.get Tab.set
  split
  · rw [Tab.find_del_ne t k j hj]
  · rw [Tab.find_put, if_neg hj]

/-- Reading a table whose values are all changed. -/
@[simp] theorem Tab.find_mapVals (t : Tab α) (f : α → β) (k : Nat) :
    (t.mapVals f).find k = (t.find k).map f := by
  fun_induction Tab.find t k <;> simp_all [Tab.mapVals, Tab.find]

/-! ## The order of the indices -/

/-- What a table lists after a value is listed. -/
theorem Tab.mem_put {t : Tab α} {k : Nat} {v : α} {p : Nat × α} (h : p ∈ t.put k v) : p = (k, v) ∨ p ∈ t := by
  fun_induction Tab.put t k v <;> grind

/-- What a table lists after a value is struck. -/
theorem Tab.mem_del {t : Tab α} {k : Nat} {p : Nat × α} (h : p ∈ t.del k) : p ∈ t := by
  fun_induction Tab.del t k <;> grind

/-- Listing a value keeps the order. -/
theorem Tab.wf_put (t : Tab α) (k : Nat) (v : α) (h : t.wf) : (t.put k v).wf := by
  fun_induction Tab.put t k v <;> grind [→ Tab.mem_put, List.pairwise_cons]

/-- Striking a value keeps the order. -/
theorem Tab.wf_del (t : Tab α) (k : Nat) (h : t.wf) : (t.del k).wf := by
  fun_induction Tab.del t k <;> grind [→ Tab.mem_del, List.pairwise_cons]

/-- An ordered table reads a value at an index exactly where it lists the two together. -/
theorem Tab.find_eq_some {t : Tab α} (h : t.wf) {k : Nat} {v : α} :
    t.find k = some v ↔ (k, v) ∈ t := by
  induction t with
  | nil => simp
  | cons p t ih =>
    obtain ⟨i, a⟩ := p
    have hp := List.pairwise_cons.1 h
    rw [Tab.find_cons, List.mem_cons, Prod.mk.injEq]
    split
    · rename_i e
      subst e
      constructor
      · rintro ⟨⟩; exact .inl ⟨rfl, rfl⟩
      · rintro (⟨_, rfl⟩ | m)
        · rfl
        · exact absurd (hp.1 _ m) (Nat.lt_irrefl _)
    · rename_i ne
      rw [ih hp.2]
      simp [ne]

/-- Writing an entry keeps the order. -/
theorem Tab.wf_set [DecidableEq α] (t : Tab α) (d : α) (k : Nat) (v : α) (h : t.wf) : (t.set d k v).wf := by
  unfold Tab.set
  split
  · exact t.wf_del k h
  · exact t.wf_put k v h

/-- Writing an entry keeps the canonical form. -/
theorem Tab.canonical_set [DecidableEq α] (t : Tab α) (d : α) (k : Nat) (v : α) (h : t.canonical d) :
    (t.set d k v).canonical d := by
  refine ⟨t.wf_set d k v h.1, ?_⟩
  intro p hp
  unfold Tab.set at hp
  split at hp
  · exact h.2 p (Tab.mem_del hp)
  · rcases Tab.mem_put hp with rfl | hp
    · assumption
    · exact h.2 p hp

/-- Changing the values keeps the order. -/
theorem Tab.wf_mapVals (t : Tab α) (f : α → β) (h : t.wf) : (t.mapVals f).wf := by
  simpa [Tab.mapVals, Tab.wf, List.pairwise_map] using h

/-- The order survives the loss of entries. -/
theorem Tab.wf_filter (t : Tab α) (p : Nat × α → Bool) (h : t.wf) : Tab.wf (t.filter p) := List.Pairwise.filter _ h

/-- Changing every entry keeps the canonical form. -/
theorem Tab.canonical_mapSet [DecidableEq α] (t : Tab α) (d : α) (f : α → α) (h : t.wf) :
    (t.mapSet d f).canonical d := by
  refine ⟨Tab.wf_filter _ _ (t.wf_mapVals f h), ?_⟩
  intro p hp
  simpa using (List.mem_filter.mp hp).2

/-- Filtering a table in order: what reads at an index. -/
theorem Tab.find_filter (t : Tab α) (p : Nat × α → Bool) (k : Nat) (h : t.wf) :
    Tab.find (t.filter p) k = (t.find k).filter fun a => p (k, a) := by
  fun_induction Tab.find t k <;> grind [Tab.find, Tab.find_of_below, Option.filter, List.pairwise_cons]

/-- The entry read at an index after every entry is changed by a change that keeps the default. -/
theorem Tab.get_mapSet [DecidableEq α] (t : Tab α) (d : α) (f : α → α) (k : Nat) (h : t.wf) (hd : f d = d) :
    (t.mapSet d f).get d k = f (t.get d k) := by
  unfold Tab.get Tab.mapSet
  rw [Tab.find_filter _ _ _ (t.wf_mapVals f h), Tab.find_mapVals]
  cases t.find k with
  | none => simp [hd]
  | some a => by_cases ha : f a = d <;> simp [Option.filter, ha]

/-! ## Runs over lists of keys -/

@[simp] theorem forEach_nil (f : α → σ → σ) (s : σ) : forEach [] f s = s := rfl

@[simp] theorem forEach_cons (x : α) (xs : List α) (f : α → σ → σ) (s : σ) :
    forEach (x :: xs) f s = forEach xs f (f x s) := rfl

/-- A run keeps what each of its steps keeps. -/
theorem forEach_keeps {γ : Type} (g : σ → γ) (f : α → σ → σ) (h : ∀ x s, g (f x s) = g s) (xs : List α) (s : σ) :
    g (forEach xs f s) = g s := by
  induction xs generalizing s <;> simp_all

/-- A run keeps a property that each of its steps keeps. -/
theorem forEach_induct (P : σ → Prop) (f : α → σ → σ) (h : ∀ x s, P s → P (f x s)) (xs : List α) (s : σ) (hs : P s) :
    P (forEach xs f s) := by
  induction xs generalizing s <;> simp_all

/-- A run whose every step does nothing does nothing. -/
theorem forEach_idle (f : α → σ → σ) (s : σ) (xs : List α) (h : ∀ x ∈ xs, f x s = s) : forEach xs f s = s := by
  induction xs <;> simp_all

@[simp] theorem repeatTimes_zero (f : σ → σ) (s : σ) : repeatTimes f 0 s = s := rfl

theorem repeatTimes_succ (f : σ → σ) (n : Nat) (s : σ) : repeatTimes f (n + 1) s = repeatTimes f n (f s) := rfl

/-- Repeating keeps what one step keeps. -/
theorem repeatTimes_keeps {γ : Type} (g : σ → γ) (f : σ → σ) (h : ∀ s, g (f s) = g s) (n : Nat) (s : σ) :
    g (repeatTimes f n s) = g s := by
  induction n generalizing s <;> simp_all [repeatTimes_succ]

/-- Repeating keeps a property that one step keeps. -/
theorem repeatTimes_induct (P : σ → Prop) (f : σ → σ) (h : ∀ s, P s → P (f s)) (n : Nat) (s : σ) (hs : P s) :
    P (repeatTimes f n s) := by
  induction n generalizing s <;> simp_all [repeatTimes_succ]

/-- Repeating a step that does nothing does nothing. -/
theorem repeatTimes_idle (f : σ → σ) (s : σ) (h : f s = s) (n : Nat) : repeatTimes f n s = s := by
  induction n <;> simp_all [repeatTimes_succ]

end Sys2Proof.Machine
end

