-- ==== Sys2Proof/Laws/State.lean ====
section
/-! SUPPORT. The laws of the state's named updates: for each update, one lemma for each field that it leaves
alone, and one for each reading of a table that it leaves alone. -/

namespace Sys2Proof.Machine

/-! ## modDispatch -/

@[simp] theorem State.modDispatch_link (s : State) (f : CraneDispatch → CraneDispatch) : (s.modDispatch f).link = s.link := rfl
@[simp] theorem State.modDispatch_ports (s : State) (f : CraneDispatch → CraneDispatch) : (s.modDispatch f).ports = s.ports := rfl
@[simp] theorem State.modDispatch_params (s : State) (f : CraneDispatch → CraneDispatch) : (s.modDispatch f).params = s.params := rfl
@[simp] theorem State.modDispatch_store (s : State) (f : CraneDispatch → CraneDispatch) : (s.modDispatch f).store = s.store := rfl
@[simp] theorem State.modDispatch_dispatch (s : State) (f : CraneDispatch → CraneDispatch) : (s.modDispatch f).dispatch = f s.dispatch := rfl
@[simp] theorem State.modDispatch_desk (s : State) (f : CraneDispatch → CraneDispatch) : (s.modDispatch f).desk = s.desk := rfl
@[simp] theorem State.modDispatch_pool (s : State) (f : CraneDispatch → CraneDispatch) : (s.modDispatch f).pool = s.pool := rfl
@[simp] theorem State.modDispatch_loans (s : State) (f : CraneDispatch → CraneDispatch) : (s.modDispatch f).loans = s.loans := rfl
@[simp] theorem State.modDispatch_returns (s : State) (f : CraneDispatch → CraneDispatch) : (s.modDispatch f).returns = s.returns := rfl
@[simp] theorem State.modDispatch_zones (s : State) (f : CraneDispatch → CraneDispatch) : (s.modDispatch f).zones = s.zones := rfl
@[simp] theorem State.modDispatch_lines (s : State) (f : CraneDispatch → CraneDispatch) : (s.modDispatch f).lines = s.lines := rfl
@[simp] theorem State.modDispatch_outputs (s : State) (f : CraneDispatch → CraneDispatch) : (s.modDispatch f).outputs = s.outputs := rfl
@[simp] theorem State.modDispatch_mode (s : State) (f : CraneDispatch → CraneDispatch) : (s.modDispatch f).mode = s.mode := rfl
@[simp] theorem State.modDispatch_resets (s : State) (f : CraneDispatch → CraneDispatch) : (s.modDispatch f).resets = s.resets := rfl
@[simp] theorem State.modDispatch_now (s : State) (f : CraneDispatch → CraneDispatch) : (s.modDispatch f).now = s.now := rfl
@[simp] theorem State.modDispatch_floats (s : State) (f : CraneDispatch → CraneDispatch) : (s.modDispatch f).floats = s.floats := rfl
@[simp] theorem State.modDispatch_work (s : State) (f : CraneDispatch → CraneDispatch) : (s.modDispatch f).work = s.work := rfl
@[simp] theorem State.modDispatch_pending (s : State) (f : CraneDispatch → CraneDispatch) : (s.modDispatch f).pending = s.pending := rfl
@[simp] theorem State.modDispatch_addr (s : State) (f : CraneDispatch → CraneDispatch) (x : Nat) : (s.modDispatch f).addr x = s.addr x := rfl
@[simp] theorem State.modDispatch_treatDown (s : State) (f : CraneDispatch → CraneDispatch) (x : Nat) : (s.modDispatch f).treatDown x = s.treatDown x := rfl
@[simp] theorem State.modDispatch_treatUp (s : State) (f : CraneDispatch → CraneDispatch) (x : Nat) : (s.modDispatch f).treatUp x = s.treatUp x := rfl
@[simp] theorem State.modDispatch_counter (s : State) (f : CraneDispatch → CraneDispatch) (x : Nat) : (s.modDispatch f).counter x = s.counter x := rfl
@[simp] theorem State.modDispatch_aisle (s : State) (f : CraneDispatch → CraneDispatch) (x : Nat) : (s.modDispatch f).aisle x = s.aisle x := rfl
@[simp] theorem State.modDispatch_bin (s : State) (f : CraneDispatch → CraneDispatch) (x : Nat) : (s.modDispatch f).bin x = s.bin x := rfl
@[simp] theorem State.modDispatch_station (s : State) (f : CraneDispatch → CraneDispatch) (x : Nat) : (s.modDispatch f).station x = s.station x := rfl
@[simp] theorem State.modDispatch_order (s : State) (f : CraneDispatch → CraneDispatch) (x : Nat) : (s.modDispatch f).order x = s.order x := rfl
@[simp] theorem State.modDispatch_lift (s : State) (f : CraneDispatch → CraneDispatch) (x : Nat) : (s.modDispatch f).lift x = s.lift x := rfl
@[simp] theorem State.modDispatch_zone (s : State) (f : CraneDispatch → CraneDispatch) (x : Nat) : (s.modDispatch f).zone x = s.zone x := rfl
@[simp] theorem State.modDispatch_line (s : State) (f : CraneDispatch → CraneDispatch) (x : Nat) : (s.modDispatch f).line x = s.line x := rfl
@[simp] theorem State.modDispatch_pull (s : State) (f : CraneDispatch → CraneDispatch) (x : Nat) : (s.modDispatch f).pull x = s.pull x := rfl
@[simp] theorem State.modDispatch_item (s : State) (f : CraneDispatch → CraneDispatch) (x : Nat) : (s.modDispatch f).item x = s.item x := rfl
@[simp] theorem State.modDispatch_lendClass (s : State) (f : CraneDispatch → CraneDispatch) (x : Nat) : (s.modDispatch f).lendClass x = s.lendClass x := rfl

/-! ## modDesk -/

@[simp] theorem State.modDesk_link (s : State) (f : OrderUnit → OrderUnit) : (s.modDesk f).link = s.link := rfl
@[simp] theorem State.modDesk_ports (s : State) (f : OrderUnit → OrderUnit) : (s.modDesk f).ports = s.ports := rfl
@[simp] theorem State.modDesk_params (s : State) (f : OrderUnit → OrderUnit) : (s.modDesk f).params = s.params := rfl
@[simp] theorem State.modDesk_store (s : State) (f : OrderUnit → OrderUnit) : (s.modDesk f).store = s.store := rfl
@[simp] theorem State.modDesk_dispatch (s : State) (f : OrderUnit → OrderUnit) : (s.modDesk f).dispatch = s.dispatch := rfl
@[simp] theorem State.modDesk_desk (s : State) (f : OrderUnit → OrderUnit) : (s.modDesk f).desk = f s.desk := rfl
@[simp] theorem State.modDesk_pool (s : State) (f : OrderUnit → OrderUnit) : (s.modDesk f).pool = s.pool := rfl
@[simp] theorem State.modDesk_loans (s : State) (f : OrderUnit → OrderUnit) : (s.modDesk f).loans = s.loans := rfl
@[simp] theorem State.modDesk_returns (s : State) (f : OrderUnit → OrderUnit) : (s.modDesk f).returns = s.returns := rfl
@[simp] theorem State.modDesk_zones (s : State) (f : OrderUnit → OrderUnit) : (s.modDesk f).zones = s.zones := rfl
@[simp] theorem State.modDesk_lines (s : State) (f : OrderUnit → OrderUnit) : (s.modDesk f).lines = s.lines := rfl
@[simp] theorem State.modDesk_outputs (s : State) (f : OrderUnit → OrderUnit) : (s.modDesk f).outputs = s.outputs := rfl
@[simp] theorem State.modDesk_mode (s : State) (f : OrderUnit → OrderUnit) : (s.modDesk f).mode = s.mode := rfl
@[simp] theorem State.modDesk_resets (s : State) (f : OrderUnit → OrderUnit) : (s.modDesk f).resets = s.resets := rfl
@[simp] theorem State.modDesk_now (s : State) (f : OrderUnit → OrderUnit) : (s.modDesk f).now = s.now := rfl
@[simp] theorem State.modDesk_floats (s : State) (f : OrderUnit → OrderUnit) : (s.modDesk f).floats = s.floats := rfl
@[simp] theorem State.modDesk_work (s : State) (f : OrderUnit → OrderUnit) : (s.modDesk f).work = s.work := rfl
@[simp] theorem State.modDesk_pending (s : State) (f : OrderUnit → OrderUnit) : (s.modDesk f).pending = s.pending := rfl
@[simp] theorem State.modDesk_addr (s : State) (f : OrderUnit → OrderUnit) (x : Nat) : (s.modDesk f).addr x = s.addr x := rfl
@[simp] theorem State.modDesk_treatDown (s : State) (f : OrderUnit → OrderUnit) (x : Nat) : (s.modDesk f).treatDown x = s.treatDown x := rfl
@[simp] theorem State.modDesk_treatUp (s : State) (f : OrderUnit → OrderUnit) (x : Nat) : (s.modDesk f).treatUp x = s.treatUp x := rfl
@[simp] theorem State.modDesk_counter (s : State) (f : OrderUnit → OrderUnit) (x : Nat) : (s.modDesk f).counter x = s.counter x := rfl
@[simp] theorem State.modDesk_aisle (s : State) (f : OrderUnit → OrderUnit) (x : Nat) : (s.modDesk f).aisle x = s.aisle x := rfl
@[simp] theorem State.modDesk_bin (s : State) (f : OrderUnit → OrderUnit) (x : Nat) : (s.modDesk f).bin x = s.bin x := rfl
@[simp] theorem State.modDesk_crane (s : State) (f : OrderUnit → OrderUnit) (x : Nat) : (s.modDesk f).crane x = s.crane x := rfl
@[simp] theorem State.modDesk_lift (s : State) (f : OrderUnit → OrderUnit) (x : Nat) : (s.modDesk f).lift x = s.lift x := rfl
@[simp] theorem State.modDesk_zone (s : State) (f : OrderUnit → OrderUnit) (x : Nat) : (s.modDesk f).zone x = s.zone x := rfl
@[simp] theorem State.modDesk_line (s : State) (f : OrderUnit → OrderUnit) (x : Nat) : (s.modDesk f).line x = s.line x := rfl
@[simp] theorem State.modDesk_pull (s : State) (f : OrderUnit → OrderUnit) (x : Nat) : (s.modDesk f).pull x = s.pull x := rfl
@[simp] theorem State.modDesk_item (s : State) (f : OrderUnit → OrderUnit) (x : Nat) : (s.modDesk f).item x = s.item x := rfl
@[simp] theorem State.modDesk_lendClass (s : State) (f : OrderUnit → OrderUnit) (x : Nat) : (s.modDesk f).lendClass x = s.lendClass x := rfl

/-! ## modPool -/

@[simp] theorem State.modPool_link (s : State) (f : LiftPool → LiftPool) : (s.modPool f).link = s.link := rfl
@[simp] theorem State.modPool_ports (s : State) (f : LiftPool → LiftPool) : (s.modPool f).ports = s.ports := rfl
@[simp] theorem State.modPool_params (s : State) (f : LiftPool → LiftPool) : (s.modPool f).params = s.params := rfl
@[simp] theorem State.modPool_store (s : State) (f : LiftPool → LiftPool) : (s.modPool f).store = s.store := rfl
@[simp] theorem State.modPool_dispatch (s : State) (f : LiftPool → LiftPool) : (s.modPool f).dispatch = s.dispatch := rfl
@[simp] theorem State.modPool_desk (s : State) (f : LiftPool → LiftPool) : (s.modPool f).desk = s.desk := rfl
@[simp] theorem State.modPool_pool (s : State) (f : LiftPool → LiftPool) : (s.modPool f).pool = f s.pool := rfl
@[simp] theorem State.modPool_loans (s : State) (f : LiftPool → LiftPool) : (s.modPool f).loans = s.loans := rfl
@[simp] theorem State.modPool_returns (s : State) (f : LiftPool → LiftPool) : (s.modPool f).returns = s.returns := rfl
@[simp] theorem State.modPool_zones (s : State) (f : LiftPool → LiftPool) : (s.modPool f).zones = s.zones := rfl
@[simp] theorem State.modPool_lines (s : State) (f : LiftPool → LiftPool) : (s.modPool f).lines = s.lines := rfl
@[simp] theorem State.modPool_outputs (s : State) (f : LiftPool → LiftPool) : (s.modPool f).outputs = s.outputs := rfl
@[simp] theorem State.modPool_mode (s : State) (f : LiftPool → LiftPool) : (s.modPool f).mode = s.mode := rfl
@[simp] theorem State.modPool_resets (s : State) (f : LiftPool → LiftPool) : (s.modPool f).resets = s.resets := rfl
@[simp] theorem State.modPool_now (s : State) (f : LiftPool → LiftPool) : (s.modPool f).now = s.now := rfl
@[simp] theorem State.modPool_floats (s : State) (f : LiftPool → LiftPool) : (s.modPool f).floats = s.floats := rfl
@[simp] theorem State.modPool_work (s : State) (f : LiftPool → LiftPool) : (s.modPool f).work = s.work := rfl
@[simp] theorem State.modPool_pending (s : State) (f : LiftPool → LiftPool) : (s.modPool f).pending = s.pending := rfl
@[simp] theorem State.modPool_addr (s : State) (f : LiftPool → LiftPool) (x : Nat) : (s.modPool f).addr x = s.addr x := rfl
@[simp] theorem State.modPool_treatDown (s : State) (f : LiftPool → LiftPool) (x : Nat) : (s.modPool f).treatDown x = s.treatDown x := rfl
@[simp] theorem State.modPool_treatUp (s : State) (f : LiftPool → LiftPool) (x : Nat) : (s.modPool f).treatUp x = s.treatUp x := rfl
@[simp] theorem State.modPool_counter (s : State) (f : LiftPool → LiftPool) (x : Nat) : (s.modPool f).counter x = s.counter x := rfl
@[simp] theorem State.modPool_aisle (s : State) (f : LiftPool → LiftPool) (x : Nat) : (s.modPool f).aisle x = s.aisle x := rfl
@[simp] theorem State.modPool_bin (s : State) (f : LiftPool → LiftPool) (x : Nat) : (s.modPool f).bin x = s.bin x := rfl
@[simp] theorem State.modPool_crane (s : State) (f : LiftPool → LiftPool) (x : Nat) : (s.modPool f).crane x = s.crane x := rfl
@[simp] theorem State.modPool_station (s : State) (f : LiftPool → LiftPool) (x : Nat) : (s.modPool f).station x = s.station x := rfl
@[simp] theorem State.modPool_order (s : State) (f : LiftPool → LiftPool) (x : Nat) : (s.modPool f).order x = s.order x := rfl
@[simp] theorem State.modPool_zone (s : State) (f : LiftPool → LiftPool) (x : Nat) : (s.modPool f).zone x = s.zone x := rfl
@[simp] theorem State.modPool_line (s : State) (f : LiftPool → LiftPool) (x : Nat) : (s.modPool f).line x = s.line x := rfl
@[simp] theorem State.modPool_pull (s : State) (f : LiftPool → LiftPool) (x : Nat) : (s.modPool f).pull x = s.pull x := rfl
@[simp] theorem State.modPool_item (s : State) (f : LiftPool → LiftPool) (x : Nat) : (s.modPool f).item x = s.item x := rfl
@[simp] theorem State.modPool_lendClass (s : State) (f : LiftPool → LiftPool) (x : Nat) : (s.modPool f).lendClass x = s.lendClass x := rfl

/-! ## modLoans -/

@[simp] theorem State.modLoans_link (s : State) (f : LoanTable → LoanTable) : (s.modLoans f).link = s.link := rfl
@[simp] theorem State.modLoans_ports (s : State) (f : LoanTable → LoanTable) : (s.modLoans f).ports = s.ports := rfl
@[simp] theorem State.modLoans_params (s : State) (f : LoanTable → LoanTable) : (s.modLoans f).params = s.params := rfl
@[simp] theorem State.modLoans_store (s : State) (f : LoanTable → LoanTable) : (s.modLoans f).store = s.store := rfl
@[simp] theorem State.modLoans_dispatch (s : State) (f : LoanTable → LoanTable) : (s.modLoans f).dispatch = s.dispatch := rfl
@[simp] theorem State.modLoans_desk (s : State) (f : LoanTable → LoanTable) : (s.modLoans f).desk = s.desk := rfl
@[simp] theorem State.modLoans_pool (s : State) (f : LoanTable → LoanTable) : (s.modLoans f).pool = s.pool := rfl
@[simp] theorem State.modLoans_loans (s : State) (f : LoanTable → LoanTable) : (s.modLoans f).loans = f s.loans := rfl
@[simp] theorem State.modLoans_returns (s : State) (f : LoanTable → LoanTable) : (s.modLoans f).returns = s.returns := rfl
@[simp] theorem State.modLoans_zones (s : State) (f : LoanTable → LoanTable) : (s.modLoans f).zones = s.zones := rfl
@[simp] theorem State.modLoans_lines (s : State) (f : LoanTable → LoanTable) : (s.modLoans f).lines = s.lines := rfl
@[simp] theorem State.modLoans_outputs (s : State) (f : LoanTable → LoanTable) : (s.modLoans f).outputs = s.outputs := rfl
@[simp] theorem State.modLoans_mode (s : State) (f : LoanTable → LoanTable) : (s.modLoans f).mode = s.mode := rfl
@[simp] theorem State.modLoans_resets (s : State) (f : LoanTable → LoanTable) : (s.modLoans f).resets = s.resets := rfl
@[simp] theorem State.modLoans_now (s : State) (f : LoanTable → LoanTable) : (s.modLoans f).now = s.now := rfl
@[simp] theorem State.modLoans_floats (s : State) (f : LoanTable → LoanTable) : (s.modLoans f).floats = s.floats := rfl
@[simp] theorem State.modLoans_work (s : State) (f : LoanTable → LoanTable) : (s.modLoans f).work = s.work := rfl
@[simp] theorem State.modLoans_pending (s : State) (f : LoanTable → LoanTable) : (s.modLoans f).pending = s.pending := rfl
@[simp] theorem State.modLoans_addr (s : State) (f : LoanTable → LoanTable) (x : Nat) : (s.modLoans f).addr x = s.addr x := rfl
@[simp] theorem State.modLoans_treatDown (s : State) (f : LoanTable → LoanTable) (x : Nat) : (s.modLoans f).treatDown x = s.treatDown x := rfl
@[simp] theorem State.modLoans_treatUp (s : State) (f : LoanTable → LoanTable) (x : Nat) : (s.modLoans f).treatUp x = s.treatUp x := rfl
@[simp] theorem State.modLoans_counter (s : State) (f : LoanTable → LoanTable) (x : Nat) : (s.modLoans f).counter x = s.counter x := rfl
@[simp] theorem State.modLoans_aisle (s : State) (f : LoanTable → LoanTable) (x : Nat) : (s.modLoans f).aisle x = s.aisle x := rfl
@[simp] theorem State.modLoans_bin (s : State) (f : LoanTable → LoanTable) (x : Nat) : (s.modLoans f).bin x = s.bin x := rfl
@[simp] theorem State.modLoans_crane (s : State) (f : LoanTable → LoanTable) (x : Nat) : (s.modLoans f).crane x = s.crane x := rfl
@[simp] theorem State.modLoans_station (s : State) (f : LoanTable → LoanTable) (x : Nat) : (s.modLoans f).station x = s.station x := rfl
@[simp] theorem State.modLoans_order (s : State) (f : LoanTable → LoanTable) (x : Nat) : (s.modLoans f).order x = s.order x := rfl
@[simp] theorem State.modLoans_lift (s : State) (f : LoanTable → LoanTable) (x : Nat) : (s.modLoans f).lift x = s.lift x := rfl
@[simp] theorem State.modLoans_zone (s : State) (f : LoanTable → LoanTable) (x : Nat) : (s.modLoans f).zone x = s.zone x := rfl
@[simp] theorem State.modLoans_line (s : State) (f : LoanTable → LoanTable) (x : Nat) : (s.modLoans f).line x = s.line x := rfl
@[simp] theorem State.modLoans_pull (s : State) (f : LoanTable → LoanTable) (x : Nat) : (s.modLoans f).pull x = s.pull x := rfl

/-! ## modReturns -/

@[simp] theorem State.modReturns_link (s : State) (f : ReturnUnit → ReturnUnit) : (s.modReturns f).link = s.link := rfl
@[simp] theorem State.modReturns_ports (s : State) (f : ReturnUnit → ReturnUnit) : (s.modReturns f).ports = s.ports := rfl
@[simp] theorem State.modReturns_params (s : State) (f : ReturnUnit → ReturnUnit) : (s.modReturns f).params = s.params := rfl
@[simp] theorem State.modReturns_store (s : State) (f : ReturnUnit → ReturnUnit) : (s.modReturns f).store = s.store := rfl
@[simp] theorem State.modReturns_dispatch (s : State) (f : ReturnUnit → ReturnUnit) : (s.modReturns f).dispatch = s.dispatch := rfl
@[simp] theorem State.modReturns_desk (s : State) (f : ReturnUnit → ReturnUnit) : (s.modReturns f).desk = s.desk := rfl
@[simp] theorem State.modReturns_pool (s : State) (f : ReturnUnit → ReturnUnit) : (s.modReturns f).pool = s.pool := rfl
@[simp] theorem State.modReturns_loans (s : State) (f : ReturnUnit → ReturnUnit) : (s.modReturns f).loans = s.loans := rfl
@[simp] theorem State.modReturns_returns (s : State) (f : ReturnUnit → ReturnUnit) : (s.modReturns f).returns = f s.returns := rfl
@[simp] theorem State.modReturns_zones (s : State) (f : ReturnUnit → ReturnUnit) : (s.modReturns f).zones = s.zones := rfl
@[simp] theorem State.modReturns_lines (s : State) (f : ReturnUnit → ReturnUnit) : (s.modReturns f).lines = s.lines := rfl
@[simp] theorem State.modReturns_outputs (s : State) (f : ReturnUnit → ReturnUnit) : (s.modReturns f).outputs = s.outputs := rfl
@[simp] theorem State.modReturns_mode (s : State) (f : ReturnUnit → ReturnUnit) : (s.modReturns f).mode = s.mode := rfl
@[simp] theorem State.modReturns_resets (s : State) (f : ReturnUnit → ReturnUnit) : (s.modReturns f).resets = s.resets := rfl
@[simp] theorem State.modReturns_now (s : State) (f : ReturnUnit → ReturnUnit) : (s.modReturns f).now = s.now := rfl
@[simp] theorem State.modReturns_floats (s : State) (f : ReturnUnit → ReturnUnit) : (s.modReturns f).floats = s.floats := rfl
@[simp] theorem State.modReturns_work (s : State) (f : ReturnUnit → ReturnUnit) : (s.modReturns f).work = s.work := rfl
@[simp] theorem State.modReturns_pending (s : State) (f : ReturnUnit → ReturnUnit) : (s.modReturns f).pending = s.pending := rfl
@[simp] theorem State.modReturns_addr (s : State) (f : ReturnUnit → ReturnUnit) (x : Nat) : (s.modReturns f).addr x = s.addr x := rfl
@[simp] theorem State.modReturns_treatDown (s : State) (f : ReturnUnit → ReturnUnit) (x : Nat) : (s.modReturns f).treatDown x = s.treatDown x := rfl
@[simp] theorem State.modReturns_treatUp (s : State) (f : ReturnUnit → ReturnUnit) (x : Nat) : (s.modReturns f).treatUp x = s.treatUp x := rfl
@[simp] theorem State.modReturns_counter (s : State) (f : ReturnUnit → ReturnUnit) (x : Nat) : (s.modReturns f).counter x = s.counter x := rfl
@[simp] theorem State.modReturns_aisle (s : State) (f : ReturnUnit → ReturnUnit) (x : Nat) : (s.modReturns f).aisle x = s.aisle x := rfl
@[simp] theorem State.modReturns_bin (s : State) (f : ReturnUnit → ReturnUnit) (x : Nat) : (s.modReturns f).bin x = s.bin x := rfl
@[simp] theorem State.modReturns_crane (s : State) (f : ReturnUnit → ReturnUnit) (x : Nat) : (s.modReturns f).crane x = s.crane x := rfl
@[simp] theorem State.modReturns_station (s : State) (f : ReturnUnit → ReturnUnit) (x : Nat) : (s.modReturns f).station x = s.station x := rfl
@[simp] theorem State.modReturns_order (s : State) (f : ReturnUnit → ReturnUnit) (x : Nat) : (s.modReturns f).order x = s.order x := rfl
@[simp] theorem State.modReturns_lift (s : State) (f : ReturnUnit → ReturnUnit) (x : Nat) : (s.modReturns f).lift x = s.lift x := rfl
@[simp] theorem State.modReturns_zone (s : State) (f : ReturnUnit → ReturnUnit) (x : Nat) : (s.modReturns f).zone x = s.zone x := rfl
@[simp] theorem State.modReturns_line (s : State) (f : ReturnUnit → ReturnUnit) (x : Nat) : (s.modReturns f).line x = s.line x := rfl
@[simp] theorem State.modReturns_pull (s : State) (f : ReturnUnit → ReturnUnit) (x : Nat) : (s.modReturns f).pull x = s.pull x := rfl
@[simp] theorem State.modReturns_item (s : State) (f : ReturnUnit → ReturnUnit) (x : Nat) : (s.modReturns f).item x = s.item x := rfl
@[simp] theorem State.modReturns_lendClass (s : State) (f : ReturnUnit → ReturnUnit) (x : Nat) : (s.modReturns f).lendClass x = s.lendClass x := rfl

/-! ## modResets -/

@[simp] theorem State.modResets_link (s : State) (f : ResetControl → ResetControl) : (s.modResets f).link = s.link := rfl
@[simp] theorem State.modResets_ports (s : State) (f : ResetControl → ResetControl) : (s.modResets f).ports = s.ports := rfl
@[simp] theorem State.modResets_params (s : State) (f : ResetControl → ResetControl) : (s.modResets f).params = s.params := rfl
@[simp] theorem State.modResets_store (s : State) (f : ResetControl → ResetControl) : (s.modResets f).store = s.store := rfl
@[simp] theorem State.modResets_dispatch (s : State) (f : ResetControl → ResetControl) : (s.modResets f).dispatch = s.dispatch := rfl
@[simp] theorem State.modResets_desk (s : State) (f : ResetControl → ResetControl) : (s.modResets f).desk = s.desk := rfl
@[simp] theorem State.modResets_pool (s : State) (f : ResetControl → ResetControl) : (s.modResets f).pool = s.pool := rfl
@[simp] theorem State.modResets_loans (s : State) (f : ResetControl → ResetControl) : (s.modResets f).loans = s.loans := rfl
@[simp] theorem State.modResets_returns (s : State) (f : ResetControl → ResetControl) : (s.modResets f).returns = s.returns := rfl
@[simp] theorem State.modResets_zones (s : State) (f : ResetControl → ResetControl) : (s.modResets f).zones = s.zones := rfl
@[simp] theorem State.modResets_lines (s : State) (f : ResetControl → ResetControl) : (s.modResets f).lines = s.lines := rfl
@[simp] theorem State.modResets_outputs (s : State) (f : ResetControl → ResetControl) : (s.modResets f).outputs = s.outputs := rfl
@[simp] theorem State.modResets_mode (s : State) (f : ResetControl → ResetControl) : (s.modResets f).mode = s.mode := rfl
@[simp] theorem State.modResets_resets (s : State) (f : ResetControl → ResetControl) : (s.modResets f).resets = f s.resets := rfl
@[simp] theorem State.modResets_now (s : State) (f : ResetControl → ResetControl) : (s.modResets f).now = s.now := rfl
@[simp] theorem State.modResets_floats (s : State) (f : ResetControl → ResetControl) : (s.modResets f).floats = s.floats := rfl
@[simp] theorem State.modResets_work (s : State) (f : ResetControl → ResetControl) : (s.modResets f).work = s.work := rfl
@[simp] theorem State.modResets_pending (s : State) (f : ResetControl → ResetControl) : (s.modResets f).pending = s.pending := rfl
@[simp] theorem State.modResets_addr (s : State) (f : ResetControl → ResetControl) (x : Nat) : (s.modResets f).addr x = s.addr x := rfl
@[simp] theorem State.modResets_treatDown (s : State) (f : ResetControl → ResetControl) (x : Nat) : (s.modResets f).treatDown x = s.treatDown x := rfl
@[simp] theorem State.modResets_treatUp (s : State) (f : ResetControl → ResetControl) (x : Nat) : (s.modResets f).treatUp x = s.treatUp x := rfl
@[simp] theorem State.modResets_counter (s : State) (f : ResetControl → ResetControl) (x : Nat) : (s.modResets f).counter x = s.counter x := rfl
@[simp] theorem State.modResets_aisle (s : State) (f : ResetControl → ResetControl) (x : Nat) : (s.modResets f).aisle x = s.aisle x := rfl
@[simp] theorem State.modResets_bin (s : State) (f : ResetControl → ResetControl) (x : Nat) : (s.modResets f).bin x = s.bin x := rfl
@[simp] theorem State.modResets_crane (s : State) (f : ResetControl → ResetControl) (x : Nat) : (s.modResets f).crane x = s.crane x := rfl
@[simp] theorem State.modResets_station (s : State) (f : ResetControl → ResetControl) (x : Nat) : (s.modResets f).station x = s.station x := rfl
@[simp] theorem State.modResets_order (s : State) (f : ResetControl → ResetControl) (x : Nat) : (s.modResets f).order x = s.order x := rfl
@[simp] theorem State.modResets_lift (s : State) (f : ResetControl → ResetControl) (x : Nat) : (s.modResets f).lift x = s.lift x := rfl
@[simp] theorem State.modResets_zone (s : State) (f : ResetControl → ResetControl) (x : Nat) : (s.modResets f).zone x = s.zone x := rfl
@[simp] theorem State.modResets_line (s : State) (f : ResetControl → ResetControl) (x : Nat) : (s.modResets f).line x = s.line x := rfl
@[simp] theorem State.modResets_pull (s : State) (f : ResetControl → ResetControl) (x : Nat) : (s.modResets f).pull x = s.pull x := rfl
@[simp] theorem State.modResets_item (s : State) (f : ResetControl → ResetControl) (x : Nat) : (s.modResets f).item x = s.item x := rfl
@[simp] theorem State.modResets_lendClass (s : State) (f : ResetControl → ResetControl) (x : Nat) : (s.modResets f).lendClass x = s.lendClass x := rfl

/-! ## modWork -/

@[simp] theorem State.modWork_link (s : State) (f : Work → Work) : (s.modWork f).link = s.link := rfl
@[simp] theorem State.modWork_ports (s : State) (f : Work → Work) : (s.modWork f).ports = s.ports := rfl
@[simp] theorem State.modWork_params (s : State) (f : Work → Work) : (s.modWork f).params = s.params := rfl
@[simp] theorem State.modWork_store (s : State) (f : Work → Work) : (s.modWork f).store = s.store := rfl
@[simp] theorem State.modWork_dispatch (s : State) (f : Work → Work) : (s.modWork f).dispatch = s.dispatch := rfl
@[simp] theorem State.modWork_desk (s : State) (f : Work → Work) : (s.modWork f).desk = s.desk := rfl
@[simp] theorem State.modWork_pool (s : State) (f : Work → Work) : (s.modWork f).pool = s.pool := rfl
@[simp] theorem State.modWork_loans (s : State) (f : Work → Work) : (s.modWork f).loans = s.loans := rfl
@[simp] theorem State.modWork_returns (s : State) (f : Work → Work) : (s.modWork f).returns = s.returns := rfl
@[simp] theorem State.modWork_zones (s : State) (f : Work → Work) : (s.modWork f).zones = s.zones := rfl
@[simp] theorem State.modWork_lines (s : State) (f : Work → Work) : (s.modWork f).lines = s.lines := rfl
@[simp] theorem State.modWork_outputs (s : State) (f : Work → Work) : (s.modWork f).outputs = s.outputs := rfl
@[simp] theorem State.modWork_mode (s : State) (f : Work → Work) : (s.modWork f).mode = s.mode := rfl
@[simp] theorem State.modWork_resets (s : State) (f : Work → Work) : (s.modWork f).resets = s.resets := rfl
@[simp] theorem State.modWork_now (s : State) (f : Work → Work) : (s.modWork f).now = s.now := rfl
@[simp] theorem State.modWork_floats (s : State) (f : Work → Work) : (s.modWork f).floats = s.floats := rfl
@[simp] theorem State.modWork_work (s : State) (f : Work → Work) : (s.modWork f).work = f s.work := rfl
@[simp] theorem State.modWork_pending (s : State) (f : Work → Work) : (s.modWork f).pending = s.pending := rfl
@[simp] theorem State.modWork_addr (s : State) (f : Work → Work) (x : Nat) : (s.modWork f).addr x = s.addr x := rfl
@[simp] theorem State.modWork_treatDown (s : State) (f : Work → Work) (x : Nat) : (s.modWork f).treatDown x = s.treatDown x := rfl
@[simp] theorem State.modWork_treatUp (s : State) (f : Work → Work) (x : Nat) : (s.modWork f).treatUp x = s.treatUp x := rfl
@[simp] theorem State.modWork_counter (s : State) (f : Work → Work) (x : Nat) : (s.modWork f).counter x = s.counter x := rfl
@[simp] theorem State.modWork_aisle (s : State) (f : Work → Work) (x : Nat) : (s.modWork f).aisle x = s.aisle x := rfl
@[simp] theorem State.modWork_bin (s : State) (f : Work → Work) (x : Nat) : (s.modWork f).bin x = s.bin x := rfl
@[simp] theorem State.modWork_crane (s : State) (f : Work → Work) (x : Nat) : (s.modWork f).crane x = s.crane x := rfl
@[simp] theorem State.modWork_station (s : State) (f : Work → Work) (x : Nat) : (s.modWork f).station x = s.station x := rfl
@[simp] theorem State.modWork_order (s : State) (f : Work → Work) (x : Nat) : (s.modWork f).order x = s.order x := rfl
@[simp] theorem State.modWork_lift (s : State) (f : Work → Work) (x : Nat) : (s.modWork f).lift x = s.lift x := rfl
@[simp] theorem State.modWork_zone (s : State) (f : Work → Work) (x : Nat) : (s.modWork f).zone x = s.zone x := rfl
@[simp] theorem State.modWork_line (s : State) (f : Work → Work) (x : Nat) : (s.modWork f).line x = s.line x := rfl
@[simp] theorem State.modWork_pull (s : State) (f : Work → Work) (x : Nat) : (s.modWork f).pull x = s.pull x := rfl
@[simp] theorem State.modWork_item (s : State) (f : Work → Work) (x : Nat) : (s.modWork f).item x = s.item x := rfl
@[simp] theorem State.modWork_lendClass (s : State) (f : Work → Work) (x : Nat) : (s.modWork f).lendClass x = s.lendClass x := rfl

/-! ## modPorts -/

@[simp] theorem State.modPorts_link (s : State) (f : Ports → Ports) : (s.modPorts f).link = s.link := rfl
@[simp] theorem State.modPorts_ports (s : State) (f : Ports → Ports) : (s.modPorts f).ports = f s.ports := rfl
@[simp] theorem State.modPorts_params (s : State) (f : Ports → Ports) : (s.modPorts f).params = s.params := rfl
@[simp] theorem State.modPorts_store (s : State) (f : Ports → Ports) : (s.modPorts f).store = s.store := rfl
@[simp] theorem State.modPorts_dispatch (s : State) (f : Ports → Ports) : (s.modPorts f).dispatch = s.dispatch := rfl
@[simp] theorem State.modPorts_desk (s : State) (f : Ports → Ports) : (s.modPorts f).desk = s.desk := rfl
@[simp] theorem State.modPorts_pool (s : State) (f : Ports → Ports) : (s.modPorts f).pool = s.pool := rfl
@[simp] theorem State.modPorts_loans (s : State) (f : Ports → Ports) : (s.modPorts f).loans = s.loans := rfl
@[simp] theorem State.modPorts_returns (s : State) (f : Ports → Ports) : (s.modPorts f).returns = s.returns := rfl
@[simp] theorem State.modPorts_zones (s : State) (f : Ports → Ports) : (s.modPorts f).zones = s.zones := rfl
@[simp] theorem State.modPorts_lines (s : State) (f : Ports → Ports) : (s.modPorts f).lines = s.lines := rfl
@[simp] theorem State.modPorts_outputs (s : State) (f : Ports → Ports) : (s.modPorts f).outputs = s.outputs := rfl
@[simp] theorem State.modPorts_mode (s : State) (f : Ports → Ports) : (s.modPorts f).mode = s.mode := rfl
@[simp] theorem State.modPorts_resets (s : State) (f : Ports → Ports) : (s.modPorts f).resets = s.resets := rfl
@[simp] theorem State.modPorts_now (s : State) (f : Ports → Ports) : (s.modPorts f).now = s.now := rfl
@[simp] theorem State.modPorts_floats (s : State) (f : Ports → Ports) : (s.modPorts f).floats = s.floats := rfl
@[simp] theorem State.modPorts_work (s : State) (f : Ports → Ports) : (s.modPorts f).work = s.work := rfl
@[simp] theorem State.modPorts_pending (s : State) (f : Ports → Ports) : (s.modPorts f).pending = s.pending := rfl
@[simp] theorem State.modPorts_addr (s : State) (f : Ports → Ports) (x : Nat) : (s.modPorts f).addr x = s.addr x := rfl
@[simp] theorem State.modPorts_treatDown (s : State) (f : Ports → Ports) (x : Nat) : (s.modPorts f).treatDown x = s.treatDown x := rfl
@[simp] theorem State.modPorts_treatUp (s : State) (f : Ports → Ports) (x : Nat) : (s.modPorts f).treatUp x = s.treatUp x := rfl
@[simp] theorem State.modPorts_counter (s : State) (f : Ports → Ports) (x : Nat) : (s.modPorts f).counter x = s.counter x := rfl
@[simp] theorem State.modPorts_aisle (s : State) (f : Ports → Ports) (x : Nat) : (s.modPorts f).aisle x = s.aisle x := rfl
@[simp] theorem State.modPorts_bin (s : State) (f : Ports → Ports) (x : Nat) : (s.modPorts f).bin x = s.bin x := rfl
@[simp] theorem State.modPorts_crane (s : State) (f : Ports → Ports) (x : Nat) : (s.modPorts f).crane x = s.crane x := rfl
@[simp] theorem State.modPorts_station (s : State) (f : Ports → Ports) (x : Nat) : (s.modPorts f).station x = s.station x := rfl
@[simp] theorem State.modPorts_order (s : State) (f : Ports → Ports) (x : Nat) : (s.modPorts f).order x = s.order x := rfl
@[simp] theorem State.modPorts_lift (s : State) (f : Ports → Ports) (x : Nat) : (s.modPorts f).lift x = s.lift x := rfl
@[simp] theorem State.modPorts_zone (s : State) (f : Ports → Ports) (x : Nat) : (s.modPorts f).zone x = s.zone x := rfl
@[simp] theorem State.modPorts_line (s : State) (f : Ports → Ports) (x : Nat) : (s.modPorts f).line x = s.line x := rfl
@[simp] theorem State.modPorts_pull (s : State) (f : Ports → Ports) (x : Nat) : (s.modPorts f).pull x = s.pull x := rfl
@[simp] theorem State.modPorts_item (s : State) (f : Ports → Ports) (x : Nat) : (s.modPorts f).item x = s.item x := rfl
@[simp] theorem State.modPorts_lendClass (s : State) (f : Ports → Ports) (x : Nat) : (s.modPorts f).lendClass x = s.lendClass x := rfl

/-! ## modParams -/

@[simp] theorem State.modParams_link (s : State) (f : Params → Params) : (s.modParams f).link = s.link := rfl
@[simp] theorem State.modParams_ports (s : State) (f : Params → Params) : (s.modParams f).ports = s.ports := rfl
@[simp] theorem State.modParams_params (s : State) (f : Params → Params) : (s.modParams f).params = f s.params := rfl
@[simp] theorem State.modParams_store (s : State) (f : Params → Params) : (s.modParams f).store = s.store := rfl
@[simp] theorem State.modParams_dispatch (s : State) (f : Params → Params) : (s.modParams f).dispatch = s.dispatch := rfl
@[simp] theorem State.modParams_desk (s : State) (f : Params → Params) : (s.modParams f).desk = s.desk := rfl
@[simp] theorem State.modParams_pool (s : State) (f : Params → Params) : (s.modParams f).pool = s.pool := rfl
@[simp] theorem State.modParams_loans (s : State) (f : Params → Params) : (s.modParams f).loans = s.loans := rfl
@[simp] theorem State.modParams_returns (s : State) (f : Params → Params) : (s.modParams f).returns = s.returns := rfl
@[simp] theorem State.modParams_zones (s : State) (f : Params → Params) : (s.modParams f).zones = s.zones := rfl
@[simp] theorem State.modParams_lines (s : State) (f : Params → Params) : (s.modParams f).lines = s.lines := rfl
@[simp] theorem State.modParams_outputs (s : State) (f : Params → Params) : (s.modParams f).outputs = s.outputs := rfl
@[simp] theorem State.modParams_mode (s : State) (f : Params → Params) : (s.modParams f).mode = s.mode := rfl
@[simp] theorem State.modParams_resets (s : State) (f : Params → Params) : (s.modParams f).resets = s.resets := rfl
@[simp] theorem State.modParams_now (s : State) (f : Params → Params) : (s.modParams f).now = s.now := rfl
@[simp] theorem State.modParams_floats (s : State) (f : Params → Params) : (s.modParams f).floats = s.floats := rfl
@[simp] theorem State.modParams_work (s : State) (f : Params → Params) : (s.modParams f).work = s.work := rfl
@[simp] theorem State.modParams_pending (s : State) (f : Params → Params) : (s.modParams f).pending = s.pending := rfl
@[simp] theorem State.modParams_addr (s : State) (f : Params → Params) (x : Nat) : (s.modParams f).addr x = s.addr x := rfl
@[simp] theorem State.modParams_treatDown (s : State) (f : Params → Params) (x : Nat) : (s.modParams f).treatDown x = s.treatDown x := rfl
@[simp] theorem State.modParams_treatUp (s : State) (f : Params → Params) (x : Nat) : (s.modParams f).treatUp x = s.treatUp x := rfl
@[simp] theorem State.modParams_counter (s : State) (f : Params → Params) (x : Nat) : (s.modParams f).counter x = s.counter x := rfl
@[simp] theorem State.modParams_aisle (s : State) (f : Params → Params) (x : Nat) : (s.modParams f).aisle x = s.aisle x := rfl
@[simp] theorem State.modParams_bin (s : State) (f : Params → Params) (x : Nat) : (s.modParams f).bin x = s.bin x := rfl
@[simp] theorem State.modParams_crane (s : State) (f : Params → Params) (x : Nat) : (s.modParams f).crane x = s.crane x := rfl
@[simp] theorem State.modParams_station (s : State) (f : Params → Params) (x : Nat) : (s.modParams f).station x = s.station x := rfl
@[simp] theorem State.modParams_order (s : State) (f : Params → Params) (x : Nat) : (s.modParams f).order x = s.order x := rfl
@[simp] theorem State.modParams_lift (s : State) (f : Params → Params) (x : Nat) : (s.modParams f).lift x = s.lift x := rfl
@[simp] theorem State.modParams_zone (s : State) (f : Params → Params) (x : Nat) : (s.modParams f).zone x = s.zone x := rfl
@[simp] theorem State.modParams_line (s : State) (f : Params → Params) (x : Nat) : (s.modParams f).line x = s.line x := rfl
@[simp] theorem State.modParams_pull (s : State) (f : Params → Params) (x : Nat) : (s.modParams f).pull x = s.pull x := rfl
@[simp] theorem State.modParams_item (s : State) (f : Params → Params) (x : Nat) : (s.modParams f).item x = s.item x := rfl
@[simp] theorem State.modParams_lendClass (s : State) (f : Params → Params) (x : Nat) : (s.modParams f).lendClass x = s.lendClass x := rfl

/-! ## modMode -/

@[simp] theorem State.modMode_link (s : State) (f : ModeControl → ModeControl) : (s.modMode f).link = s.link := rfl
@[simp] theorem State.modMode_ports (s : State) (f : ModeControl → ModeControl) : (s.modMode f).ports = s.ports := rfl
@[simp] theorem State.modMode_params (s : State) (f : ModeControl → ModeControl) : (s.modMode f).params = s.params := rfl
@[simp] theorem State.modMode_store (s : State) (f : ModeControl → ModeControl) : (s.modMode f).store = s.store := rfl
@[simp] theorem State.modMode_dispatch (s : State) (f : ModeControl → ModeControl) : (s.modMode f).dispatch = s.dispatch := rfl
@[simp] theorem State.modMode_desk (s : State) (f : ModeControl → ModeControl) : (s.modMode f).desk = s.desk := rfl
@[simp] theorem State.modMode_pool (s : State) (f : ModeControl → ModeControl) : (s.modMode f).pool = s.pool := rfl
@[simp] theorem State.modMode_loans (s : State) (f : ModeControl → ModeControl) : (s.modMode f).loans = s.loans := rfl
@[simp] theorem State.modMode_returns (s : State) (f : ModeControl → ModeControl) : (s.modMode f).returns = s.returns := rfl
@[simp] theorem State.modMode_zones (s : State) (f : ModeControl → ModeControl) : (s.modMode f).zones = s.zones := rfl
@[simp] theorem State.modMode_lines (s : State) (f : ModeControl → ModeControl) : (s.modMode f).lines = s.lines := rfl
@[simp] theorem State.modMode_outputs (s : State) (f : ModeControl → ModeControl) : (s.modMode f).outputs = s.outputs := rfl
@[simp] theorem State.modMode_mode (s : State) (f : ModeControl → ModeControl) : (s.modMode f).mode = f s.mode := rfl
@[simp] theorem State.modMode_resets (s : State) (f : ModeControl → ModeControl) : (s.modMode f).resets = s.resets := rfl
@[simp] theorem State.modMode_now (s : State) (f : ModeControl → ModeControl) : (s.modMode f).now = s.now := rfl
@[simp] theorem State.modMode_floats (s : State) (f : ModeControl → ModeControl) : (s.modMode f).floats = s.floats := rfl
@[simp] theorem State.modMode_work (s : State) (f : ModeControl → ModeControl) : (s.modMode f).work = s.work := rfl
@[simp] theorem State.modMode_pending (s : State) (f : ModeControl → ModeControl) : (s.modMode f).pending = s.pending := rfl
@[simp] theorem State.modMode_addr (s : State) (f : ModeControl → ModeControl) (x : Nat) : (s.modMode f).addr x = s.addr x := rfl
@[simp] theorem State.modMode_treatDown (s : State) (f : ModeControl → ModeControl) (x : Nat) : (s.modMode f).treatDown x = s.treatDown x := rfl
@[simp] theorem State.modMode_treatUp (s : State) (f : ModeControl → ModeControl) (x : Nat) : (s.modMode f).treatUp x = s.treatUp x := rfl
@[simp] theorem State.modMode_counter (s : State) (f : ModeControl → ModeControl) (x : Nat) : (s.modMode f).counter x = s.counter x := rfl
@[simp] theorem State.modMode_aisle (s : State) (f : ModeControl → ModeControl) (x : Nat) : (s.modMode f).aisle x = s.aisle x := rfl
@[simp] theorem State.modMode_bin (s : State) (f : ModeControl → ModeControl) (x : Nat) : (s.modMode f).bin x = s.bin x := rfl
@[simp] theorem State.modMode_crane (s : State) (f : ModeControl → ModeControl) (x : Nat) : (s.modMode f).crane x = s.crane x := rfl
@[simp] theorem State.modMode_station (s : State) (f : ModeControl → ModeControl) (x : Nat) : (s.modMode f).station x = s.station x := rfl
@[simp] theorem State.modMode_order (s : State) (f : ModeControl → ModeControl) (x : Nat) : (s.modMode f).order x = s.order x := rfl
@[simp] theorem State.modMode_lift (s : State) (f : ModeControl → ModeControl) (x : Nat) : (s.modMode f).lift x = s.lift x := rfl
@[simp] theorem State.modMode_zone (s : State) (f : ModeControl → ModeControl) (x : Nat) : (s.modMode f).zone x = s.zone x := rfl
@[simp] theorem State.modMode_line (s : State) (f : ModeControl → ModeControl) (x : Nat) : (s.modMode f).line x = s.line x := rfl
@[simp] theorem State.modMode_pull (s : State) (f : ModeControl → ModeControl) (x : Nat) : (s.modMode f).pull x = s.pull x := rfl
@[simp] theorem State.modMode_item (s : State) (f : ModeControl → ModeControl) (x : Nat) : (s.modMode f).item x = s.item x := rfl
@[simp] theorem State.modMode_lendClass (s : State) (f : ModeControl → ModeControl) (x : Nat) : (s.modMode f).lendClass x = s.lendClass x := rfl

/-! ## beginEvent -/

@[simp] theorem State.beginEvent_link (s : State) : (s.beginEvent).link = s.link := rfl
@[simp] theorem State.beginEvent_ports (s : State) : (s.beginEvent).ports = s.ports := rfl
@[simp] theorem State.beginEvent_params (s : State) : (s.beginEvent).params = s.params := rfl
@[simp] theorem State.beginEvent_store (s : State) : (s.beginEvent).store = s.store := rfl
@[simp] theorem State.beginEvent_dispatch (s : State) : (s.beginEvent).dispatch = s.dispatch := rfl
@[simp] theorem State.beginEvent_desk (s : State) : (s.beginEvent).desk = s.desk := rfl
@[simp] theorem State.beginEvent_pool (s : State) : (s.beginEvent).pool = s.pool := rfl
@[simp] theorem State.beginEvent_loans (s : State) : (s.beginEvent).loans = s.loans := rfl
@[simp] theorem State.beginEvent_returns (s : State) : (s.beginEvent).returns = s.returns := rfl
@[simp] theorem State.beginEvent_zones (s : State) : (s.beginEvent).zones = s.zones := rfl
@[simp] theorem State.beginEvent_lines (s : State) : (s.beginEvent).lines = s.lines := rfl
@[simp] theorem State.beginEvent_outputs (s : State) : (s.beginEvent).outputs = s.outputs := rfl
@[simp] theorem State.beginEvent_mode (s : State) : (s.beginEvent).mode = s.mode := rfl
@[simp] theorem State.beginEvent_resets (s : State) : (s.beginEvent).resets = s.resets := rfl
@[simp] theorem State.beginEvent_now (s : State) : (s.beginEvent).now = s.now := rfl
@[simp] theorem State.beginEvent_floats (s : State) : (s.beginEvent).floats = s.floats := rfl
@[simp] theorem State.beginEvent_pending (s : State) : (s.beginEvent).pending = s.pending := rfl
@[simp] theorem State.beginEvent_addr (s : State) (x : Nat) : (s.beginEvent).addr x = s.addr x := rfl
@[simp] theorem State.beginEvent_treatDown (s : State) (x : Nat) : (s.beginEvent).treatDown x = s.treatDown x := rfl
@[simp] theorem State.beginEvent_treatUp (s : State) (x : Nat) : (s.beginEvent).treatUp x = s.treatUp x := rfl
@[simp] theorem State.beginEvent_counter (s : State) (x : Nat) : (s.beginEvent).counter x = s.counter x := rfl
@[simp] theorem State.beginEvent_aisle (s : State) (x : Nat) : (s.beginEvent).aisle x = s.aisle x := rfl
@[simp] theorem State.beginEvent_bin (s : State) (x : Nat) : (s.beginEvent).bin x = s.bin x := rfl
@[simp] theorem State.beginEvent_crane (s : State) (x : Nat) : (s.beginEvent).crane x = s.crane x := rfl
@[simp] theorem State.beginEvent_station (s : State) (x : Nat) : (s.beginEvent).station x = s.station x := rfl
@[simp] theorem State.beginEvent_order (s : State) (x : Nat) : (s.beginEvent).order x = s.order x := rfl
@[simp] theorem State.beginEvent_lift (s : State) (x : Nat) : (s.beginEvent).lift x = s.lift x := rfl
@[simp] theorem State.beginEvent_zone (s : State) (x : Nat) : (s.beginEvent).zone x = s.zone x := rfl
@[simp] theorem State.beginEvent_line (s : State) (x : Nat) : (s.beginEvent).line x = s.line x := rfl
@[simp] theorem State.beginEvent_pull (s : State) (x : Nat) : (s.beginEvent).pull x = s.pull x := rfl
@[simp] theorem State.beginEvent_item (s : State) (x : Nat) : (s.beginEvent).item x = s.item x := rfl
@[simp] theorem State.beginEvent_lendClass (s : State) (x : Nat) : (s.beginEvent).lendClass x = s.lendClass x := rfl

/-! ## setAddr -/

@[simp] theorem State.setAddr_ports (s : State) (a : Nat) (e : AddrEntry) : (s.setAddr a e).ports = s.ports := rfl
@[simp] theorem State.setAddr_params (s : State) (a : Nat) (e : AddrEntry) : (s.setAddr a e).params = s.params := rfl
@[simp] theorem State.setAddr_store (s : State) (a : Nat) (e : AddrEntry) : (s.setAddr a e).store = s.store := rfl
@[simp] theorem State.setAddr_dispatch (s : State) (a : Nat) (e : AddrEntry) : (s.setAddr a e).dispatch = s.dispatch := rfl
@[simp] theorem State.setAddr_desk (s : State) (a : Nat) (e : AddrEntry) : (s.setAddr a e).desk = s.desk := rfl
@[simp] theorem State.setAddr_pool (s : State) (a : Nat) (e : AddrEntry) : (s.setAddr a e).pool = s.pool := rfl
@[simp] theorem State.setAddr_loans (s : State) (a : Nat) (e : AddrEntry) : (s.setAddr a e).loans = s.loans := rfl
@[simp] theorem State.setAddr_returns (s : State) (a : Nat) (e : AddrEntry) : (s.setAddr a e).returns = s.returns := rfl
@[simp] theorem State.setAddr_zones (s : State) (a : Nat) (e : AddrEntry) : (s.setAddr a e).zones = s.zones := rfl
@[simp] theorem State.setAddr_lines (s : State) (a : Nat) (e : AddrEntry) : (s.setAddr a e).lines = s.lines := rfl
@[simp] theorem State.setAddr_outputs (s : State) (a : Nat) (e : AddrEntry) : (s.setAddr a e).outputs = s.outputs := rfl
@[simp] theorem State.setAddr_mode (s : State) (a : Nat) (e : AddrEntry) : (s.setAddr a e).mode = s.mode := rfl
@[simp] theorem State.setAddr_resets (s : State) (a : Nat) (e : AddrEntry) : (s.setAddr a e).resets = s.resets := rfl
@[simp] theorem State.setAddr_now (s : State) (a : Nat) (e : AddrEntry) : (s.setAddr a e).now = s.now := rfl
@[simp] theorem State.setAddr_floats (s : State) (a : Nat) (e : AddrEntry) : (s.setAddr a e).floats = s.floats := rfl
@[simp] theorem State.setAddr_work (s : State) (a : Nat) (e : AddrEntry) : (s.setAddr a e).work = s.work := rfl
@[simp] theorem State.setAddr_pending (s : State) (a : Nat) (e : AddrEntry) : (s.setAddr a e).pending = s.pending := rfl
@[simp] theorem State.setAddr_treatDown (s : State) (a : Nat) (e : AddrEntry) (x : Nat) : (s.setAddr a e).treatDown x = s.treatDown x := rfl
@[simp] theorem State.setAddr_treatUp (s : State) (a : Nat) (e : AddrEntry) (x : Nat) : (s.setAddr a e).treatUp x = s.treatUp x := rfl
@[simp] theorem State.setAddr_counter (s : State) (a : Nat) (e : AddrEntry) (x : Nat) : (s.setAddr a e).counter x = s.counter x := rfl
@[simp] theorem State.setAddr_aisle (s : State) (a : Nat) (e : AddrEntry) (x : Nat) : (s.setAddr a e).aisle x = s.aisle x := rfl
@[simp] theorem State.setAddr_bin (s : State) (a : Nat) (e : AddrEntry) (x : Nat) : (s.setAddr a e).bin x = s.bin x := rfl
@[simp] theorem State.setAddr_crane (s : State) (a : Nat) (e : AddrEntry) (x : Nat) : (s.setAddr a e).crane x = s.crane x := rfl
@[simp] theorem State.setAddr_station (s : State) (a : Nat) (e : AddrEntry) (x : Nat) : (s.setAddr a e).station x = s.station x := rfl
@[simp] theorem State.setAddr_order (s : State) (a : Nat) (e : AddrEntry) (x : Nat) : (s.setAddr a e).order x = s.order x := rfl
@[simp] theorem State.setAddr_lift (s : State) (a : Nat) (e : AddrEntry) (x : Nat) : (s.setAddr a e).lift x = s.lift x := rfl
@[simp] theorem State.setAddr_zone (s : State) (a : Nat) (e : AddrEntry) (x : Nat) : (s.setAddr a e).zone x = s.zone x := rfl
@[simp] theorem State.setAddr_line (s : State) (a : Nat) (e : AddrEntry) (x : Nat) : (s.setAddr a e).line x = s.line x := rfl
@[simp] theorem State.setAddr_pull (s : State) (a : Nat) (e : AddrEntry) (x : Nat) : (s.setAddr a e).pull x = s.pull x := rfl
@[simp] theorem State.setAddr_item (s : State) (a : Nat) (e : AddrEntry) (x : Nat) : (s.setAddr a e).item x = s.item x := rfl
@[simp] theorem State.setAddr_lendClass (s : State) (a : Nat) (e : AddrEntry) (x : Nat) : (s.setAddr a e).lendClass x = s.lendClass x := rfl

/-! ## setCounter -/

@[simp] theorem State.setCounter_ports (s : State) (i v : Nat) : (s.setCounter i v).ports = s.ports := rfl
@[simp] theorem State.setCounter_params (s : State) (i v : Nat) : (s.setCounter i v).params = s.params := rfl
@[simp] theorem State.setCounter_store (s : State) (i v : Nat) : (s.setCounter i v).store = s.store := rfl
@[simp] theorem State.setCounter_dispatch (s : State) (i v : Nat) : (s.setCounter i v).dispatch = s.dispatch := rfl
@[simp] theorem State.setCounter_desk (s : State) (i v : Nat) : (s.setCounter i v).desk = s.desk := rfl
@[simp] theorem State.setCounter_pool (s : State) (i v : Nat) : (s.setCounter i v).pool = s.pool := rfl
@[simp] theorem State.setCounter_loans (s : State) (i v : Nat) : (s.setCounter i v).loans = s.loans := rfl
@[simp] theorem State.setCounter_returns (s : State) (i v : Nat) : (s.setCounter i v).returns = s.returns := rfl
@[simp] theorem State.setCounter_zones (s : State) (i v : Nat) : (s.setCounter i v).zones = s.zones := rfl
@[simp] theorem State.setCounter_lines (s : State) (i v : Nat) : (s.setCounter i v).lines = s.lines := rfl
@[simp] theorem State.setCounter_outputs (s : State) (i v : Nat) : (s.setCounter i v).outputs = s.outputs := rfl
@[simp] theorem State.setCounter_mode (s : State) (i v : Nat) : (s.setCounter i v).mode = s.mode := rfl
@[simp] theorem State.setCounter_resets (s : State) (i v : Nat) : (s.setCounter i v).resets = s.resets := rfl
@[simp] theorem State.setCounter_now (s : State) (i v : Nat) : (s.setCounter i v).now = s.now := rfl
@[simp] theorem State.setCounter_floats (s : State) (i v : Nat) : (s.setCounter i v).floats = s.floats := rfl
@[simp] theorem State.setCounter_work (s : State) (i v : Nat) : (s.setCounter i v).work = s.work := rfl
@[simp] theorem State.setCounter_pending (s : State) (i v : Nat) : (s.setCounter i v).pending = s.pending := rfl
@[simp] theorem State.setCounter_addr (s : State) (i v : Nat) (x : Nat) : (s.setCounter i v).addr x = s.addr x := rfl
@[simp] theorem State.setCounter_treatDown (s : State) (i v : Nat) (x : Nat) : (s.setCounter i v).treatDown x = s.treatDown x := rfl
@[simp] theorem State.setCounter_treatUp (s : State) (i v : Nat) (x : Nat) : (s.setCounter i v).treatUp x = s.treatUp x := rfl
@[simp] theorem State.setCounter_aisle (s : State) (i v : Nat) (x : Nat) : (s.setCounter i v).aisle x = s.aisle x := rfl
@[simp] theorem State.setCounter_bin (s : State) (i v : Nat) (x : Nat) : (s.setCounter i v).bin x = s.bin x := rfl
@[simp] theorem State.setCounter_crane (s : State) (i v : Nat) (x : Nat) : (s.setCounter i v).crane x = s.crane x := rfl
@[simp] theorem State.setCounter_station (s : State) (i v : Nat) (x : Nat) : (s.setCounter i v).station x = s.station x := rfl
@[simp] theorem State.setCounter_order (s : State) (i v : Nat) (x : Nat) : (s.setCounter i v).order x = s.order x := rfl
@[simp] theorem State.setCounter_lift (s : State) (i v : Nat) (x : Nat) : (s.setCounter i v).lift x = s.lift x := rfl
@[simp] theorem State.setCounter_zone (s : State) (i v : Nat) (x : Nat) : (s.setCounter i v).zone x = s.zone x := rfl
@[simp] theorem State.setCounter_line (s : State) (i v : Nat) (x : Nat) : (s.setCounter i v).line x = s.line x := rfl
@[simp] theorem State.setCounter_pull (s : State) (i v : Nat) (x : Nat) : (s.setCounter i v).pull x = s.pull x := rfl
@[simp] theorem State.setCounter_item (s : State) (i v : Nat) (x : Nat) : (s.setCounter i v).item x = s.item x := rfl
@[simp] theorem State.setCounter_lendClass (s : State) (i v : Nat) (x : Nat) : (s.setCounter i v).lendClass x = s.lendClass x := rfl

/-! ## raise -/

@[simp] theorem State.raise_ports (s : State) (i : Nat) : (s.raise i).ports = s.ports := rfl
@[simp] theorem State.raise_params (s : State) (i : Nat) : (s.raise i).params = s.params := rfl
@[simp] theorem State.raise_store (s : State) (i : Nat) : (s.raise i).store = s.store := rfl
@[simp] theorem State.raise_dispatch (s : State) (i : Nat) : (s.raise i).dispatch = s.dispatch := rfl
@[simp] theorem State.raise_desk (s : State) (i : Nat) : (s.raise i).desk = s.desk := rfl
@[simp] theorem State.raise_pool (s : State) (i : Nat) : (s.raise i).pool = s.pool := rfl
@[simp] theorem State.raise_loans (s : State) (i : Nat) : (s.raise i).loans = s.loans := rfl
@[simp] theorem State.raise_returns (s : State) (i : Nat) : (s.raise i).returns = s.returns := rfl
@[simp] theorem State.raise_zones (s : State) (i : Nat) : (s.raise i).zones = s.zones := rfl
@[simp] theorem State.raise_lines (s : State) (i : Nat) : (s.raise i).lines = s.lines := rfl
@[simp] theorem State.raise_outputs (s : State) (i : Nat) : (s.raise i).outputs = s.outputs := rfl
@[simp] theorem State.raise_mode (s : State) (i : Nat) : (s.raise i).mode = s.mode := rfl
@[simp] theorem State.raise_resets (s : State) (i : Nat) : (s.raise i).resets = s.resets := rfl
@[simp] theorem State.raise_now (s : State) (i : Nat) : (s.raise i).now = s.now := rfl
@[simp] theorem State.raise_floats (s : State) (i : Nat) : (s.raise i).floats = s.floats := rfl
@[simp] theorem State.raise_work (s : State) (i : Nat) : (s.raise i).work = s.work := rfl
@[simp] theorem State.raise_pending (s : State) (i : Nat) : (s.raise i).pending = s.pending := rfl
@[simp] theorem State.raise_addr (s : State) (i : Nat) (x : Nat) : (s.raise i).addr x = s.addr x := rfl
@[simp] theorem State.raise_treatDown (s : State) (i : Nat) (x : Nat) : (s.raise i).treatDown x = s.treatDown x := rfl
@[simp] theorem State.raise_treatUp (s : State) (i : Nat) (x : Nat) : (s.raise i).treatUp x = s.treatUp x := rfl
@[simp] theorem State.raise_aisle (s : State) (i : Nat) (x : Nat) : (s.raise i).aisle x = s.aisle x := rfl
@[simp] theorem State.raise_bin (s : State) (i : Nat) (x : Nat) : (s.raise i).bin x = s.bin x := rfl
@[simp] theorem State.raise_crane (s : State) (i : Nat) (x : Nat) : (s.raise i).crane x = s.crane x := rfl
@[simp] theorem State.raise_station (s : State) (i : Nat) (x : Nat) : (s.raise i).station x = s.station x := rfl
@[simp] theorem State.raise_order (s : State) (i : Nat) (x : Nat) : (s.raise i).order x = s.order x := rfl
@[simp] theorem State.raise_lift (s : State) (i : Nat) (x : Nat) : (s.raise i).lift x = s.lift x := rfl
@[simp] theorem State.raise_zone (s : State) (i : Nat) (x : Nat) : (s.raise i).zone x = s.zone x := rfl
@[simp] theorem State.raise_line (s : State) (i : Nat) (x : Nat) : (s.raise i).line x = s.line x := rfl
@[simp] theorem State.raise_pull (s : State) (i : Nat) (x : Nat) : (s.raise i).pull x = s.pull x := rfl
@[simp] theorem State.raise_item (s : State) (i : Nat) (x : Nat) : (s.raise i).item x = s.item x := rfl
@[simp] theorem State.raise_lendClass (s : State) (i : Nat) (x : Nat) : (s.raise i).lendClass x = s.lendClass x := rfl

/-! ## setAisle -/

@[simp] theorem State.setAisle_link (s : State) (a : Nat) (r : Aisle) : (s.setAisle a r).link = s.link := rfl
@[simp] theorem State.setAisle_ports (s : State) (a : Nat) (r : Aisle) : (s.setAisle a r).ports = s.ports := rfl
@[simp] theorem State.setAisle_params (s : State) (a : Nat) (r : Aisle) : (s.setAisle a r).params = s.params := rfl
@[simp] theorem State.setAisle_dispatch (s : State) (a : Nat) (r : Aisle) : (s.setAisle a r).dispatch = s.dispatch := rfl
@[simp] theorem State.setAisle_desk (s : State) (a : Nat) (r : Aisle) : (s.setAisle a r).desk = s.desk := rfl
@[simp] theorem State.setAisle_pool (s : State) (a : Nat) (r : Aisle) : (s.setAisle a r).pool = s.pool := rfl
@[simp] theorem State.setAisle_loans (s : State) (a : Nat) (r : Aisle) : (s.setAisle a r).loans = s.loans := rfl
@[simp] theorem State.setAisle_returns (s : State) (a : Nat) (r : Aisle) : (s.setAisle a r).returns = s.returns := rfl
@[simp] theorem State.setAisle_zones (s : State) (a : Nat) (r : Aisle) : (s.setAisle a r).zones = s.zones := rfl
@[simp] theorem State.setAisle_lines (s : State) (a : Nat) (r : Aisle) : (s.setAisle a r).lines = s.lines := rfl
@[simp] theorem State.setAisle_outputs (s : State) (a : Nat) (r : Aisle) : (s.setAisle a r).outputs = s.outputs := rfl
@[simp] theorem State.setAisle_mode (s : State) (a : Nat) (r : Aisle) : (s.setAisle a r).mode = s.mode := rfl
@[simp] theorem State.setAisle_resets (s : State) (a : Nat) (r : Aisle) : (s.setAisle a r).resets = s.resets := rfl
@[simp] theorem State.setAisle_now (s : State) (a : Nat) (r : Aisle) : (s.setAisle a r).now = s.now := rfl
@[simp] theorem State.setAisle_floats (s : State) (a : Nat) (r : Aisle) : (s.setAisle a r).floats = s.floats := rfl
@[simp] theorem State.setAisle_work (s : State) (a : Nat) (r : Aisle) : (s.setAisle a r).work = s.work := rfl
@[simp] theorem State.setAisle_pending (s : State) (a : Nat) (r : Aisle) : (s.setAisle a r).pending = s.pending := rfl
@[simp] theorem State.setAisle_addr (s : State) (a : Nat) (r : Aisle) (x : Nat) : (s.setAisle a r).addr x = s.addr x := rfl
@[simp] theorem State.setAisle_treatDown (s : State) (a : Nat) (r : Aisle) (x : Nat) : (s.setAisle a r).treatDown x = s.treatDown x := rfl
@[simp] theorem State.setAisle_treatUp (s : State) (a : Nat) (r : Aisle) (x : Nat) : (s.setAisle a r).treatUp x = s.treatUp x := rfl
@[simp] theorem State.setAisle_counter (s : State) (a : Nat) (r : Aisle) (x : Nat) : (s.setAisle a r).counter x = s.counter x := rfl
@[simp] theorem State.setAisle_bin (s : State) (a : Nat) (r : Aisle) (x : Nat) : (s.setAisle a r).bin x = s.bin x := rfl
@[simp] theorem State.setAisle_crane (s : State) (a : Nat) (r : Aisle) (x : Nat) : (s.setAisle a r).crane x = s.crane x := rfl
@[simp] theorem State.setAisle_station (s : State) (a : Nat) (r : Aisle) (x : Nat) : (s.setAisle a r).station x = s.station x := rfl
@[simp] theorem State.setAisle_order (s : State) (a : Nat) (r : Aisle) (x : Nat) : (s.setAisle a r).order x = s.order x := rfl
@[simp] theorem State.setAisle_lift (s : State) (a : Nat) (r : Aisle) (x : Nat) : (s.setAisle a r).lift x = s.lift x := rfl
@[simp] theorem State.setAisle_zone (s : State) (a : Nat) (r : Aisle) (x : Nat) : (s.setAisle a r).zone x = s.zone x := rfl
@[simp] theorem State.setAisle_line (s : State) (a : Nat) (r : Aisle) (x : Nat) : (s.setAisle a r).line x = s.line x := rfl
@[simp] theorem State.setAisle_pull (s : State) (a : Nat) (r : Aisle) (x : Nat) : (s.setAisle a r).pull x = s.pull x := rfl
@[simp] theorem State.setAisle_item (s : State) (a : Nat) (r : Aisle) (x : Nat) : (s.setAisle a r).item x = s.item x := rfl
@[simp] theorem State.setAisle_lendClass (s : State) (a : Nat) (r : Aisle) (x : Nat) : (s.setAisle a r).lendClass x = s.lendClass x := rfl

/-! ## putBin -/

@[simp] theorem State.putBin_link (s : State) (b : Nat) (r : Bin) : (s.putBin b r).link = s.link := rfl
@[simp] theorem State.putBin_ports (s : State) (b : Nat) (r : Bin) : (s.putBin b r).ports = s.ports := rfl
@[simp] theorem State.putBin_params (s : State) (b : Nat) (r : Bin) : (s.putBin b r).params = s.params := rfl
@[simp] theorem State.putBin_dispatch (s : State) (b : Nat) (r : Bin) : (s.putBin b r).dispatch = s.dispatch := rfl
@[simp] theorem State.putBin_desk (s : State) (b : Nat) (r : Bin) : (s.putBin b r).desk = s.desk := rfl
@[simp] theorem State.putBin_pool (s : State) (b : Nat) (r : Bin) : (s.putBin b r).pool = s.pool := rfl
@[simp] theorem State.putBin_loans (s : State) (b : Nat) (r : Bin) : (s.putBin b r).loans = s.loans := rfl
@[simp] theorem State.putBin_returns (s : State) (b : Nat) (r : Bin) : (s.putBin b r).returns = s.returns := rfl
@[simp] theorem State.putBin_zones (s : State) (b : Nat) (r : Bin) : (s.putBin b r).zones = s.zones := rfl
@[simp] theorem State.putBin_lines (s : State) (b : Nat) (r : Bin) : (s.putBin b r).lines = s.lines := rfl
@[simp] theorem State.putBin_outputs (s : State) (b : Nat) (r : Bin) : (s.putBin b r).outputs = s.outputs := rfl
@[simp] theorem State.putBin_mode (s : State) (b : Nat) (r : Bin) : (s.putBin b r).mode = s.mode := rfl
@[simp] theorem State.putBin_resets (s : State) (b : Nat) (r : Bin) : (s.putBin b r).resets = s.resets := rfl
@[simp] theorem State.putBin_now (s : State) (b : Nat) (r : Bin) : (s.putBin b r).now = s.now := rfl
@[simp] theorem State.putBin_floats (s : State) (b : Nat) (r : Bin) : (s.putBin b r).floats = s.floats := rfl
@[simp] theorem State.putBin_work (s : State) (b : Nat) (r : Bin) : (s.putBin b r).work = s.work := rfl
@[simp] theorem State.putBin_pending (s : State) (b : Nat) (r : Bin) : (s.putBin b r).pending = s.pending := rfl
@[simp] theorem State.putBin_addr (s : State) (b : Nat) (r : Bin) (x : Nat) : (s.putBin b r).addr x = s.addr x := rfl
@[simp] theorem State.putBin_treatDown (s : State) (b : Nat) (r : Bin) (x : Nat) : (s.putBin b r).treatDown x = s.treatDown x := rfl
@[simp] theorem State.putBin_treatUp (s : State) (b : Nat) (r : Bin) (x : Nat) : (s.putBin b r).treatUp x = s.treatUp x := rfl
@[simp] theorem State.putBin_counter (s : State) (b : Nat) (r : Bin) (x : Nat) : (s.putBin b r).counter x = s.counter x := rfl
@[simp] theorem State.putBin_aisle (s : State) (b : Nat) (r : Bin) (x : Nat) : (s.putBin b r).aisle x = s.aisle x := rfl
@[simp] theorem State.putBin_crane (s : State) (b : Nat) (r : Bin) (x : Nat) : (s.putBin b r).crane x = s.crane x := rfl
@[simp] theorem State.putBin_station (s : State) (b : Nat) (r : Bin) (x : Nat) : (s.putBin b r).station x = s.station x := rfl
@[simp] theorem State.putBin_order (s : State) (b : Nat) (r : Bin) (x : Nat) : (s.putBin b r).order x = s.order x := rfl
@[simp] theorem State.putBin_lift (s : State) (b : Nat) (r : Bin) (x : Nat) : (s.putBin b r).lift x = s.lift x := rfl
@[simp] theorem State.putBin_zone (s : State) (b : Nat) (r : Bin) (x : Nat) : (s.putBin b r).zone x = s.zone x := rfl
@[simp] theorem State.putBin_line (s : State) (b : Nat) (r : Bin) (x : Nat) : (s.putBin b r).line x = s.line x := rfl
@[simp] theorem State.putBin_pull (s : State) (b : Nat) (r : Bin) (x : Nat) : (s.putBin b r).pull x = s.pull x := rfl
@[simp] theorem State.putBin_item (s : State) (b : Nat) (r : Bin) (x : Nat) : (s.putBin b r).item x = s.item x := rfl
@[simp] theorem State.putBin_lendClass (s : State) (b : Nat) (r : Bin) (x : Nat) : (s.putBin b r).lendClass x = s.lendClass x := rfl

/-! ## delBin -/

@[simp] theorem State.delBin_link (s : State) (b : Nat) : (s.delBin b).link = s.link := rfl
@[simp] theorem State.delBin_ports (s : State) (b : Nat) : (s.delBin b).ports = s.ports := rfl
@[simp] theorem State.delBin_params (s : State) (b : Nat) : (s.delBin b).params = s.params := rfl
@[simp] theorem State.delBin_dispatch (s : State) (b : Nat) : (s.delBin b).dispatch = s.dispatch := rfl
@[simp] theorem State.delBin_desk (s : State) (b : Nat) : (s.delBin b).desk = s.desk := rfl
@[simp] theorem State.delBin_pool (s : State) (b : Nat) : (s.delBin b).pool = s.pool := rfl
@[simp] theorem State.delBin_loans (s : State) (b : Nat) : (s.delBin b).loans = s.loans := rfl
@[simp] theorem State.delBin_returns (s : State) (b : Nat) : (s.delBin b).returns = s.returns := rfl
@[simp] theorem State.delBin_zones (s : State) (b : Nat) : (s.delBin b).zones = s.zones := rfl
@[simp] theorem State.delBin_lines (s : State) (b : Nat) : (s.delBin b).lines = s.lines := rfl
@[simp] theorem State.delBin_outputs (s : State) (b : Nat) : (s.delBin b).outputs = s.outputs := rfl
@[simp] theorem State.delBin_mode (s : State) (b : Nat) : (s.delBin b).mode = s.mode := rfl
@[simp] theorem State.delBin_resets (s : State) (b : Nat) : (s.delBin b).resets = s.resets := rfl
@[simp] theorem State.delBin_now (s : State) (b : Nat) : (s.delBin b).now = s.now := rfl
@[simp] theorem State.delBin_floats (s : State) (b : Nat) : (s.delBin b).floats = s.floats := rfl
@[simp] theorem State.delBin_work (s : State) (b : Nat) : (s.delBin b).work = s.work := rfl
@[simp] theorem State.delBin_pending (s : State) (b : Nat) : (s.delBin b).pending = s.pending := rfl
@[simp] theorem State.delBin_addr (s : State) (b : Nat) (x : Nat) : (s.delBin b).addr x = s.addr x := rfl
@[simp] theorem State.delBin_treatDown (s : State) (b : Nat) (x : Nat) : (s.delBin b).treatDown x = s.treatDown x := rfl
@[simp] theorem State.delBin_treatUp (s : State) (b : Nat) (x : Nat) : (s.delBin b).treatUp x = s.treatUp x := rfl
@[simp] theorem State.delBin_counter (s : State) (b : Nat) (x : Nat) : (s.delBin b).counter x = s.counter x := rfl
@[simp] theorem State.delBin_aisle (s : State) (b : Nat) (x : Nat) : (s.delBin b).aisle x = s.aisle x := rfl
@[simp] theorem State.delBin_crane (s : State) (b : Nat) (x : Nat) : (s.delBin b).crane x = s.crane x := rfl
@[simp] theorem State.delBin_station (s : State) (b : Nat) (x : Nat) : (s.delBin b).station x = s.station x := rfl
@[simp] theorem State.delBin_order (s : State) (b : Nat) (x : Nat) : (s.delBin b).order x = s.order x := rfl
@[simp] theorem State.delBin_lift (s : State) (b : Nat) (x : Nat) : (s.delBin b).lift x = s.lift x := rfl
@[simp] theorem State.delBin_zone (s : State) (b : Nat) (x : Nat) : (s.delBin b).zone x = s.zone x := rfl
@[simp] theorem State.delBin_line (s : State) (b : Nat) (x : Nat) : (s.delBin b).line x = s.line x := rfl
@[simp] theorem State.delBin_pull (s : State) (b : Nat) (x : Nat) : (s.delBin b).pull x = s.pull x := rfl
@[simp] theorem State.delBin_item (s : State) (b : Nat) (x : Nat) : (s.delBin b).item x = s.item x := rfl
@[simp] theorem State.delBin_lendClass (s : State) (b : Nat) (x : Nat) : (s.delBin b).lendClass x = s.lendClass x := rfl

/-! ## modBin -/

@[simp] theorem State.modBin_link (s : State) (b : Nat) (f : Bin → Bin) : (s.modBin b f).link = s.link := by unfold State.modBin; split <;> rfl
@[simp] theorem State.modBin_ports (s : State) (b : Nat) (f : Bin → Bin) : (s.modBin b f).ports = s.ports := by unfold State.modBin; split <;> rfl
@[simp] theorem State.modBin_params (s : State) (b : Nat) (f : Bin → Bin) : (s.modBin b f).params = s.params := by unfold State.modBin; split <;> rfl
@[simp] theorem State.modBin_dispatch (s : State) (b : Nat) (f : Bin → Bin) : (s.modBin b f).dispatch = s.dispatch := by unfold State.modBin; split <;> rfl
@[simp] theorem State.modBin_desk (s : State) (b : Nat) (f : Bin → Bin) : (s.modBin b f).desk = s.desk := by unfold State.modBin; split <;> rfl
@[simp] theorem State.modBin_pool (s : State) (b : Nat) (f : Bin → Bin) : (s.modBin b f).pool = s.pool := by unfold State.modBin; split <;> rfl
@[simp] theorem State.modBin_loans (s : State) (b : Nat) (f : Bin → Bin) : (s.modBin b f).loans = s.loans := by unfold State.modBin; split <;> rfl
@[simp] theorem State.modBin_returns (s : State) (b : Nat) (f : Bin → Bin) : (s.modBin b f).returns = s.returns := by unfold State.modBin; split <;> rfl
@[simp] theorem State.modBin_zones (s : State) (b : Nat) (f : Bin → Bin) : (s.modBin b f).zones = s.zones := by unfold State.modBin; split <;> rfl
@[simp] theorem State.modBin_lines (s : State) (b : Nat) (f : Bin → Bin) : (s.modBin b f).lines = s.lines := by unfold State.modBin; split <;> rfl
@[simp] theorem State.modBin_outputs (s : State) (b : Nat) (f : Bin → Bin) : (s.modBin b f).outputs = s.outputs := by unfold State.modBin; split <;> rfl
@[simp] theorem State.modBin_mode (s : State) (b : Nat) (f : Bin → Bin) : (s.modBin b f).mode = s.mode := by unfold State.modBin; split <;> rfl
@[simp] theorem State.modBin_resets (s : State) (b : Nat) (f : Bin → Bin) : (s.modBin b f).resets = s.resets := by unfold State.modBin; split <;> rfl
@[simp] theorem State.modBin_now (s : State) (b : Nat) (f : Bin → Bin) : (s.modBin b f).now = s.now := by unfold State.modBin; split <;> rfl
@[simp] theorem State.modBin_floats (s : State) (b : Nat) (f : Bin → Bin) : (s.modBin b f).floats = s.floats := by unfold State.modBin; split <;> rfl
@[simp] theorem State.modBin_work (s : State) (b : Nat) (f : Bin → Bin) : (s.modBin b f).work = s.work := by unfold State.modBin; split <;> rfl
@[simp] theorem State.modBin_pending (s : State) (b : Nat) (f : Bin → Bin) : (s.modBin b f).pending = s.pending := by unfold State.modBin; split <;> rfl
@[simp] theorem State.modBin_addr (s : State) (b : Nat) (f : Bin → Bin) (x : Nat) : (s.modBin b f).addr x = s.addr x := by unfold State.modBin; split <;> rfl
@[simp] theorem State.modBin_treatDown (s : State) (b : Nat) (f : Bin → Bin) (x : Nat) : (s.modBin b f).treatDown x = s.treatDown x := by unfold State.modBin; split <;> rfl
@[simp] theorem State.modBin_treatUp (s : State) (b : Nat) (f : Bin → Bin) (x : Nat) : (s.modBin b f).treatUp x = s.treatUp x := by unfold State.modBin; split <;> rfl
@[simp] theorem State.modBin_counter (s : State) (b : Nat) (f : Bin → Bin) (x : Nat) : (s.modBin b f).counter x = s.counter x := by unfold State.modBin; split <;> rfl
@[simp] theorem State.modBin_aisle (s : State) (b : Nat) (f : Bin → Bin) (x : Nat) : (s.modBin b f).aisle x = s.aisle x := by unfold State.modBin; split <;> rfl
@[simp] theorem State.modBin_crane (s : State) (b : Nat) (f : Bin → Bin) (x : Nat) : (s.modBin b f).crane x = s.crane x := by unfold State.modBin; split <;> rfl
@[simp] theorem State.modBin_station (s : State) (b : Nat) (f : Bin → Bin) (x : Nat) : (s.modBin b f).station x = s.station x := by unfold State.modBin; split <;> rfl
@[simp] theorem State.modBin_order (s : State) (b : Nat) (f : Bin → Bin) (x : Nat) : (s.modBin b f).order x = s.order x := by unfold State.modBin; split <;> rfl
@[simp] theorem State.modBin_lift (s : State) (b : Nat) (f : Bin → Bin) (x : Nat) : (s.modBin b f).lift x = s.lift x := by unfold State.modBin; split <;> rfl
@[simp] theorem State.modBin_zone (s : State) (b : Nat) (f : Bin → Bin) (x : Nat) : (s.modBin b f).zone x = s.zone x := by unfold State.modBin; split <;> rfl
@[simp] theorem State.modBin_line (s : State) (b : Nat) (f : Bin → Bin) (x : Nat) : (s.modBin b f).line x = s.line x := by unfold State.modBin; split <;> rfl
@[simp] theorem State.modBin_pull (s : State) (b : Nat) (f : Bin → Bin) (x : Nat) : (s.modBin b f).pull x = s.pull x := by unfold State.modBin; split <;> rfl
@[simp] theorem State.modBin_item (s : State) (b : Nat) (f : Bin → Bin) (x : Nat) : (s.modBin b f).item x = s.item x := by unfold State.modBin; split <;> rfl
@[simp] theorem State.modBin_lendClass (s : State) (b : Nat) (f : Bin → Bin) (x : Nat) : (s.modBin b f).lendClass x = s.lendClass x := by unfold State.modBin; split <;> rfl

/-! ## setBinState -/

@[simp] theorem State.setBinState_link (s : State) (b : Nat) (st : BinState) : (s.setBinState b st).link = s.link := by simp [State.setBinState]
@[simp] theorem State.setBinState_ports (s : State) (b : Nat) (st : BinState) : (s.setBinState b st).ports = s.ports := by simp [State.setBinState]
@[simp] theorem State.setBinState_params (s : State) (b : Nat) (st : BinState) : (s.setBinState b st).params = s.params := by simp [State.setBinState]
@[simp] theorem State.setBinState_dispatch (s : State) (b : Nat) (st : BinState) : (s.setBinState b st).dispatch = s.dispatch := by simp [State.setBinState]
@[simp] theorem State.setBinState_desk (s : State) (b : Nat) (st : BinState) : (s.setBinState b st).desk = s.desk := by simp [State.setBinState]
@[simp] theorem State.setBinState_pool (s : State) (b : Nat) (st : BinState) : (s.setBinState b st).pool = s.pool := by simp [State.setBinState]
@[simp] theorem State.setBinState_loans (s : State) (b : Nat) (st : BinState) : (s.setBinState b st).loans = s.loans := by simp [State.setBinState]
@[simp] theorem State.setBinState_returns (s : State) (b : Nat) (st : BinState) : (s.setBinState b st).returns = s.returns := by simp [State.setBinState]
@[simp] theorem State.setBinState_zones (s : State) (b : Nat) (st : BinState) : (s.setBinState b st).zones = s.zones := by simp [State.setBinState]
@[simp] theorem State.setBinState_lines (s : State) (b : Nat) (st : BinState) : (s.setBinState b st).lines = s.lines := by simp [State.setBinState]
@[simp] theorem State.setBinState_outputs (s : State) (b : Nat) (st : BinState) : (s.setBinState b st).outputs = s.outputs := by simp [State.setBinState]
@[simp] theorem State.setBinState_mode (s : State) (b : Nat) (st : BinState) : (s.setBinState b st).mode = s.mode := by simp [State.setBinState]
@[simp] theorem State.setBinState_resets (s : State) (b : Nat) (st : BinState) : (s.setBinState b st).resets = s.resets := by simp [State.setBinState]
@[simp] theorem State.setBinState_now (s : State) (b : Nat) (st : BinState) : (s.setBinState b st).now = s.now := by simp [State.setBinState]
@[simp] theorem State.setBinState_floats (s : State) (b : Nat) (st : BinState) : (s.setBinState b st).floats = s.floats := by simp [State.setBinState]
@[simp] theorem State.setBinState_work (s : State) (b : Nat) (st : BinState) : (s.setBinState b st).work = s.work := by simp [State.setBinState]
@[simp] theorem State.setBinState_pending (s : State) (b : Nat) (st : BinState) : (s.setBinState b st).pending = s.pending := by simp [State.setBinState]
@[simp] theorem State.setBinState_addr (s : State) (b : Nat) (st : BinState) (x : Nat) : (s.setBinState b st).addr x = s.addr x := by simp [State.setBinState]
@[simp] theorem State.setBinState_treatDown (s : State) (b : Nat) (st : BinState) (x : Nat) : (s.setBinState b st).treatDown x = s.treatDown x := by simp [State.setBinState]
@[simp] theorem State.setBinState_treatUp (s : State) (b : Nat) (st : BinState) (x : Nat) : (s.setBinState b st).treatUp x = s.treatUp x := by simp [State.setBinState]
@[simp] theorem State.setBinState_counter (s : State) (b : Nat) (st : BinState) (x : Nat) : (s.setBinState b st).counter x = s.counter x := by simp [State.setBinState]
@[simp] theorem State.setBinState_aisle (s : State) (b : Nat) (st : BinState) (x : Nat) : (s.setBinState b st).aisle x = s.aisle x := by simp [State.setBinState]
@[simp] theorem State.setBinState_crane (s : State) (b : Nat) (st : BinState) (x : Nat) : (s.setBinState b st).crane x = s.crane x := by simp [State.setBinState]
@[simp] theorem State.setBinState_station (s : State) (b : Nat) (st : BinState) (x : Nat) : (s.setBinState b st).station x = s.station x := by simp [State.setBinState]
@[simp] theorem State.setBinState_order (s : State) (b : Nat) (st : BinState) (x : Nat) : (s.setBinState b st).order x = s.order x := by simp [State.setBinState]
@[simp] theorem State.setBinState_lift (s : State) (b : Nat) (st : BinState) (x : Nat) : (s.setBinState b st).lift x = s.lift x := by simp [State.setBinState]
@[simp] theorem State.setBinState_zone (s : State) (b : Nat) (st : BinState) (x : Nat) : (s.setBinState b st).zone x = s.zone x := by simp [State.setBinState]
@[simp] theorem State.setBinState_line (s : State) (b : Nat) (st : BinState) (x : Nat) : (s.setBinState b st).line x = s.line x := by simp [State.setBinState]
@[simp] theorem State.setBinState_pull (s : State) (b : Nat) (st : BinState) (x : Nat) : (s.setBinState b st).pull x = s.pull x := by simp [State.setBinState]
@[simp] theorem State.setBinState_item (s : State) (b : Nat) (st : BinState) (x : Nat) : (s.setBinState b st).item x = s.item x := by simp [State.setBinState]
@[simp] theorem State.setBinState_lendClass (s : State) (b : Nat) (st : BinState) (x : Nat) : (s.setBinState b st).lendClass x = s.lendClass x := by simp [State.setBinState]

/-! ## modCrane -/

@[simp] theorem State.modCrane_link (s : State) (a : Nat) (f : Crane → Crane) : (s.modCrane a f).link = s.link := rfl
@[simp] theorem State.modCrane_ports (s : State) (a : Nat) (f : Crane → Crane) : (s.modCrane a f).ports = s.ports := rfl
@[simp] theorem State.modCrane_params (s : State) (a : Nat) (f : Crane → Crane) : (s.modCrane a f).params = s.params := rfl
@[simp] theorem State.modCrane_store (s : State) (a : Nat) (f : Crane → Crane) : (s.modCrane a f).store = s.store := rfl
@[simp] theorem State.modCrane_desk (s : State) (a : Nat) (f : Crane → Crane) : (s.modCrane a f).desk = s.desk := rfl
@[simp] theorem State.modCrane_pool (s : State) (a : Nat) (f : Crane → Crane) : (s.modCrane a f).pool = s.pool := rfl
@[simp] theorem State.modCrane_loans (s : State) (a : Nat) (f : Crane → Crane) : (s.modCrane a f).loans = s.loans := rfl
@[simp] theorem State.modCrane_returns (s : State) (a : Nat) (f : Crane → Crane) : (s.modCrane a f).returns = s.returns := rfl
@[simp] theorem State.modCrane_zones (s : State) (a : Nat) (f : Crane → Crane) : (s.modCrane a f).zones = s.zones := rfl
@[simp] theorem State.modCrane_lines (s : State) (a : Nat) (f : Crane → Crane) : (s.modCrane a f).lines = s.lines := rfl
@[simp] theorem State.modCrane_outputs (s : State) (a : Nat) (f : Crane → Crane) : (s.modCrane a f).outputs = s.outputs := rfl
@[simp] theorem State.modCrane_mode (s : State) (a : Nat) (f : Crane → Crane) : (s.modCrane a f).mode = s.mode := rfl
@[simp] theorem State.modCrane_resets (s : State) (a : Nat) (f : Crane → Crane) : (s.modCrane a f).resets = s.resets := rfl
@[simp] theorem State.modCrane_now (s : State) (a : Nat) (f : Crane → Crane) : (s.modCrane a f).now = s.now := rfl
@[simp] theorem State.modCrane_floats (s : State) (a : Nat) (f : Crane → Crane) : (s.modCrane a f).floats = s.floats := rfl
@[simp] theorem State.modCrane_work (s : State) (a : Nat) (f : Crane → Crane) : (s.modCrane a f).work = s.work := rfl
@[simp] theorem State.modCrane_pending (s : State) (a : Nat) (f : Crane → Crane) : (s.modCrane a f).pending = s.pending := rfl
@[simp] theorem State.modCrane_addr (s : State) (a : Nat) (f : Crane → Crane) (x : Nat) : (s.modCrane a f).addr x = s.addr x := rfl
@[simp] theorem State.modCrane_treatDown (s : State) (a : Nat) (f : Crane → Crane) (x : Nat) : (s.modCrane a f).treatDown x = s.treatDown x := rfl
@[simp] theorem State.modCrane_treatUp (s : State) (a : Nat) (f : Crane → Crane) (x : Nat) : (s.modCrane a f).treatUp x = s.treatUp x := rfl
@[simp] theorem State.modCrane_counter (s : State) (a : Nat) (f : Crane → Crane) (x : Nat) : (s.modCrane a f).counter x = s.counter x := rfl
@[simp] theorem State.modCrane_aisle (s : State) (a : Nat) (f : Crane → Crane) (x : Nat) : (s.modCrane a f).aisle x = s.aisle x := rfl
@[simp] theorem State.modCrane_bin (s : State) (a : Nat) (f : Crane → Crane) (x : Nat) : (s.modCrane a f).bin x = s.bin x := rfl
@[simp] theorem State.modCrane_station (s : State) (a : Nat) (f : Crane → Crane) (x : Nat) : (s.modCrane a f).station x = s.station x := rfl
@[simp] theorem State.modCrane_order (s : State) (a : Nat) (f : Crane → Crane) (x : Nat) : (s.modCrane a f).order x = s.order x := rfl
@[simp] theorem State.modCrane_lift (s : State) (a : Nat) (f : Crane → Crane) (x : Nat) : (s.modCrane a f).lift x = s.lift x := rfl
@[simp] theorem State.modCrane_zone (s : State) (a : Nat) (f : Crane → Crane) (x : Nat) : (s.modCrane a f).zone x = s.zone x := rfl
@[simp] theorem State.modCrane_line (s : State) (a : Nat) (f : Crane → Crane) (x : Nat) : (s.modCrane a f).line x = s.line x := rfl
@[simp] theorem State.modCrane_pull (s : State) (a : Nat) (f : Crane → Crane) (x : Nat) : (s.modCrane a f).pull x = s.pull x := rfl
@[simp] theorem State.modCrane_item (s : State) (a : Nat) (f : Crane → Crane) (x : Nat) : (s.modCrane a f).item x = s.item x := rfl
@[simp] theorem State.modCrane_lendClass (s : State) (a : Nat) (f : Crane → Crane) (x : Nat) : (s.modCrane a f).lendClass x = s.lendClass x := rfl

/-! ## modStation -/

@[simp] theorem State.modStation_link (s : State) (st : Nat) (f : Station → Station) : (s.modStation st f).link = s.link := rfl
@[simp] theorem State.modStation_ports (s : State) (st : Nat) (f : Station → Station) : (s.modStation st f).ports = s.ports := rfl
@[simp] theorem State.modStation_params (s : State) (st : Nat) (f : Station → Station) : (s.modStation st f).params = s.params := rfl
@[simp] theorem State.modStation_store (s : State) (st : Nat) (f : Station → Station) : (s.modStation st f).store = s.store := rfl
@[simp] theorem State.modStation_dispatch (s : State) (st : Nat) (f : Station → Station) : (s.modStation st f).dispatch = s.dispatch := rfl
@[simp] theorem State.modStation_pool (s : State) (st : Nat) (f : Station → Station) : (s.modStation st f).pool = s.pool := rfl
@[simp] theorem State.modStation_loans (s : State) (st : Nat) (f : Station → Station) : (s.modStation st f).loans = s.loans := rfl
@[simp] theorem State.modStation_returns (s : State) (st : Nat) (f : Station → Station) : (s.modStation st f).returns = s.returns := rfl
@[simp] theorem State.modStation_zones (s : State) (st : Nat) (f : Station → Station) : (s.modStation st f).zones = s.zones := rfl
@[simp] theorem State.modStation_lines (s : State) (st : Nat) (f : Station → Station) : (s.modStation st f).lines = s.lines := rfl
@[simp] theorem State.modStation_outputs (s : State) (st : Nat) (f : Station → Station) : (s.modStation st f).outputs = s.outputs := rfl
@[simp] theorem State.modStation_mode (s : State) (st : Nat) (f : Station → Station) : (s.modStation st f).mode = s.mode := rfl
@[simp] theorem State.modStation_resets (s : State) (st : Nat) (f : Station → Station) : (s.modStation st f).resets = s.resets := rfl
@[simp] theorem State.modStation_now (s : State) (st : Nat) (f : Station → Station) : (s.modStation st f).now = s.now := rfl
@[simp] theorem State.modStation_floats (s : State) (st : Nat) (f : Station → Station) : (s.modStation st f).floats = s.floats := rfl
@[simp] theorem State.modStation_work (s : State) (st : Nat) (f : Station → Station) : (s.modStation st f).work = s.work := rfl
@[simp] theorem State.modStation_pending (s : State) (st : Nat) (f : Station → Station) : (s.modStation st f).pending = s.pending := rfl
@[simp] theorem State.modStation_addr (s : State) (st : Nat) (f : Station → Station) (x : Nat) : (s.modStation st f).addr x = s.addr x := rfl
@[simp] theorem State.modStation_treatDown (s : State) (st : Nat) (f : Station → Station) (x : Nat) : (s.modStation st f).treatDown x = s.treatDown x := rfl
@[simp] theorem State.modStation_treatUp (s : State) (st : Nat) (f : Station → Station) (x : Nat) : (s.modStation st f).treatUp x = s.treatUp x := rfl
@[simp] theorem State.modStation_counter (s : State) (st : Nat) (f : Station → Station) (x : Nat) : (s.modStation st f).counter x = s.counter x := rfl
@[simp] theorem State.modStation_aisle (s : State) (st : Nat) (f : Station → Station) (x : Nat) : (s.modStation st f).aisle x = s.aisle x := rfl
@[simp] theorem State.modStation_bin (s : State) (st : Nat) (f : Station → Station) (x : Nat) : (s.modStation st f).bin x = s.bin x := rfl
@[simp] theorem State.modStation_crane (s : State) (st : Nat) (f : Station → Station) (x : Nat) : (s.modStation st f).crane x = s.crane x := rfl
@[simp] theorem State.modStation_order (s : State) (st : Nat) (f : Station → Station) (x : Nat) : (s.modStation st f).order x = s.order x := rfl
@[simp] theorem State.modStation_lift (s : State) (st : Nat) (f : Station → Station) (x : Nat) : (s.modStation st f).lift x = s.lift x := rfl
@[simp] theorem State.modStation_zone (s : State) (st : Nat) (f : Station → Station) (x : Nat) : (s.modStation st f).zone x = s.zone x := rfl
@[simp] theorem State.modStation_line (s : State) (st : Nat) (f : Station → Station) (x : Nat) : (s.modStation st f).line x = s.line x := rfl
@[simp] theorem State.modStation_pull (s : State) (st : Nat) (f : Station → Station) (x : Nat) : (s.modStation st f).pull x = s.pull x := rfl
@[simp] theorem State.modStation_item (s : State) (st : Nat) (f : Station → Station) (x : Nat) : (s.modStation st f).item x = s.item x := rfl
@[simp] theorem State.modStation_lendClass (s : State) (st : Nat) (f : Station → Station) (x : Nat) : (s.modStation st f).lendClass x = s.lendClass x := rfl

/-! ## modLift -/

@[simp] theorem State.modLift_link (s : State) (l : Nat) (f : Lift → Lift) : (s.modLift l f).link = s.link := rfl
@[simp] theorem State.modLift_ports (s : State) (l : Nat) (f : Lift → Lift) : (s.modLift l f).ports = s.ports := rfl
@[simp] theorem State.modLift_params (s : State) (l : Nat) (f : Lift → Lift) : (s.modLift l f).params = s.params := rfl
@[simp] theorem State.modLift_store (s : State) (l : Nat) (f : Lift → Lift) : (s.modLift l f).store = s.store := rfl
@[simp] theorem State.modLift_dispatch (s : State) (l : Nat) (f : Lift → Lift) : (s.modLift l f).dispatch = s.dispatch := rfl
@[simp] theorem State.modLift_desk (s : State) (l : Nat) (f : Lift → Lift) : (s.modLift l f).desk = s.desk := rfl
@[simp] theorem State.modLift_loans (s : State) (l : Nat) (f : Lift → Lift) : (s.modLift l f).loans = s.loans := rfl
@[simp] theorem State.modLift_returns (s : State) (l : Nat) (f : Lift → Lift) : (s.modLift l f).returns = s.returns := rfl
@[simp] theorem State.modLift_zones (s : State) (l : Nat) (f : Lift → Lift) : (s.modLift l f).zones = s.zones := rfl
@[simp] theorem State.modLift_lines (s : State) (l : Nat) (f : Lift → Lift) : (s.modLift l f).lines = s.lines := rfl
@[simp] theorem State.modLift_outputs (s : State) (l : Nat) (f : Lift → Lift) : (s.modLift l f).outputs = s.outputs := rfl
@[simp] theorem State.modLift_mode (s : State) (l : Nat) (f : Lift → Lift) : (s.modLift l f).mode = s.mode := rfl
@[simp] theorem State.modLift_resets (s : State) (l : Nat) (f : Lift → Lift) : (s.modLift l f).resets = s.resets := rfl
@[simp] theorem State.modLift_now (s : State) (l : Nat) (f : Lift → Lift) : (s.modLift l f).now = s.now := rfl
@[simp] theorem State.modLift_floats (s : State) (l : Nat) (f : Lift → Lift) : (s.modLift l f).floats = s.floats := rfl
@[simp] theorem State.modLift_work (s : State) (l : Nat) (f : Lift → Lift) : (s.modLift l f).work = s.work := rfl
@[simp] theorem State.modLift_pending (s : State) (l : Nat) (f : Lift → Lift) : (s.modLift l f).pending = s.pending := rfl
@[simp] theorem State.modLift_addr (s : State) (l : Nat) (f : Lift → Lift) (x : Nat) : (s.modLift l f).addr x = s.addr x := rfl
@[simp] theorem State.modLift_treatDown (s : State) (l : Nat) (f : Lift → Lift) (x : Nat) : (s.modLift l f).treatDown x = s.treatDown x := rfl
@[simp] theorem State.modLift_treatUp (s : State) (l : Nat) (f : Lift → Lift) (x : Nat) : (s.modLift l f).treatUp x = s.treatUp x := rfl
@[simp] theorem State.modLift_counter (s : State) (l : Nat) (f : Lift → Lift) (x : Nat) : (s.modLift l f).counter x = s.counter x := rfl
@[simp] theorem State.modLift_aisle (s : State) (l : Nat) (f : Lift → Lift) (x : Nat) : (s.modLift l f).aisle x = s.aisle x := rfl
@[simp] theorem State.modLift_bin (s : State) (l : Nat) (f : Lift → Lift) (x : Nat) : (s.modLift l f).bin x = s.bin x := rfl
@[simp] theorem State.modLift_crane (s : State) (l : Nat) (f : Lift → Lift) (x : Nat) : (s.modLift l f).crane x = s.crane x := rfl
@[simp] theorem State.modLift_station (s : State) (l : Nat) (f : Lift → Lift) (x : Nat) : (s.modLift l f).station x = s.station x := rfl
@[simp] theorem State.modLift_order (s : State) (l : Nat) (f : Lift → Lift) (x : Nat) : (s.modLift l f).order x = s.order x := rfl
@[simp] theorem State.modLift_zone (s : State) (l : Nat) (f : Lift → Lift) (x : Nat) : (s.modLift l f).zone x = s.zone x := rfl
@[simp] theorem State.modLift_line (s : State) (l : Nat) (f : Lift → Lift) (x : Nat) : (s.modLift l f).line x = s.line x := rfl
@[simp] theorem State.modLift_pull (s : State) (l : Nat) (f : Lift → Lift) (x : Nat) : (s.modLift l f).pull x = s.pull x := rfl
@[simp] theorem State.modLift_item (s : State) (l : Nat) (f : Lift → Lift) (x : Nat) : (s.modLift l f).item x = s.item x := rfl
@[simp] theorem State.modLift_lendClass (s : State) (l : Nat) (f : Lift → Lift) (x : Nat) : (s.modLift l f).lendClass x = s.lendClass x := rfl

/-! ## modZone -/

@[simp] theorem State.modZone_link (s : State) (z : Nat) (f : Zone → Zone) : (s.modZone z f).link = s.link := rfl
@[simp] theorem State.modZone_ports (s : State) (z : Nat) (f : Zone → Zone) : (s.modZone z f).ports = s.ports := rfl
@[simp] theorem State.modZone_params (s : State) (z : Nat) (f : Zone → Zone) : (s.modZone z f).params = s.params := rfl
@[simp] theorem State.modZone_store (s : State) (z : Nat) (f : Zone → Zone) : (s.modZone z f).store = s.store := rfl
@[simp] theorem State.modZone_dispatch (s : State) (z : Nat) (f : Zone → Zone) : (s.modZone z f).dispatch = s.dispatch := rfl
@[simp] theorem State.modZone_desk (s : State) (z : Nat) (f : Zone → Zone) : (s.modZone z f).desk = s.desk := rfl
@[simp] theorem State.modZone_pool (s : State) (z : Nat) (f : Zone → Zone) : (s.modZone z f).pool = s.pool := rfl
@[simp] theorem State.modZone_loans (s : State) (z : Nat) (f : Zone → Zone) : (s.modZone z f).loans = s.loans := rfl
@[simp] theorem State.modZone_returns (s : State) (z : Nat) (f : Zone → Zone) : (s.modZone z f).returns = s.returns := rfl
@[simp] theorem State.modZone_lines (s : State) (z : Nat) (f : Zone → Zone) : (s.modZone z f).lines = s.lines := rfl
@[simp] theorem State.modZone_outputs (s : State) (z : Nat) (f : Zone → Zone) : (s.modZone z f).outputs = s.outputs := rfl
@[simp] theorem State.modZone_mode (s : State) (z : Nat) (f : Zone → Zone) : (s.modZone z f).mode = s.mode := rfl
@[simp] theorem State.modZone_resets (s : State) (z : Nat) (f : Zone → Zone) : (s.modZone z f).resets = s.resets := rfl
@[simp] theorem State.modZone_now (s : State) (z : Nat) (f : Zone → Zone) : (s.modZone z f).now = s.now := rfl
@[simp] theorem State.modZone_floats (s : State) (z : Nat) (f : Zone → Zone) : (s.modZone z f).floats = s.floats := rfl
@[simp] theorem State.modZone_work (s : State) (z : Nat) (f : Zone → Zone) : (s.modZone z f).work = s.work := rfl
@[simp] theorem State.modZone_pending (s : State) (z : Nat) (f : Zone → Zone) : (s.modZone z f).pending = s.pending := rfl
@[simp] theorem State.modZone_addr (s : State) (z : Nat) (f : Zone → Zone) (x : Nat) : (s.modZone z f).addr x = s.addr x := rfl
@[simp] theorem State.modZone_treatDown (s : State) (z : Nat) (f : Zone → Zone) (x : Nat) : (s.modZone z f).treatDown x = s.treatDown x := rfl
@[simp] theorem State.modZone_treatUp (s : State) (z : Nat) (f : Zone → Zone) (x : Nat) : (s.modZone z f).treatUp x = s.treatUp x := rfl
@[simp] theorem State.modZone_counter (s : State) (z : Nat) (f : Zone → Zone) (x : Nat) : (s.modZone z f).counter x = s.counter x := rfl
@[simp] theorem State.modZone_aisle (s : State) (z : Nat) (f : Zone → Zone) (x : Nat) : (s.modZone z f).aisle x = s.aisle x := rfl
@[simp] theorem State.modZone_bin (s : State) (z : Nat) (f : Zone → Zone) (x : Nat) : (s.modZone z f).bin x = s.bin x := rfl
@[simp] theorem State.modZone_crane (s : State) (z : Nat) (f : Zone → Zone) (x : Nat) : (s.modZone z f).crane x = s.crane x := rfl
@[simp] theorem State.modZone_station (s : State) (z : Nat) (f : Zone → Zone) (x : Nat) : (s.modZone z f).station x = s.station x := rfl
@[simp] theorem State.modZone_order (s : State) (z : Nat) (f : Zone → Zone) (x : Nat) : (s.modZone z f).order x = s.order x := rfl
@[simp] theorem State.modZone_lift (s : State) (z : Nat) (f : Zone → Zone) (x : Nat) : (s.modZone z f).lift x = s.lift x := rfl
@[simp] theorem State.modZone_line (s : State) (z : Nat) (f : Zone → Zone) (x : Nat) : (s.modZone z f).line x = s.line x := rfl
@[simp] theorem State.modZone_pull (s : State) (z : Nat) (f : Zone → Zone) (x : Nat) : (s.modZone z f).pull x = s.pull x := rfl
@[simp] theorem State.modZone_item (s : State) (z : Nat) (f : Zone → Zone) (x : Nat) : (s.modZone z f).item x = s.item x := rfl
@[simp] theorem State.modZone_lendClass (s : State) (z : Nat) (f : Zone → Zone) (x : Nat) : (s.modZone z f).lendClass x = s.lendClass x := rfl

/-! ## modLine -/

@[simp] theorem State.modLine_link (s : State) (n : Nat) (f : Line → Line) : (s.modLine n f).link = s.link := rfl
@[simp] theorem State.modLine_ports (s : State) (n : Nat) (f : Line → Line) : (s.modLine n f).ports = s.ports := rfl
@[simp] theorem State.modLine_params (s : State) (n : Nat) (f : Line → Line) : (s.modLine n f).params = s.params := rfl
@[simp] theorem State.modLine_store (s : State) (n : Nat) (f : Line → Line) : (s.modLine n f).store = s.store := rfl
@[simp] theorem State.modLine_dispatch (s : State) (n : Nat) (f : Line → Line) : (s.modLine n f).dispatch = s.dispatch := rfl
@[simp] theorem State.modLine_desk (s : State) (n : Nat) (f : Line → Line) : (s.modLine n f).desk = s.desk := rfl
@[simp] theorem State.modLine_pool (s : State) (n : Nat) (f : Line → Line) : (s.modLine n f).pool = s.pool := rfl
@[simp] theorem State.modLine_loans (s : State) (n : Nat) (f : Line → Line) : (s.modLine n f).loans = s.loans := rfl
@[simp] theorem State.modLine_returns (s : State) (n : Nat) (f : Line → Line) : (s.modLine n f).returns = s.returns := rfl
@[simp] theorem State.modLine_zones (s : State) (n : Nat) (f : Line → Line) : (s.modLine n f).zones = s.zones := rfl
@[simp] theorem State.modLine_outputs (s : State) (n : Nat) (f : Line → Line) : (s.modLine n f).outputs = s.outputs := rfl
@[simp] theorem State.modLine_mode (s : State) (n : Nat) (f : Line → Line) : (s.modLine n f).mode = s.mode := rfl
@[simp] theorem State.modLine_resets (s : State) (n : Nat) (f : Line → Line) : (s.modLine n f).resets = s.resets := rfl
@[simp] theorem State.modLine_now (s : State) (n : Nat) (f : Line → Line) : (s.modLine n f).now = s.now := rfl
@[simp] theorem State.modLine_floats (s : State) (n : Nat) (f : Line → Line) : (s.modLine n f).floats = s.floats := rfl
@[simp] theorem State.modLine_work (s : State) (n : Nat) (f : Line → Line) : (s.modLine n f).work = s.work := rfl
@[simp] theorem State.modLine_pending (s : State) (n : Nat) (f : Line → Line) : (s.modLine n f).pending = s.pending := rfl
@[simp] theorem State.modLine_addr (s : State) (n : Nat) (f : Line → Line) (x : Nat) : (s.modLine n f).addr x = s.addr x := rfl
@[simp] theorem State.modLine_treatDown (s : State) (n : Nat) (f : Line → Line) (x : Nat) : (s.modLine n f).treatDown x = s.treatDown x := rfl
@[simp] theorem State.modLine_treatUp (s : State) (n : Nat) (f : Line → Line) (x : Nat) : (s.modLine n f).treatUp x = s.treatUp x := rfl
@[simp] theorem State.modLine_counter (s : State) (n : Nat) (f : Line → Line) (x : Nat) : (s.modLine n f).counter x = s.counter x := rfl
@[simp] theorem State.modLine_aisle (s : State) (n : Nat) (f : Line → Line) (x : Nat) : (s.modLine n f).aisle x = s.aisle x := rfl
@[simp] theorem State.modLine_bin (s : State) (n : Nat) (f : Line → Line) (x : Nat) : (s.modLine n f).bin x = s.bin x := rfl
@[simp] theorem State.modLine_crane (s : State) (n : Nat) (f : Line → Line) (x : Nat) : (s.modLine n f).crane x = s.crane x := rfl
@[simp] theorem State.modLine_station (s : State) (n : Nat) (f : Line → Line) (x : Nat) : (s.modLine n f).station x = s.station x := rfl
@[simp] theorem State.modLine_order (s : State) (n : Nat) (f : Line → Line) (x : Nat) : (s.modLine n f).order x = s.order x := rfl
@[simp] theorem State.modLine_lift (s : State) (n : Nat) (f : Line → Line) (x : Nat) : (s.modLine n f).lift x = s.lift x := rfl
@[simp] theorem State.modLine_zone (s : State) (n : Nat) (f : Line → Line) (x : Nat) : (s.modLine n f).zone x = s.zone x := rfl
@[simp] theorem State.modLine_pull (s : State) (n : Nat) (f : Line → Line) (x : Nat) : (s.modLine n f).pull x = s.pull x := rfl
@[simp] theorem State.modLine_item (s : State) (n : Nat) (f : Line → Line) (x : Nat) : (s.modLine n f).item x = s.item x := rfl
@[simp] theorem State.modLine_lendClass (s : State) (n : Nat) (f : Line → Line) (x : Nat) : (s.modLine n f).lendClass x = s.lendClass x := rfl

/-! ## setPull -/

@[simp] theorem State.setPull_link (s : State) (g : Nat) (p : Pull) : (s.setPull g p).link = s.link := rfl
@[simp] theorem State.setPull_ports (s : State) (g : Nat) (p : Pull) : (s.setPull g p).ports = s.ports := rfl
@[simp] theorem State.setPull_params (s : State) (g : Nat) (p : Pull) : (s.setPull g p).params = s.params := rfl
@[simp] theorem State.setPull_store (s : State) (g : Nat) (p : Pull) : (s.setPull g p).store = s.store := rfl
@[simp] theorem State.setPull_dispatch (s : State) (g : Nat) (p : Pull) : (s.setPull g p).dispatch = s.dispatch := rfl
@[simp] theorem State.setPull_desk (s : State) (g : Nat) (p : Pull) : (s.setPull g p).desk = s.desk := rfl
@[simp] theorem State.setPull_pool (s : State) (g : Nat) (p : Pull) : (s.setPull g p).pool = s.pool := rfl
@[simp] theorem State.setPull_loans (s : State) (g : Nat) (p : Pull) : (s.setPull g p).loans = s.loans := rfl
@[simp] theorem State.setPull_returns (s : State) (g : Nat) (p : Pull) : (s.setPull g p).returns = s.returns := rfl
@[simp] theorem State.setPull_zones (s : State) (g : Nat) (p : Pull) : (s.setPull g p).zones = s.zones := rfl
@[simp] theorem State.setPull_outputs (s : State) (g : Nat) (p : Pull) : (s.setPull g p).outputs = s.outputs := rfl
@[simp] theorem State.setPull_mode (s : State) (g : Nat) (p : Pull) : (s.setPull g p).mode = s.mode := rfl
@[simp] theorem State.setPull_resets (s : State) (g : Nat) (p : Pull) : (s.setPull g p).resets = s.resets := rfl
@[simp] theorem State.setPull_now (s : State) (g : Nat) (p : Pull) : (s.setPull g p).now = s.now := rfl
@[simp] theorem State.setPull_floats (s : State) (g : Nat) (p : Pull) : (s.setPull g p).floats = s.floats := rfl
@[simp] theorem State.setPull_work (s : State) (g : Nat) (p : Pull) : (s.setPull g p).work = s.work := rfl
@[simp] theorem State.setPull_pending (s : State) (g : Nat) (p : Pull) : (s.setPull g p).pending = s.pending := rfl
@[simp] theorem State.setPull_addr (s : State) (g : Nat) (p : Pull) (x : Nat) : (s.setPull g p).addr x = s.addr x := rfl
@[simp] theorem State.setPull_treatDown (s : State) (g : Nat) (p : Pull) (x : Nat) : (s.setPull g p).treatDown x = s.treatDown x := rfl
@[simp] theorem State.setPull_treatUp (s : State) (g : Nat) (p : Pull) (x : Nat) : (s.setPull g p).treatUp x = s.treatUp x := rfl
@[simp] theorem State.setPull_counter (s : State) (g : Nat) (p : Pull) (x : Nat) : (s.setPull g p).counter x = s.counter x := rfl
@[simp] theorem State.setPull_aisle (s : State) (g : Nat) (p : Pull) (x : Nat) : (s.setPull g p).aisle x = s.aisle x := rfl
@[simp] theorem State.setPull_bin (s : State) (g : Nat) (p : Pull) (x : Nat) : (s.setPull g p).bin x = s.bin x := rfl
@[simp] theorem State.setPull_crane (s : State) (g : Nat) (p : Pull) (x : Nat) : (s.setPull g p).crane x = s.crane x := rfl
@[simp] theorem State.setPull_station (s : State) (g : Nat) (p : Pull) (x : Nat) : (s.setPull g p).station x = s.station x := rfl
@[simp] theorem State.setPull_order (s : State) (g : Nat) (p : Pull) (x : Nat) : (s.setPull g p).order x = s.order x := rfl
@[simp] theorem State.setPull_lift (s : State) (g : Nat) (p : Pull) (x : Nat) : (s.setPull g p).lift x = s.lift x := rfl
@[simp] theorem State.setPull_zone (s : State) (g : Nat) (p : Pull) (x : Nat) : (s.setPull g p).zone x = s.zone x := rfl
@[simp] theorem State.setPull_line (s : State) (g : Nat) (p : Pull) (x : Nat) : (s.setPull g p).line x = s.line x := rfl
@[simp] theorem State.setPull_item (s : State) (g : Nat) (p : Pull) (x : Nat) : (s.setPull g p).item x = s.item x := rfl
@[simp] theorem State.setPull_lendClass (s : State) (g : Nat) (p : Pull) (x : Nat) : (s.setPull g p).lendClass x = s.lendClass x := rfl

/-! ## setLendClass -/

@[simp] theorem State.setLendClass_link (s : State) (c : Nat) (r : ClassRecord) : (s.setLendClass c r).link = s.link := rfl
@[simp] theorem State.setLendClass_ports (s : State) (c : Nat) (r : ClassRecord) : (s.setLendClass c r).ports = s.ports := rfl
@[simp] theorem State.setLendClass_params (s : State) (c : Nat) (r : ClassRecord) : (s.setLendClass c r).params = s.params := rfl
@[simp] theorem State.setLendClass_store (s : State) (c : Nat) (r : ClassRecord) : (s.setLendClass c r).store = s.store := rfl
@[simp] theorem State.setLendClass_dispatch (s : State) (c : Nat) (r : ClassRecord) : (s.setLendClass c r).dispatch = s.dispatch := rfl
@[simp] theorem State.setLendClass_desk (s : State) (c : Nat) (r : ClassRecord) : (s.setLendClass c r).desk = s.desk := rfl
@[simp] theorem State.setLendClass_pool (s : State) (c : Nat) (r : ClassRecord) : (s.setLendClass c r).pool = s.pool := rfl
@[simp] theorem State.setLendClass_returns (s : State) (c : Nat) (r : ClassRecord) : (s.setLendClass c r).returns = s.returns := rfl
@[simp] theorem State.setLendClass_zones (s : State) (c : Nat) (r : ClassRecord) : (s.setLendClass c r).zones = s.zones := rfl
@[simp] theorem State.setLendClass_lines (s : State) (c : Nat) (r : ClassRecord) : (s.setLendClass c r).lines = s.lines := rfl
@[simp] theorem State.setLendClass_outputs (s : State) (c : Nat) (r : ClassRecord) : (s.setLendClass c r).outputs = s.outputs := rfl
@[simp] theorem State.setLendClass_mode (s : State) (c : Nat) (r : ClassRecord) : (s.setLendClass c r).mode = s.mode := rfl
@[simp] theorem State.setLendClass_resets (s : State) (c : Nat) (r : ClassRecord) : (s.setLendClass c r).resets = s.resets := rfl
@[simp] theorem State.setLendClass_now (s : State) (c : Nat) (r : ClassRecord) : (s.setLendClass c r).now = s.now := rfl
@[simp] theorem State.setLendClass_floats (s : State) (c : Nat) (r : ClassRecord) : (s.setLendClass c r).floats = s.floats := rfl
@[simp] theorem State.setLendClass_work (s : State) (c : Nat) (r : ClassRecord) : (s.setLendClass c r).work = s.work := rfl
@[simp] theorem State.setLendClass_pending (s : State) (c : Nat) (r : ClassRecord) : (s.setLendClass c r).pending = s.pending := rfl
@[simp] theorem State.setLendClass_addr (s : State) (c : Nat) (r : ClassRecord) (x : Nat) : (s.setLendClass c r).addr x = s.addr x := rfl
@[simp] theorem State.setLendClass_treatDown (s : State) (c : Nat) (r : ClassRecord) (x : Nat) : (s.setLendClass c r).treatDown x = s.treatDown x := rfl
@[simp] theorem State.setLendClass_treatUp (s : State) (c : Nat) (r : ClassRecord) (x : Nat) : (s.setLendClass c r).treatUp x = s.treatUp x := rfl
@[simp] theorem State.setLendClass_counter (s : State) (c : Nat) (r : ClassRecord) (x : Nat) : (s.setLendClass c r).counter x = s.counter x := rfl
@[simp] theorem State.setLendClass_aisle (s : State) (c : Nat) (r : ClassRecord) (x : Nat) : (s.setLendClass c r).aisle x = s.aisle x := rfl
@[simp] theorem State.setLendClass_bin (s : State) (c : Nat) (r : ClassRecord) (x : Nat) : (s.setLendClass c r).bin x = s.bin x := rfl
@[simp] theorem State.setLendClass_crane (s : State) (c : Nat) (r : ClassRecord) (x : Nat) : (s.setLendClass c r).crane x = s.crane x := rfl
@[simp] theorem State.setLendClass_station (s : State) (c : Nat) (r : ClassRecord) (x : Nat) : (s.setLendClass c r).station x = s.station x := rfl
@[simp] theorem State.setLendClass_order (s : State) (c : Nat) (r : ClassRecord) (x : Nat) : (s.setLendClass c r).order x = s.order x := rfl
@[simp] theorem State.setLendClass_lift (s : State) (c : Nat) (r : ClassRecord) (x : Nat) : (s.setLendClass c r).lift x = s.lift x := rfl
@[simp] theorem State.setLendClass_zone (s : State) (c : Nat) (r : ClassRecord) (x : Nat) : (s.setLendClass c r).zone x = s.zone x := rfl
@[simp] theorem State.setLendClass_line (s : State) (c : Nat) (r : ClassRecord) (x : Nat) : (s.setLendClass c r).line x = s.line x := rfl
@[simp] theorem State.setLendClass_pull (s : State) (c : Nat) (r : ClassRecord) (x : Nat) : (s.setLendClass c r).pull x = s.pull x := rfl
@[simp] theorem State.setLendClass_item (s : State) (c : Nat) (r : ClassRecord) (x : Nat) : (s.setLendClass c r).item x = s.item x := rfl

/-! ## putItem -/

@[simp] theorem State.putItem_link (s : State) (t : Nat) (e : Item) : (s.putItem t e).link = s.link := rfl
@[simp] theorem State.putItem_ports (s : State) (t : Nat) (e : Item) : (s.putItem t e).ports = s.ports := rfl
@[simp] theorem State.putItem_params (s : State) (t : Nat) (e : Item) : (s.putItem t e).params = s.params := rfl
@[simp] theorem State.putItem_store (s : State) (t : Nat) (e : Item) : (s.putItem t e).store = s.store := rfl
@[simp] theorem State.putItem_dispatch (s : State) (t : Nat) (e : Item) : (s.putItem t e).dispatch = s.dispatch := rfl
@[simp] theorem State.putItem_desk (s : State) (t : Nat) (e : Item) : (s.putItem t e).desk = s.desk := rfl
@[simp] theorem State.putItem_pool (s : State) (t : Nat) (e : Item) : (s.putItem t e).pool = s.pool := rfl
@[simp] theorem State.putItem_returns (s : State) (t : Nat) (e : Item) : (s.putItem t e).returns = s.returns := rfl
@[simp] theorem State.putItem_zones (s : State) (t : Nat) (e : Item) : (s.putItem t e).zones = s.zones := rfl
@[simp] theorem State.putItem_lines (s : State) (t : Nat) (e : Item) : (s.putItem t e).lines = s.lines := rfl
@[simp] theorem State.putItem_outputs (s : State) (t : Nat) (e : Item) : (s.putItem t e).outputs = s.outputs := rfl
@[simp] theorem State.putItem_mode (s : State) (t : Nat) (e : Item) : (s.putItem t e).mode = s.mode := rfl
@[simp] theorem State.putItem_resets (s : State) (t : Nat) (e : Item) : (s.putItem t e).resets = s.resets := rfl
@[simp] theorem State.putItem_now (s : State) (t : Nat) (e : Item) : (s.putItem t e).now = s.now := rfl
@[simp] theorem State.putItem_floats (s : State) (t : Nat) (e : Item) : (s.putItem t e).floats = s.floats := rfl
@[simp] theorem State.putItem_work (s : State) (t : Nat) (e : Item) : (s.putItem t e).work = s.work := rfl
@[simp] theorem State.putItem_pending (s : State) (t : Nat) (e : Item) : (s.putItem t e).pending = s.pending := rfl
@[simp] theorem State.putItem_addr (s : State) (t : Nat) (e : Item) (x : Nat) : (s.putItem t e).addr x = s.addr x := rfl
@[simp] theorem State.putItem_treatDown (s : State) (t : Nat) (e : Item) (x : Nat) : (s.putItem t e).treatDown x = s.treatDown x := rfl
@[simp] theorem State.putItem_treatUp (s : State) (t : Nat) (e : Item) (x : Nat) : (s.putItem t e).treatUp x = s.treatUp x := rfl
@[simp] theorem State.putItem_counter (s : State) (t : Nat) (e : Item) (x : Nat) : (s.putItem t e).counter x = s.counter x := rfl
@[simp] theorem State.putItem_aisle (s : State) (t : Nat) (e : Item) (x : Nat) : (s.putItem t e).aisle x = s.aisle x := rfl
@[simp] theorem State.putItem_bin (s : State) (t : Nat) (e : Item) (x : Nat) : (s.putItem t e).bin x = s.bin x := rfl
@[simp] theorem State.putItem_crane (s : State) (t : Nat) (e : Item) (x : Nat) : (s.putItem t e).crane x = s.crane x := rfl
@[simp] theorem State.putItem_station (s : State) (t : Nat) (e : Item) (x : Nat) : (s.putItem t e).station x = s.station x := rfl
@[simp] theorem State.putItem_order (s : State) (t : Nat) (e : Item) (x : Nat) : (s.putItem t e).order x = s.order x := rfl
@[simp] theorem State.putItem_lift (s : State) (t : Nat) (e : Item) (x : Nat) : (s.putItem t e).lift x = s.lift x := rfl
@[simp] theorem State.putItem_zone (s : State) (t : Nat) (e : Item) (x : Nat) : (s.putItem t e).zone x = s.zone x := rfl
@[simp] theorem State.putItem_line (s : State) (t : Nat) (e : Item) (x : Nat) : (s.putItem t e).line x = s.line x := rfl
@[simp] theorem State.putItem_pull (s : State) (t : Nat) (e : Item) (x : Nat) : (s.putItem t e).pull x = s.pull x := rfl
@[simp] theorem State.putItem_lendClass (s : State) (t : Nat) (e : Item) (x : Nat) : (s.putItem t e).lendClass x = s.lendClass x := rfl

/-! ## delItem -/

@[simp] theorem State.delItem_link (s : State) (t : Nat) : (s.delItem t).link = s.link := rfl
@[simp] theorem State.delItem_ports (s : State) (t : Nat) : (s.delItem t).ports = s.ports := rfl
@[simp] theorem State.delItem_params (s : State) (t : Nat) : (s.delItem t).params = s.params := rfl
@[simp] theorem State.delItem_store (s : State) (t : Nat) : (s.delItem t).store = s.store := rfl
@[simp] theorem State.delItem_dispatch (s : State) (t : Nat) : (s.delItem t).dispatch = s.dispatch := rfl
@[simp] theorem State.delItem_desk (s : State) (t : Nat) : (s.delItem t).desk = s.desk := rfl
@[simp] theorem State.delItem_pool (s : State) (t : Nat) : (s.delItem t).pool = s.pool := rfl
@[simp] theorem State.delItem_returns (s : State) (t : Nat) : (s.delItem t).returns = s.returns := rfl
@[simp] theorem State.delItem_zones (s : State) (t : Nat) : (s.delItem t).zones = s.zones := rfl
@[simp] theorem State.delItem_lines (s : State) (t : Nat) : (s.delItem t).lines = s.lines := rfl
@[simp] theorem State.delItem_outputs (s : State) (t : Nat) : (s.delItem t).outputs = s.outputs := rfl
@[simp] theorem State.delItem_mode (s : State) (t : Nat) : (s.delItem t).mode = s.mode := rfl
@[simp] theorem State.delItem_resets (s : State) (t : Nat) : (s.delItem t).resets = s.resets := rfl
@[simp] theorem State.delItem_now (s : State) (t : Nat) : (s.delItem t).now = s.now := rfl
@[simp] theorem State.delItem_floats (s : State) (t : Nat) : (s.delItem t).floats = s.floats := rfl
@[simp] theorem State.delItem_work (s : State) (t : Nat) : (s.delItem t).work = s.work := rfl
@[simp] theorem State.delItem_pending (s : State) (t : Nat) : (s.delItem t).pending = s.pending := rfl
@[simp] theorem State.delItem_addr (s : State) (t : Nat) (x : Nat) : (s.delItem t).addr x = s.addr x := rfl
@[simp] theorem State.delItem_treatDown (s : State) (t : Nat) (x : Nat) : (s.delItem t).treatDown x = s.treatDown x := rfl
@[simp] theorem State.delItem_treatUp (s : State) (t : Nat) (x : Nat) : (s.delItem t).treatUp x = s.treatUp x := rfl
@[simp] theorem State.delItem_counter (s : State) (t : Nat) (x : Nat) : (s.delItem t).counter x = s.counter x := rfl
@[simp] theorem State.delItem_aisle (s : State) (t : Nat) (x : Nat) : (s.delItem t).aisle x = s.aisle x := rfl
@[simp] theorem State.delItem_bin (s : State) (t : Nat) (x : Nat) : (s.delItem t).bin x = s.bin x := rfl
@[simp] theorem State.delItem_crane (s : State) (t : Nat) (x : Nat) : (s.delItem t).crane x = s.crane x := rfl
@[simp] theorem State.delItem_station (s : State) (t : Nat) (x : Nat) : (s.delItem t).station x = s.station x := rfl
@[simp] theorem State.delItem_order (s : State) (t : Nat) (x : Nat) : (s.delItem t).order x = s.order x := rfl
@[simp] theorem State.delItem_lift (s : State) (t : Nat) (x : Nat) : (s.delItem t).lift x = s.lift x := rfl
@[simp] theorem State.delItem_zone (s : State) (t : Nat) (x : Nat) : (s.delItem t).zone x = s.zone x := rfl
@[simp] theorem State.delItem_line (s : State) (t : Nat) (x : Nat) : (s.delItem t).line x = s.line x := rfl
@[simp] theorem State.delItem_pull (s : State) (t : Nat) (x : Nat) : (s.delItem t).pull x = s.pull x := rfl
@[simp] theorem State.delItem_lendClass (s : State) (t : Nat) (x : Nat) : (s.delItem t).lendClass x = s.lendClass x := rfl

/-! ## createItem -/

@[simp] theorem State.createItem_link (s : State) (t : Nat) (e : Item) : (s.createItem t e).link = s.link := by simp [State.createItem]
@[simp] theorem State.createItem_ports (s : State) (t : Nat) (e : Item) : (s.createItem t e).ports = s.ports := by simp [State.createItem]
@[simp] theorem State.createItem_params (s : State) (t : Nat) (e : Item) : (s.createItem t e).params = s.params := by simp [State.createItem]
@[simp] theorem State.createItem_dispatch (s : State) (t : Nat) (e : Item) : (s.createItem t e).dispatch = s.dispatch := by simp [State.createItem]
@[simp] theorem State.createItem_desk (s : State) (t : Nat) (e : Item) : (s.createItem t e).desk = s.desk := by simp [State.createItem]
@[simp] theorem State.createItem_pool (s : State) (t : Nat) (e : Item) : (s.createItem t e).pool = s.pool := by simp [State.createItem]
@[simp] theorem State.createItem_returns (s : State) (t : Nat) (e : Item) : (s.createItem t e).returns = s.returns := by simp [State.createItem]
@[simp] theorem State.createItem_zones (s : State) (t : Nat) (e : Item) : (s.createItem t e).zones = s.zones := by simp [State.createItem]
@[simp] theorem State.createItem_lines (s : State) (t : Nat) (e : Item) : (s.createItem t e).lines = s.lines := by simp [State.createItem]
@[simp] theorem State.createItem_outputs (s : State) (t : Nat) (e : Item) : (s.createItem t e).outputs = s.outputs := by simp [State.createItem]
@[simp] theorem State.createItem_mode (s : State) (t : Nat) (e : Item) : (s.createItem t e).mode = s.mode := by simp [State.createItem]
@[simp] theorem State.createItem_resets (s : State) (t : Nat) (e : Item) : (s.createItem t e).resets = s.resets := by simp [State.createItem]
@[simp] theorem State.createItem_now (s : State) (t : Nat) (e : Item) : (s.createItem t e).now = s.now := by simp [State.createItem]
@[simp] theorem State.createItem_floats (s : State) (t : Nat) (e : Item) : (s.createItem t e).floats = s.floats := by simp [State.createItem]
@[simp] theorem State.createItem_work (s : State) (t : Nat) (e : Item) : (s.createItem t e).work = s.work := by simp [State.createItem]
@[simp] theorem State.createItem_pending (s : State) (t : Nat) (e : Item) : (s.createItem t e).pending = s.pending := by simp [State.createItem]
@[simp] theorem State.createItem_addr (s : State) (t : Nat) (e : Item) (x : Nat) : (s.createItem t e).addr x = s.addr x := by simp [State.createItem]
@[simp] theorem State.createItem_treatDown (s : State) (t : Nat) (e : Item) (x : Nat) : (s.createItem t e).treatDown x = s.treatDown x := by simp [State.createItem]
@[simp] theorem State.createItem_treatUp (s : State) (t : Nat) (e : Item) (x : Nat) : (s.createItem t e).treatUp x = s.treatUp x := by simp [State.createItem]
@[simp] theorem State.createItem_counter (s : State) (t : Nat) (e : Item) (x : Nat) : (s.createItem t e).counter x = s.counter x := by simp [State.createItem]
@[simp] theorem State.createItem_aisle (s : State) (t : Nat) (e : Item) (x : Nat) : (s.createItem t e).aisle x = s.aisle x := by simp [State.createItem]
@[simp] theorem State.createItem_crane (s : State) (t : Nat) (e : Item) (x : Nat) : (s.createItem t e).crane x = s.crane x := by simp [State.createItem]
@[simp] theorem State.createItem_station (s : State) (t : Nat) (e : Item) (x : Nat) : (s.createItem t e).station x = s.station x := by simp [State.createItem]
@[simp] theorem State.createItem_order (s : State) (t : Nat) (e : Item) (x : Nat) : (s.createItem t e).order x = s.order x := by simp [State.createItem]
@[simp] theorem State.createItem_lift (s : State) (t : Nat) (e : Item) (x : Nat) : (s.createItem t e).lift x = s.lift x := by simp [State.createItem]
@[simp] theorem State.createItem_zone (s : State) (t : Nat) (e : Item) (x : Nat) : (s.createItem t e).zone x = s.zone x := by simp [State.createItem]
@[simp] theorem State.createItem_line (s : State) (t : Nat) (e : Item) (x : Nat) : (s.createItem t e).line x = s.line x := by simp [State.createItem]
@[simp] theorem State.createItem_pull (s : State) (t : Nat) (e : Item) (x : Nat) : (s.createItem t e).pull x = s.pull x := by simp [State.createItem]
@[simp] theorem State.createItem_lendClass (s : State) (t : Nat) (e : Item) (x : Nat) : (s.createItem t e).lendClass x = s.lendClass x := by simp [State.createItem]

/-! ## removeItem -/

@[simp] theorem State.removeItem_link (s : State) (t : Nat) : (s.removeItem t).link = s.link := by unfold State.removeItem; split <;> simp
@[simp] theorem State.removeItem_ports (s : State) (t : Nat) : (s.removeItem t).ports = s.ports := by unfold State.removeItem; split <;> simp
@[simp] theorem State.removeItem_params (s : State) (t : Nat) : (s.removeItem t).params = s.params := by unfold State.removeItem; split <;> simp
@[simp] theorem State.removeItem_dispatch (s : State) (t : Nat) : (s.removeItem t).dispatch = s.dispatch := by unfold State.removeItem; split <;> simp
@[simp] theorem State.removeItem_desk (s : State) (t : Nat) : (s.removeItem t).desk = s.desk := by unfold State.removeItem; split <;> simp
@[simp] theorem State.removeItem_pool (s : State) (t : Nat) : (s.removeItem t).pool = s.pool := by unfold State.removeItem; split <;> simp
@[simp] theorem State.removeItem_returns (s : State) (t : Nat) : (s.removeItem t).returns = s.returns := by unfold State.removeItem; split <;> simp
@[simp] theorem State.removeItem_zones (s : State) (t : Nat) : (s.removeItem t).zones = s.zones := by unfold State.removeItem; split <;> simp
@[simp] theorem State.removeItem_lines (s : State) (t : Nat) : (s.removeItem t).lines = s.lines := by unfold State.removeItem; split <;> simp
@[simp] theorem State.removeItem_outputs (s : State) (t : Nat) : (s.removeItem t).outputs = s.outputs := by unfold State.removeItem; split <;> simp
@[simp] theorem State.removeItem_mode (s : State) (t : Nat) : (s.removeItem t).mode = s.mode := by unfold State.removeItem; split <;> simp
@[simp] theorem State.removeItem_resets (s : State) (t : Nat) : (s.removeItem t).resets = s.resets := by unfold State.removeItem; split <;> simp
@[simp] theorem State.removeItem_now (s : State) (t : Nat) : (s.removeItem t).now = s.now := by unfold State.removeItem; split <;> simp
@[simp] theorem State.removeItem_floats (s : State) (t : Nat) : (s.removeItem t).floats = s.floats := by unfold State.removeItem; split <;> simp
@[simp] theorem State.removeItem_work (s : State) (t : Nat) : (s.removeItem t).work = s.work := by unfold State.removeItem; split <;> simp
@[simp] theorem State.removeItem_pending (s : State) (t : Nat) : (s.removeItem t).pending = s.pending := by unfold State.removeItem; split <;> simp
@[simp] theorem State.removeItem_addr (s : State) (t : Nat) (x : Nat) : (s.removeItem t).addr x = s.addr x := by unfold State.removeItem; split <;> simp
@[simp] theorem State.removeItem_treatDown (s : State) (t : Nat) (x : Nat) : (s.removeItem t).treatDown x = s.treatDown x := by unfold State.removeItem; split <;> simp
@[simp] theorem State.removeItem_treatUp (s : State) (t : Nat) (x : Nat) : (s.removeItem t).treatUp x = s.treatUp x := by unfold State.removeItem; split <;> simp
@[simp] theorem State.removeItem_counter (s : State) (t : Nat) (x : Nat) : (s.removeItem t).counter x = s.counter x := by unfold State.removeItem; split <;> simp
@[simp] theorem State.removeItem_aisle (s : State) (t : Nat) (x : Nat) : (s.removeItem t).aisle x = s.aisle x := by unfold State.removeItem; split <;> simp
@[simp] theorem State.removeItem_crane (s : State) (t : Nat) (x : Nat) : (s.removeItem t).crane x = s.crane x := by unfold State.removeItem; split <;> simp
@[simp] theorem State.removeItem_station (s : State) (t : Nat) (x : Nat) : (s.removeItem t).station x = s.station x := by unfold State.removeItem; split <;> simp
@[simp] theorem State.removeItem_order (s : State) (t : Nat) (x : Nat) : (s.removeItem t).order x = s.order x := by unfold State.removeItem; split <;> simp
@[simp] theorem State.removeItem_lift (s : State) (t : Nat) (x : Nat) : (s.removeItem t).lift x = s.lift x := by unfold State.removeItem; split <;> simp
@[simp] theorem State.removeItem_zone (s : State) (t : Nat) (x : Nat) : (s.removeItem t).zone x = s.zone x := by unfold State.removeItem; split <;> simp
@[simp] theorem State.removeItem_line (s : State) (t : Nat) (x : Nat) : (s.removeItem t).line x = s.line x := by unfold State.removeItem; split <;> simp
@[simp] theorem State.removeItem_pull (s : State) (t : Nat) (x : Nat) : (s.removeItem t).pull x = s.pull x := by unfold State.removeItem; split <;> simp
@[simp] theorem State.removeItem_lendClass (s : State) (t : Nat) (x : Nat) : (s.removeItem t).lendClass x = s.lendClass x := by unfold State.removeItem; split <;> simp

/-! ## modOrder -/

@[simp] theorem State.modOrder_link (s : State) (num : Nat) (f : Order → Order) : (s.modOrder num f).link = s.link := rfl
@[simp] theorem State.modOrder_ports (s : State) (num : Nat) (f : Order → Order) : (s.modOrder num f).ports = s.ports := rfl
@[simp] theorem State.modOrder_params (s : State) (num : Nat) (f : Order → Order) : (s.modOrder num f).params = s.params := rfl
@[simp] theorem State.modOrder_store (s : State) (num : Nat) (f : Order → Order) : (s.modOrder num f).store = s.store := rfl
@[simp] theorem State.modOrder_dispatch (s : State) (num : Nat) (f : Order → Order) : (s.modOrder num f).dispatch = s.dispatch := rfl
@[simp] theorem State.modOrder_pool (s : State) (num : Nat) (f : Order → Order) : (s.modOrder num f).pool = s.pool := rfl
@[simp] theorem State.modOrder_loans (s : State) (num : Nat) (f : Order → Order) : (s.modOrder num f).loans = s.loans := rfl
@[simp] theorem State.modOrder_returns (s : State) (num : Nat) (f : Order → Order) : (s.modOrder num f).returns = s.returns := rfl
@[simp] theorem State.modOrder_zones (s : State) (num : Nat) (f : Order → Order) : (s.modOrder num f).zones = s.zones := rfl
@[simp] theorem State.modOrder_lines (s : State) (num : Nat) (f : Order → Order) : (s.modOrder num f).lines = s.lines := rfl
@[simp] theorem State.modOrder_outputs (s : State) (num : Nat) (f : Order → Order) : (s.modOrder num f).outputs = s.outputs := rfl
@[simp] theorem State.modOrder_mode (s : State) (num : Nat) (f : Order → Order) : (s.modOrder num f).mode = s.mode := rfl
@[simp] theorem State.modOrder_resets (s : State) (num : Nat) (f : Order → Order) : (s.modOrder num f).resets = s.resets := rfl
@[simp] theorem State.modOrder_now (s : State) (num : Nat) (f : Order → Order) : (s.modOrder num f).now = s.now := rfl
@[simp] theorem State.modOrder_floats (s : State) (num : Nat) (f : Order → Order) : (s.modOrder num f).floats = s.floats := rfl
@[simp] theorem State.modOrder_work (s : State) (num : Nat) (f : Order → Order) : (s.modOrder num f).work = s.work := rfl
@[simp] theorem State.modOrder_pending (s : State) (num : Nat) (f : Order → Order) : (s.modOrder num f).pending = s.pending := rfl
@[simp] theorem State.modOrder_addr (s : State) (num : Nat) (f : Order → Order) (x : Nat) : (s.modOrder num f).addr x = s.addr x := rfl
@[simp] theorem State.modOrder_treatDown (s : State) (num : Nat) (f : Order → Order) (x : Nat) : (s.modOrder num f).treatDown x = s.treatDown x := rfl
@[simp] theorem State.modOrder_treatUp (s : State) (num : Nat) (f : Order → Order) (x : Nat) : (s.modOrder num f).treatUp x = s.treatUp x := rfl
@[simp] theorem State.modOrder_counter (s : State) (num : Nat) (f : Order → Order) (x : Nat) : (s.modOrder num f).counter x = s.counter x := rfl
@[simp] theorem State.modOrder_aisle (s : State) (num : Nat) (f : Order → Order) (x : Nat) : (s.modOrder num f).aisle x = s.aisle x := rfl
@[simp] theorem State.modOrder_bin (s : State) (num : Nat) (f : Order → Order) (x : Nat) : (s.modOrder num f).bin x = s.bin x := rfl
@[simp] theorem State.modOrder_crane (s : State) (num : Nat) (f : Order → Order) (x : Nat) : (s.modOrder num f).crane x = s.crane x := rfl
@[simp] theorem State.modOrder_station (s : State) (num : Nat) (f : Order → Order) (x : Nat) : (s.modOrder num f).station x = s.station x := rfl
@[simp] theorem State.modOrder_lift (s : State) (num : Nat) (f : Order → Order) (x : Nat) : (s.modOrder num f).lift x = s.lift x := rfl
@[simp] theorem State.modOrder_zone (s : State) (num : Nat) (f : Order → Order) (x : Nat) : (s.modOrder num f).zone x = s.zone x := rfl
@[simp] theorem State.modOrder_line (s : State) (num : Nat) (f : Order → Order) (x : Nat) : (s.modOrder num f).line x = s.line x := rfl
@[simp] theorem State.modOrder_pull (s : State) (num : Nat) (f : Order → Order) (x : Nat) : (s.modOrder num f).pull x = s.pull x := rfl
@[simp] theorem State.modOrder_item (s : State) (num : Nat) (f : Order → Order) (x : Nat) : (s.modOrder num f).item x = s.item x := rfl
@[simp] theorem State.modOrder_lendClass (s : State) (num : Nat) (f : Order → Order) (x : Nat) : (s.modOrder num f).lendClass x = s.lendClass x := rfl

/-! ## dropOrder -/

@[simp] theorem State.dropOrder_link (s : State) (num : Nat) : (s.dropOrder num).link = s.link := rfl
@[simp] theorem State.dropOrder_ports (s : State) (num : Nat) : (s.dropOrder num).ports = s.ports := rfl
@[simp] theorem State.dropOrder_params (s : State) (num : Nat) : (s.dropOrder num).params = s.params := rfl
@[simp] theorem State.dropOrder_store (s : State) (num : Nat) : (s.dropOrder num).store = s.store := rfl
@[simp] theorem State.dropOrder_dispatch (s : State) (num : Nat) : (s.dropOrder num).dispatch = s.dispatch := rfl
@[simp] theorem State.dropOrder_pool (s : State) (num : Nat) : (s.dropOrder num).pool = s.pool := rfl
@[simp] theorem State.dropOrder_loans (s : State) (num : Nat) : (s.dropOrder num).loans = s.loans := rfl
@[simp] theorem State.dropOrder_returns (s : State) (num : Nat) : (s.dropOrder num).returns = s.returns := rfl
@[simp] theorem State.dropOrder_zones (s : State) (num : Nat) : (s.dropOrder num).zones = s.zones := rfl
@[simp] theorem State.dropOrder_lines (s : State) (num : Nat) : (s.dropOrder num).lines = s.lines := rfl
@[simp] theorem State.dropOrder_outputs (s : State) (num : Nat) : (s.dropOrder num).outputs = s.outputs := rfl
@[simp] theorem State.dropOrder_mode (s : State) (num : Nat) : (s.dropOrder num).mode = s.mode := rfl
@[simp] theorem State.dropOrder_resets (s : State) (num : Nat) : (s.dropOrder num).resets = s.resets := rfl
@[simp] theorem State.dropOrder_now (s : State) (num : Nat) : (s.dropOrder num).now = s.now := rfl
@[simp] theorem State.dropOrder_floats (s : State) (num : Nat) : (s.dropOrder num).floats = s.floats := rfl
@[simp] theorem State.dropOrder_work (s : State) (num : Nat) : (s.dropOrder num).work = s.work := rfl
@[simp] theorem State.dropOrder_pending (s : State) (num : Nat) : (s.dropOrder num).pending = s.pending := rfl
@[simp] theorem State.dropOrder_addr (s : State) (num : Nat) (x : Nat) : (s.dropOrder num).addr x = s.addr x := rfl
@[simp] theorem State.dropOrder_treatDown (s : State) (num : Nat) (x : Nat) : (s.dropOrder num).treatDown x = s.treatDown x := rfl
@[simp] theorem State.dropOrder_treatUp (s : State) (num : Nat) (x : Nat) : (s.dropOrder num).treatUp x = s.treatUp x := rfl
@[simp] theorem State.dropOrder_counter (s : State) (num : Nat) (x : Nat) : (s.dropOrder num).counter x = s.counter x := rfl
@[simp] theorem State.dropOrder_aisle (s : State) (num : Nat) (x : Nat) : (s.dropOrder num).aisle x = s.aisle x := rfl
@[simp] theorem State.dropOrder_bin (s : State) (num : Nat) (x : Nat) : (s.dropOrder num).bin x = s.bin x := rfl
@[simp] theorem State.dropOrder_crane (s : State) (num : Nat) (x : Nat) : (s.dropOrder num).crane x = s.crane x := rfl
@[simp] theorem State.dropOrder_station (s : State) (num : Nat) (x : Nat) : (s.dropOrder num).station x = s.station x := rfl
@[simp] theorem State.dropOrder_lift (s : State) (num : Nat) (x : Nat) : (s.dropOrder num).lift x = s.lift x := rfl
@[simp] theorem State.dropOrder_zone (s : State) (num : Nat) (x : Nat) : (s.dropOrder num).zone x = s.zone x := rfl
@[simp] theorem State.dropOrder_line (s : State) (num : Nat) (x : Nat) : (s.dropOrder num).line x = s.line x := rfl
@[simp] theorem State.dropOrder_pull (s : State) (num : Nat) (x : Nat) : (s.dropOrder num).pull x = s.pull x := rfl
@[simp] theorem State.dropOrder_item (s : State) (num : Nat) (x : Nat) : (s.dropOrder num).item x = s.item x := rfl
@[simp] theorem State.dropOrder_lendClass (s : State) (num : Nat) (x : Nat) : (s.dropOrder num).lendClass x = s.lendClass x := rfl

/-! ## modMember -/

@[simp] theorem State.modMember_link (s : State) (r : MemberRef) (f : Member → Member) : (s.modMember r f).link = s.link := rfl
@[simp] theorem State.modMember_ports (s : State) (r : MemberRef) (f : Member → Member) : (s.modMember r f).ports = s.ports := rfl
@[simp] theorem State.modMember_params (s : State) (r : MemberRef) (f : Member → Member) : (s.modMember r f).params = s.params := rfl
@[simp] theorem State.modMember_store (s : State) (r : MemberRef) (f : Member → Member) : (s.modMember r f).store = s.store := rfl
@[simp] theorem State.modMember_dispatch (s : State) (r : MemberRef) (f : Member → Member) : (s.modMember r f).dispatch = s.dispatch := rfl
@[simp] theorem State.modMember_pool (s : State) (r : MemberRef) (f : Member → Member) : (s.modMember r f).pool = s.pool := rfl
@[simp] theorem State.modMember_loans (s : State) (r : MemberRef) (f : Member → Member) : (s.modMember r f).loans = s.loans := rfl
@[simp] theorem State.modMember_returns (s : State) (r : MemberRef) (f : Member → Member) : (s.modMember r f).returns = s.returns := rfl
@[simp] theorem State.modMember_zones (s : State) (r : MemberRef) (f : Member → Member) : (s.modMember r f).zones = s.zones := rfl
@[simp] theorem State.modMember_lines (s : State) (r : MemberRef) (f : Member → Member) : (s.modMember r f).lines = s.lines := rfl
@[simp] theorem State.modMember_outputs (s : State) (r : MemberRef) (f : Member → Member) : (s.modMember r f).outputs = s.outputs := rfl
@[simp] theorem State.modMember_mode (s : State) (r : MemberRef) (f : Member → Member) : (s.modMember r f).mode = s.mode := rfl
@[simp] theorem State.modMember_resets (s : State) (r : MemberRef) (f : Member → Member) : (s.modMember r f).resets = s.resets := rfl
@[simp] theorem State.modMember_now (s : State) (r : MemberRef) (f : Member → Member) : (s.modMember r f).now = s.now := rfl
@[simp] theorem State.modMember_floats (s : State) (r : MemberRef) (f : Member → Member) : (s.modMember r f).floats = s.floats := rfl
@[simp] theorem State.modMember_work (s : State) (r : MemberRef) (f : Member → Member) : (s.modMember r f).work = s.work := rfl
@[simp] theorem State.modMember_pending (s : State) (r : MemberRef) (f : Member → Member) : (s.modMember r f).pending = s.pending := rfl
@[simp] theorem State.modMember_addr (s : State) (r : MemberRef) (f : Member → Member) (x : Nat) : (s.modMember r f).addr x = s.addr x := rfl
@[simp] theorem State.modMember_treatDown (s : State) (r : MemberRef) (f : Member → Member) (x : Nat) : (s.modMember r f).treatDown x = s.treatDown x := rfl
@[simp] theorem State.modMember_treatUp (s : State) (r : MemberRef) (f : Member → Member) (x : Nat) : (s.modMember r f).treatUp x = s.treatUp x := rfl
@[simp] theorem State.modMember_counter (s : State) (r : MemberRef) (f : Member → Member) (x : Nat) : (s.modMember r f).counter x = s.counter x := rfl
@[simp] theorem State.modMember_aisle (s : State) (r : MemberRef) (f : Member → Member) (x : Nat) : (s.modMember r f).aisle x = s.aisle x := rfl
@[simp] theorem State.modMember_bin (s : State) (r : MemberRef) (f : Member → Member) (x : Nat) : (s.modMember r f).bin x = s.bin x := rfl
@[simp] theorem State.modMember_crane (s : State) (r : MemberRef) (f : Member → Member) (x : Nat) : (s.modMember r f).crane x = s.crane x := rfl
@[simp] theorem State.modMember_station (s : State) (r : MemberRef) (f : Member → Member) (x : Nat) : (s.modMember r f).station x = s.station x := rfl
@[simp] theorem State.modMember_lift (s : State) (r : MemberRef) (f : Member → Member) (x : Nat) : (s.modMember r f).lift x = s.lift x := rfl
@[simp] theorem State.modMember_zone (s : State) (r : MemberRef) (f : Member → Member) (x : Nat) : (s.modMember r f).zone x = s.zone x := rfl
@[simp] theorem State.modMember_line (s : State) (r : MemberRef) (f : Member → Member) (x : Nat) : (s.modMember r f).line x = s.line x := rfl
@[simp] theorem State.modMember_pull (s : State) (r : MemberRef) (f : Member → Member) (x : Nat) : (s.modMember r f).pull x = s.pull x := rfl
@[simp] theorem State.modMember_item (s : State) (r : MemberRef) (f : Member → Member) (x : Nat) : (s.modMember r f).item x = s.item x := rfl
@[simp] theorem State.modMember_lendClass (s : State) (r : MemberRef) (f : Member → Member) (x : Nat) : (s.modMember r f).lendClass x = s.lendClass x := rfl

/-! ## notice -/

@[simp] theorem State.notice_link (s : State) (n : Notice) : (s.notice n).link = s.link := rfl
@[simp] theorem State.notice_ports (s : State) (n : Notice) : (s.notice n).ports = s.ports := rfl
@[simp] theorem State.notice_params (s : State) (n : Notice) : (s.notice n).params = s.params := rfl
@[simp] theorem State.notice_store (s : State) (n : Notice) : (s.notice n).store = s.store := rfl
@[simp] theorem State.notice_dispatch (s : State) (n : Notice) : (s.notice n).dispatch = s.dispatch := rfl
@[simp] theorem State.notice_desk (s : State) (n : Notice) : (s.notice n).desk = s.desk := rfl
@[simp] theorem State.notice_pool (s : State) (n : Notice) : (s.notice n).pool = s.pool := rfl
@[simp] theorem State.notice_loans (s : State) (n : Notice) : (s.notice n).loans = s.loans := rfl
@[simp] theorem State.notice_returns (s : State) (n : Notice) : (s.notice n).returns = s.returns := rfl
@[simp] theorem State.notice_zones (s : State) (n : Notice) : (s.notice n).zones = s.zones := rfl
@[simp] theorem State.notice_lines (s : State) (n : Notice) : (s.notice n).lines = s.lines := rfl
@[simp] theorem State.notice_outputs (s : State) (n : Notice) : (s.notice n).outputs = s.outputs := rfl
@[simp] theorem State.notice_mode (s : State) (n : Notice) : (s.notice n).mode = s.mode := rfl
@[simp] theorem State.notice_resets (s : State) (n : Notice) : (s.notice n).resets = s.resets := rfl
@[simp] theorem State.notice_now (s : State) (n : Notice) : (s.notice n).now = s.now := rfl
@[simp] theorem State.notice_floats (s : State) (n : Notice) : (s.notice n).floats = s.floats := rfl
@[simp] theorem State.notice_pending (s : State) (n : Notice) : (s.notice n).pending = s.pending := rfl
@[simp] theorem State.notice_addr (s : State) (n : Notice) (x : Nat) : (s.notice n).addr x = s.addr x := rfl
@[simp] theorem State.notice_treatDown (s : State) (n : Notice) (x : Nat) : (s.notice n).treatDown x = s.treatDown x := rfl
@[simp] theorem State.notice_treatUp (s : State) (n : Notice) (x : Nat) : (s.notice n).treatUp x = s.treatUp x := rfl
@[simp] theorem State.notice_counter (s : State) (n : Notice) (x : Nat) : (s.notice n).counter x = s.counter x := rfl
@[simp] theorem State.notice_aisle (s : State) (n : Notice) (x : Nat) : (s.notice n).aisle x = s.aisle x := rfl
@[simp] theorem State.notice_bin (s : State) (n : Notice) (x : Nat) : (s.notice n).bin x = s.bin x := rfl
@[simp] theorem State.notice_crane (s : State) (n : Notice) (x : Nat) : (s.notice n).crane x = s.crane x := rfl
@[simp] theorem State.notice_station (s : State) (n : Notice) (x : Nat) : (s.notice n).station x = s.station x := rfl
@[simp] theorem State.notice_order (s : State) (n : Notice) (x : Nat) : (s.notice n).order x = s.order x := rfl
@[simp] theorem State.notice_lift (s : State) (n : Notice) (x : Nat) : (s.notice n).lift x = s.lift x := rfl
@[simp] theorem State.notice_zone (s : State) (n : Notice) (x : Nat) : (s.notice n).zone x = s.zone x := rfl
@[simp] theorem State.notice_line (s : State) (n : Notice) (x : Nat) : (s.notice n).line x = s.line x := rfl
@[simp] theorem State.notice_pull (s : State) (n : Notice) (x : Nat) : (s.notice n).pull x = s.pull x := rfl
@[simp] theorem State.notice_item (s : State) (n : Notice) (x : Nat) : (s.notice n).item x = s.item x := rfl
@[simp] theorem State.notice_lendClass (s : State) (n : Notice) (x : Nat) : (s.notice n).lendClass x = s.lendClass x := rfl

/-! ## holdoff -/

@[simp] theorem State.holdoff_link (s : State) (ms : Nat) : (s.holdoff ms).link = s.link := rfl
@[simp] theorem State.holdoff_ports (s : State) (ms : Nat) : (s.holdoff ms).ports = s.ports := rfl
@[simp] theorem State.holdoff_params (s : State) (ms : Nat) : (s.holdoff ms).params = s.params := rfl
@[simp] theorem State.holdoff_store (s : State) (ms : Nat) : (s.holdoff ms).store = s.store := rfl
@[simp] theorem State.holdoff_dispatch (s : State) (ms : Nat) : (s.holdoff ms).dispatch = s.dispatch := rfl
@[simp] theorem State.holdoff_desk (s : State) (ms : Nat) : (s.holdoff ms).desk = s.desk := rfl
@[simp] theorem State.holdoff_pool (s : State) (ms : Nat) : (s.holdoff ms).pool = s.pool := rfl
@[simp] theorem State.holdoff_loans (s : State) (ms : Nat) : (s.holdoff ms).loans = s.loans := rfl
@[simp] theorem State.holdoff_returns (s : State) (ms : Nat) : (s.holdoff ms).returns = s.returns := rfl
@[simp] theorem State.holdoff_zones (s : State) (ms : Nat) : (s.holdoff ms).zones = s.zones := rfl
@[simp] theorem State.holdoff_lines (s : State) (ms : Nat) : (s.holdoff ms).lines = s.lines := rfl
@[simp] theorem State.holdoff_outputs (s : State) (ms : Nat) : (s.holdoff ms).outputs = s.outputs := rfl
@[simp] theorem State.holdoff_mode (s : State) (ms : Nat) : (s.holdoff ms).mode = s.mode := rfl
@[simp] theorem State.holdoff_resets (s : State) (ms : Nat) : (s.holdoff ms).resets = s.resets := rfl
@[simp] theorem State.holdoff_now (s : State) (ms : Nat) : (s.holdoff ms).now = s.now := rfl
@[simp] theorem State.holdoff_floats (s : State) (ms : Nat) : (s.holdoff ms).floats = s.floats := rfl
@[simp] theorem State.holdoff_pending (s : State) (ms : Nat) : (s.holdoff ms).pending = s.pending := rfl
@[simp] theorem State.holdoff_addr (s : State) (ms : Nat) (x : Nat) : (s.holdoff ms).addr x = s.addr x := rfl
@[simp] theorem State.holdoff_treatDown (s : State) (ms : Nat) (x : Nat) : (s.holdoff ms).treatDown x = s.treatDown x := rfl
@[simp] theorem State.holdoff_treatUp (s : State) (ms : Nat) (x : Nat) : (s.holdoff ms).treatUp x = s.treatUp x := rfl
@[simp] theorem State.holdoff_counter (s : State) (ms : Nat) (x : Nat) : (s.holdoff ms).counter x = s.counter x := rfl
@[simp] theorem State.holdoff_aisle (s : State) (ms : Nat) (x : Nat) : (s.holdoff ms).aisle x = s.aisle x := rfl
@[simp] theorem State.holdoff_bin (s : State) (ms : Nat) (x : Nat) : (s.holdoff ms).bin x = s.bin x := rfl
@[simp] theorem State.holdoff_crane (s : State) (ms : Nat) (x : Nat) : (s.holdoff ms).crane x = s.crane x := rfl
@[simp] theorem State.holdoff_station (s : State) (ms : Nat) (x : Nat) : (s.holdoff ms).station x = s.station x := rfl
@[simp] theorem State.holdoff_order (s : State) (ms : Nat) (x : Nat) : (s.holdoff ms).order x = s.order x := rfl
@[simp] theorem State.holdoff_lift (s : State) (ms : Nat) (x : Nat) : (s.holdoff ms).lift x = s.lift x := rfl
@[simp] theorem State.holdoff_zone (s : State) (ms : Nat) (x : Nat) : (s.holdoff ms).zone x = s.zone x := rfl
@[simp] theorem State.holdoff_line (s : State) (ms : Nat) (x : Nat) : (s.holdoff ms).line x = s.line x := rfl
@[simp] theorem State.holdoff_pull (s : State) (ms : Nat) (x : Nat) : (s.holdoff ms).pull x = s.pull x := rfl
@[simp] theorem State.holdoff_item (s : State) (ms : Nat) (x : Nat) : (s.holdoff ms).item x = s.item x := rfl
@[simp] theorem State.holdoff_lendClass (s : State) (ms : Nat) (x : Nat) : (s.holdoff ms).lendClass x = s.lendClass x := rfl

/-! ## sendDown -/

@[simp] theorem State.sendDown_link (s : State) (q : Queued) : (s.sendDown q).link = s.link := rfl
@[simp] theorem State.sendDown_ports (s : State) (q : Queued) : (s.sendDown q).ports = s.ports := rfl
@[simp] theorem State.sendDown_params (s : State) (q : Queued) : (s.sendDown q).params = s.params := rfl
@[simp] theorem State.sendDown_store (s : State) (q : Queued) : (s.sendDown q).store = s.store := rfl
@[simp] theorem State.sendDown_dispatch (s : State) (q : Queued) : (s.sendDown q).dispatch = s.dispatch := rfl
@[simp] theorem State.sendDown_desk (s : State) (q : Queued) : (s.sendDown q).desk = s.desk := rfl
@[simp] theorem State.sendDown_pool (s : State) (q : Queued) : (s.sendDown q).pool = s.pool := rfl
@[simp] theorem State.sendDown_loans (s : State) (q : Queued) : (s.sendDown q).loans = s.loans := rfl
@[simp] theorem State.sendDown_returns (s : State) (q : Queued) : (s.sendDown q).returns = s.returns := rfl
@[simp] theorem State.sendDown_zones (s : State) (q : Queued) : (s.sendDown q).zones = s.zones := rfl
@[simp] theorem State.sendDown_lines (s : State) (q : Queued) : (s.sendDown q).lines = s.lines := rfl
@[simp] theorem State.sendDown_outputs (s : State) (q : Queued) : (s.sendDown q).outputs = s.outputs := rfl
@[simp] theorem State.sendDown_mode (s : State) (q : Queued) : (s.sendDown q).mode = s.mode := rfl
@[simp] theorem State.sendDown_resets (s : State) (q : Queued) : (s.sendDown q).resets = s.resets := rfl
@[simp] theorem State.sendDown_now (s : State) (q : Queued) : (s.sendDown q).now = s.now := rfl
@[simp] theorem State.sendDown_floats (s : State) (q : Queued) : (s.sendDown q).floats = s.floats := rfl
@[simp] theorem State.sendDown_pending (s : State) (q : Queued) : (s.sendDown q).pending = s.pending := rfl
@[simp] theorem State.sendDown_addr (s : State) (q : Queued) (x : Nat) : (s.sendDown q).addr x = s.addr x := rfl
@[simp] theorem State.sendDown_treatDown (s : State) (q : Queued) (x : Nat) : (s.sendDown q).treatDown x = s.treatDown x := rfl
@[simp] theorem State.sendDown_treatUp (s : State) (q : Queued) (x : Nat) : (s.sendDown q).treatUp x = s.treatUp x := rfl
@[simp] theorem State.sendDown_counter (s : State) (q : Queued) (x : Nat) : (s.sendDown q).counter x = s.counter x := rfl
@[simp] theorem State.sendDown_aisle (s : State) (q : Queued) (x : Nat) : (s.sendDown q).aisle x = s.aisle x := rfl
@[simp] theorem State.sendDown_bin (s : State) (q : Queued) (x : Nat) : (s.sendDown q).bin x = s.bin x := rfl
@[simp] theorem State.sendDown_crane (s : State) (q : Queued) (x : Nat) : (s.sendDown q).crane x = s.crane x := rfl
@[simp] theorem State.sendDown_station (s : State) (q : Queued) (x : Nat) : (s.sendDown q).station x = s.station x := rfl
@[simp] theorem State.sendDown_order (s : State) (q : Queued) (x : Nat) : (s.sendDown q).order x = s.order x := rfl
@[simp] theorem State.sendDown_lift (s : State) (q : Queued) (x : Nat) : (s.sendDown q).lift x = s.lift x := rfl
@[simp] theorem State.sendDown_zone (s : State) (q : Queued) (x : Nat) : (s.sendDown q).zone x = s.zone x := rfl
@[simp] theorem State.sendDown_line (s : State) (q : Queued) (x : Nat) : (s.sendDown q).line x = s.line x := rfl
@[simp] theorem State.sendDown_pull (s : State) (q : Queued) (x : Nat) : (s.sendDown q).pull x = s.pull x := rfl
@[simp] theorem State.sendDown_item (s : State) (q : Queued) (x : Nat) : (s.sendDown q).item x = s.item x := rfl
@[simp] theorem State.sendDown_lendClass (s : State) (q : Queued) (x : Nat) : (s.sendDown q).lendClass x = s.lendClass x := rfl

/-! ## sendUnit -/

@[simp] theorem State.sendUnit_link (s : State) (d : Option Nat) (k : Nat) (b : List Byte) (c : QueueClass) : (s.sendUnit d k b c).link = s.link := by unfold State.sendUnit; split <;> rfl
@[simp] theorem State.sendUnit_ports (s : State) (d : Option Nat) (k : Nat) (b : List Byte) (c : QueueClass) : (s.sendUnit d k b c).ports = s.ports := by unfold State.sendUnit; split <;> rfl
@[simp] theorem State.sendUnit_params (s : State) (d : Option Nat) (k : Nat) (b : List Byte) (c : QueueClass) : (s.sendUnit d k b c).params = s.params := by unfold State.sendUnit; split <;> rfl
@[simp] theorem State.sendUnit_store (s : State) (d : Option Nat) (k : Nat) (b : List Byte) (c : QueueClass) : (s.sendUnit d k b c).store = s.store := by unfold State.sendUnit; split <;> rfl
@[simp] theorem State.sendUnit_dispatch (s : State) (d : Option Nat) (k : Nat) (b : List Byte) (c : QueueClass) : (s.sendUnit d k b c).dispatch = s.dispatch := by unfold State.sendUnit; split <;> rfl
@[simp] theorem State.sendUnit_desk (s : State) (d : Option Nat) (k : Nat) (b : List Byte) (c : QueueClass) : (s.sendUnit d k b c).desk = s.desk := by unfold State.sendUnit; split <;> rfl
@[simp] theorem State.sendUnit_pool (s : State) (d : Option Nat) (k : Nat) (b : List Byte) (c : QueueClass) : (s.sendUnit d k b c).pool = s.pool := by unfold State.sendUnit; split <;> rfl
@[simp] theorem State.sendUnit_loans (s : State) (d : Option Nat) (k : Nat) (b : List Byte) (c : QueueClass) : (s.sendUnit d k b c).loans = s.loans := by unfold State.sendUnit; split <;> rfl
@[simp] theorem State.sendUnit_returns (s : State) (d : Option Nat) (k : Nat) (b : List Byte) (c : QueueClass) : (s.sendUnit d k b c).returns = s.returns := by unfold State.sendUnit; split <;> rfl
@[simp] theorem State.sendUnit_zones (s : State) (d : Option Nat) (k : Nat) (b : List Byte) (c : QueueClass) : (s.sendUnit d k b c).zones = s.zones := by unfold State.sendUnit; split <;> rfl
@[simp] theorem State.sendUnit_lines (s : State) (d : Option Nat) (k : Nat) (b : List Byte) (c : QueueClass) : (s.sendUnit d k b c).lines = s.lines := by unfold State.sendUnit; split <;> rfl
@[simp] theorem State.sendUnit_outputs (s : State) (d : Option Nat) (k : Nat) (b : List Byte) (c : QueueClass) : (s.sendUnit d k b c).outputs = s.outputs := by unfold State.sendUnit; split <;> rfl
@[simp] theorem State.sendUnit_mode (s : State) (d : Option Nat) (k : Nat) (b : List Byte) (c : QueueClass) : (s.sendUnit d k b c).mode = s.mode := by unfold State.sendUnit; split <;> rfl
@[simp] theorem State.sendUnit_resets (s : State) (d : Option Nat) (k : Nat) (b : List Byte) (c : QueueClass) : (s.sendUnit d k b c).resets = s.resets := by unfold State.sendUnit; split <;> rfl
@[simp] theorem State.sendUnit_now (s : State) (d : Option Nat) (k : Nat) (b : List Byte) (c : QueueClass) : (s.sendUnit d k b c).now = s.now := by unfold State.sendUnit; split <;> rfl
@[simp] theorem State.sendUnit_floats (s : State) (d : Option Nat) (k : Nat) (b : List Byte) (c : QueueClass) : (s.sendUnit d k b c).floats = s.floats := by unfold State.sendUnit; split <;> rfl
@[simp] theorem State.sendUnit_pending (s : State) (d : Option Nat) (k : Nat) (b : List Byte) (c : QueueClass) : (s.sendUnit d k b c).pending = s.pending := by unfold State.sendUnit; split <;> rfl
@[simp] theorem State.sendUnit_addr (s : State) (d : Option Nat) (k : Nat) (b : List Byte) (c : QueueClass) (x : Nat) : (s.sendUnit d k b c).addr x = s.addr x := by unfold State.sendUnit; split <;> rfl
@[simp] theorem State.sendUnit_treatDown (s : State) (d : Option Nat) (k : Nat) (b : List Byte) (c : QueueClass) (x : Nat) : (s.sendUnit d k b c).treatDown x = s.treatDown x := by unfold State.sendUnit; split <;> rfl
@[simp] theorem State.sendUnit_treatUp (s : State) (d : Option Nat) (k : Nat) (b : List Byte) (c : QueueClass) (x : Nat) : (s.sendUnit d k b c).treatUp x = s.treatUp x := by unfold State.sendUnit; split <;> rfl
@[simp] theorem State.sendUnit_counter (s : State) (d : Option Nat) (k : Nat) (b : List Byte) (c : QueueClass) (x : Nat) : (s.sendUnit d k b c).counter x = s.counter x := by unfold State.sendUnit; split <;> rfl
@[simp] theorem State.sendUnit_aisle (s : State) (d : Option Nat) (k : Nat) (b : List Byte) (c : QueueClass) (x : Nat) : (s.sendUnit d k b c).aisle x = s.aisle x := by unfold State.sendUnit; split <;> rfl
@[simp] theorem State.sendUnit_bin (s : State) (d : Option Nat) (k : Nat) (b : List Byte) (c : QueueClass) (x : Nat) : (s.sendUnit d k b c).bin x = s.bin x := by unfold State.sendUnit; split <;> rfl
@[simp] theorem State.sendUnit_crane (s : State) (d : Option Nat) (k : Nat) (b : List Byte) (c : QueueClass) (x : Nat) : (s.sendUnit d k b c).crane x = s.crane x := by unfold State.sendUnit; split <;> rfl
@[simp] theorem State.sendUnit_station (s : State) (d : Option Nat) (k : Nat) (b : List Byte) (c : QueueClass) (x : Nat) : (s.sendUnit d k b c).station x = s.station x := by unfold State.sendUnit; split <;> rfl
@[simp] theorem State.sendUnit_order (s : State) (d : Option Nat) (k : Nat) (b : List Byte) (c : QueueClass) (x : Nat) : (s.sendUnit d k b c).order x = s.order x := by unfold State.sendUnit; split <;> rfl
@[simp] theorem State.sendUnit_lift (s : State) (d : Option Nat) (k : Nat) (b : List Byte) (c : QueueClass) (x : Nat) : (s.sendUnit d k b c).lift x = s.lift x := by unfold State.sendUnit; split <;> rfl
@[simp] theorem State.sendUnit_zone (s : State) (d : Option Nat) (k : Nat) (b : List Byte) (c : QueueClass) (x : Nat) : (s.sendUnit d k b c).zone x = s.zone x := by unfold State.sendUnit; split <;> rfl
@[simp] theorem State.sendUnit_line (s : State) (d : Option Nat) (k : Nat) (b : List Byte) (c : QueueClass) (x : Nat) : (s.sendUnit d k b c).line x = s.line x := by unfold State.sendUnit; split <;> rfl
@[simp] theorem State.sendUnit_pull (s : State) (d : Option Nat) (k : Nat) (b : List Byte) (c : QueueClass) (x : Nat) : (s.sendUnit d k b c).pull x = s.pull x := by unfold State.sendUnit; split <;> rfl
@[simp] theorem State.sendUnit_item (s : State) (d : Option Nat) (k : Nat) (b : List Byte) (c : QueueClass) (x : Nat) : (s.sendUnit d k b c).item x = s.item x := by unfold State.sendUnit; split <;> rfl
@[simp] theorem State.sendUnit_lendClass (s : State) (d : Option Nat) (k : Nat) (b : List Byte) (c : QueueClass) (x : Nat) : (s.sendUnit d k b c).lendClass x = s.lendClass x := by unfold State.sendUnit; split <;> rfl

/-! ## oweControl -/

@[simp] theorem State.oweControl_link (s : State) : (s.oweControl).link = s.link := rfl
@[simp] theorem State.oweControl_ports (s : State) : (s.oweControl).ports = s.ports := rfl
@[simp] theorem State.oweControl_params (s : State) : (s.oweControl).params = s.params := rfl
@[simp] theorem State.oweControl_store (s : State) : (s.oweControl).store = s.store := rfl
@[simp] theorem State.oweControl_dispatch (s : State) : (s.oweControl).dispatch = s.dispatch := rfl
@[simp] theorem State.oweControl_desk (s : State) : (s.oweControl).desk = s.desk := rfl
@[simp] theorem State.oweControl_pool (s : State) : (s.oweControl).pool = s.pool := rfl
@[simp] theorem State.oweControl_loans (s : State) : (s.oweControl).loans = s.loans := rfl
@[simp] theorem State.oweControl_returns (s : State) : (s.oweControl).returns = s.returns := rfl
@[simp] theorem State.oweControl_zones (s : State) : (s.oweControl).zones = s.zones := rfl
@[simp] theorem State.oweControl_lines (s : State) : (s.oweControl).lines = s.lines := rfl
@[simp] theorem State.oweControl_outputs (s : State) : (s.oweControl).outputs = s.outputs := rfl
@[simp] theorem State.oweControl_mode (s : State) : (s.oweControl).mode = s.mode := rfl
@[simp] theorem State.oweControl_resets (s : State) : (s.oweControl).resets = s.resets := rfl
@[simp] theorem State.oweControl_now (s : State) : (s.oweControl).now = s.now := rfl
@[simp] theorem State.oweControl_floats (s : State) : (s.oweControl).floats = s.floats := rfl
@[simp] theorem State.oweControl_pending (s : State) : (s.oweControl).pending = s.pending := rfl
@[simp] theorem State.oweControl_addr (s : State) (x : Nat) : (s.oweControl).addr x = s.addr x := rfl
@[simp] theorem State.oweControl_treatDown (s : State) (x : Nat) : (s.oweControl).treatDown x = s.treatDown x := rfl
@[simp] theorem State.oweControl_treatUp (s : State) (x : Nat) : (s.oweControl).treatUp x = s.treatUp x := rfl
@[simp] theorem State.oweControl_counter (s : State) (x : Nat) : (s.oweControl).counter x = s.counter x := rfl
@[simp] theorem State.oweControl_aisle (s : State) (x : Nat) : (s.oweControl).aisle x = s.aisle x := rfl
@[simp] theorem State.oweControl_bin (s : State) (x : Nat) : (s.oweControl).bin x = s.bin x := rfl
@[simp] theorem State.oweControl_crane (s : State) (x : Nat) : (s.oweControl).crane x = s.crane x := rfl
@[simp] theorem State.oweControl_station (s : State) (x : Nat) : (s.oweControl).station x = s.station x := rfl
@[simp] theorem State.oweControl_order (s : State) (x : Nat) : (s.oweControl).order x = s.order x := rfl
@[simp] theorem State.oweControl_lift (s : State) (x : Nat) : (s.oweControl).lift x = s.lift x := rfl
@[simp] theorem State.oweControl_zone (s : State) (x : Nat) : (s.oweControl).zone x = s.zone x := rfl
@[simp] theorem State.oweControl_line (s : State) (x : Nat) : (s.oweControl).line x = s.line x := rfl
@[simp] theorem State.oweControl_pull (s : State) (x : Nat) : (s.oweControl).pull x = s.pull x := rfl
@[simp] theorem State.oweControl_item (s : State) (x : Nat) : (s.oweControl).item x = s.item x := rfl
@[simp] theorem State.oweControl_lendClass (s : State) (x : Nat) : (s.oweControl).lendClass x = s.lendClass x := rfl

/-! ## oweDrain -/

@[simp] theorem State.oweDrain_link (s : State) : (s.oweDrain).link = s.link := rfl
@[simp] theorem State.oweDrain_ports (s : State) : (s.oweDrain).ports = s.ports := rfl
@[simp] theorem State.oweDrain_params (s : State) : (s.oweDrain).params = s.params := rfl
@[simp] theorem State.oweDrain_store (s : State) : (s.oweDrain).store = s.store := rfl
@[simp] theorem State.oweDrain_dispatch (s : State) : (s.oweDrain).dispatch = s.dispatch := rfl
@[simp] theorem State.oweDrain_desk (s : State) : (s.oweDrain).desk = s.desk := rfl
@[simp] theorem State.oweDrain_pool (s : State) : (s.oweDrain).pool = s.pool := rfl
@[simp] theorem State.oweDrain_loans (s : State) : (s.oweDrain).loans = s.loans := rfl
@[simp] theorem State.oweDrain_returns (s : State) : (s.oweDrain).returns = s.returns := rfl
@[simp] theorem State.oweDrain_zones (s : State) : (s.oweDrain).zones = s.zones := rfl
@[simp] theorem State.oweDrain_lines (s : State) : (s.oweDrain).lines = s.lines := rfl
@[simp] theorem State.oweDrain_outputs (s : State) : (s.oweDrain).outputs = s.outputs := rfl
@[simp] theorem State.oweDrain_mode (s : State) : (s.oweDrain).mode = s.mode := rfl
@[simp] theorem State.oweDrain_resets (s : State) : (s.oweDrain).resets = s.resets := rfl
@[simp] theorem State.oweDrain_now (s : State) : (s.oweDrain).now = s.now := rfl
@[simp] theorem State.oweDrain_floats (s : State) : (s.oweDrain).floats = s.floats := rfl
@[simp] theorem State.oweDrain_pending (s : State) : (s.oweDrain).pending = s.pending := rfl
@[simp] theorem State.oweDrain_addr (s : State) (x : Nat) : (s.oweDrain).addr x = s.addr x := rfl
@[simp] theorem State.oweDrain_treatDown (s : State) (x : Nat) : (s.oweDrain).treatDown x = s.treatDown x := rfl
@[simp] theorem State.oweDrain_treatUp (s : State) (x : Nat) : (s.oweDrain).treatUp x = s.treatUp x := rfl
@[simp] theorem State.oweDrain_counter (s : State) (x : Nat) : (s.oweDrain).counter x = s.counter x := rfl
@[simp] theorem State.oweDrain_aisle (s : State) (x : Nat) : (s.oweDrain).aisle x = s.aisle x := rfl
@[simp] theorem State.oweDrain_bin (s : State) (x : Nat) : (s.oweDrain).bin x = s.bin x := rfl
@[simp] theorem State.oweDrain_crane (s : State) (x : Nat) : (s.oweDrain).crane x = s.crane x := rfl
@[simp] theorem State.oweDrain_station (s : State) (x : Nat) : (s.oweDrain).station x = s.station x := rfl
@[simp] theorem State.oweDrain_order (s : State) (x : Nat) : (s.oweDrain).order x = s.order x := rfl
@[simp] theorem State.oweDrain_lift (s : State) (x : Nat) : (s.oweDrain).lift x = s.lift x := rfl
@[simp] theorem State.oweDrain_zone (s : State) (x : Nat) : (s.oweDrain).zone x = s.zone x := rfl
@[simp] theorem State.oweDrain_line (s : State) (x : Nat) : (s.oweDrain).line x = s.line x := rfl
@[simp] theorem State.oweDrain_pull (s : State) (x : Nat) : (s.oweDrain).pull x = s.pull x := rfl
@[simp] theorem State.oweDrain_item (s : State) (x : Nat) : (s.oweDrain).item x = s.item x := rfl
@[simp] theorem State.oweDrain_lendClass (s : State) (x : Nat) : (s.oweDrain).lendClass x = s.lendClass x := rfl

/-! ## oweScan -/

@[simp] theorem State.oweScan_link (s : State) : (s.oweScan).link = s.link := rfl
@[simp] theorem State.oweScan_ports (s : State) : (s.oweScan).ports = s.ports := rfl
@[simp] theorem State.oweScan_params (s : State) : (s.oweScan).params = s.params := rfl
@[simp] theorem State.oweScan_store (s : State) : (s.oweScan).store = s.store := rfl
@[simp] theorem State.oweScan_dispatch (s : State) : (s.oweScan).dispatch = s.dispatch := rfl
@[simp] theorem State.oweScan_desk (s : State) : (s.oweScan).desk = s.desk := rfl
@[simp] theorem State.oweScan_pool (s : State) : (s.oweScan).pool = s.pool := rfl
@[simp] theorem State.oweScan_loans (s : State) : (s.oweScan).loans = s.loans := rfl
@[simp] theorem State.oweScan_returns (s : State) : (s.oweScan).returns = s.returns := rfl
@[simp] theorem State.oweScan_zones (s : State) : (s.oweScan).zones = s.zones := rfl
@[simp] theorem State.oweScan_lines (s : State) : (s.oweScan).lines = s.lines := rfl
@[simp] theorem State.oweScan_outputs (s : State) : (s.oweScan).outputs = s.outputs := rfl
@[simp] theorem State.oweScan_mode (s : State) : (s.oweScan).mode = s.mode := rfl
@[simp] theorem State.oweScan_resets (s : State) : (s.oweScan).resets = s.resets := rfl
@[simp] theorem State.oweScan_now (s : State) : (s.oweScan).now = s.now := rfl
@[simp] theorem State.oweScan_floats (s : State) : (s.oweScan).floats = s.floats := rfl
@[simp] theorem State.oweScan_pending (s : State) : (s.oweScan).pending = s.pending := rfl
@[simp] theorem State.oweScan_addr (s : State) (x : Nat) : (s.oweScan).addr x = s.addr x := rfl
@[simp] theorem State.oweScan_treatDown (s : State) (x : Nat) : (s.oweScan).treatDown x = s.treatDown x := rfl
@[simp] theorem State.oweScan_treatUp (s : State) (x : Nat) : (s.oweScan).treatUp x = s.treatUp x := rfl
@[simp] theorem State.oweScan_counter (s : State) (x : Nat) : (s.oweScan).counter x = s.counter x := rfl
@[simp] theorem State.oweScan_aisle (s : State) (x : Nat) : (s.oweScan).aisle x = s.aisle x := rfl
@[simp] theorem State.oweScan_bin (s : State) (x : Nat) : (s.oweScan).bin x = s.bin x := rfl
@[simp] theorem State.oweScan_crane (s : State) (x : Nat) : (s.oweScan).crane x = s.crane x := rfl
@[simp] theorem State.oweScan_station (s : State) (x : Nat) : (s.oweScan).station x = s.station x := rfl
@[simp] theorem State.oweScan_order (s : State) (x : Nat) : (s.oweScan).order x = s.order x := rfl
@[simp] theorem State.oweScan_lift (s : State) (x : Nat) : (s.oweScan).lift x = s.lift x := rfl
@[simp] theorem State.oweScan_zone (s : State) (x : Nat) : (s.oweScan).zone x = s.zone x := rfl
@[simp] theorem State.oweScan_line (s : State) (x : Nat) : (s.oweScan).line x = s.line x := rfl
@[simp] theorem State.oweScan_pull (s : State) (x : Nat) : (s.oweScan).pull x = s.pull x := rfl
@[simp] theorem State.oweScan_item (s : State) (x : Nat) : (s.oweScan).item x = s.item x := rfl
@[simp] theorem State.oweScan_lendClass (s : State) (x : Nat) : (s.oweScan).lendClass x = s.lendClass x := rfl

/-! ## oweAdmission -/

@[simp] theorem State.oweAdmission_link (s : State) : (s.oweAdmission).link = s.link := rfl
@[simp] theorem State.oweAdmission_ports (s : State) : (s.oweAdmission).ports = s.ports := rfl
@[simp] theorem State.oweAdmission_params (s : State) : (s.oweAdmission).params = s.params := rfl
@[simp] theorem State.oweAdmission_store (s : State) : (s.oweAdmission).store = s.store := rfl
@[simp] theorem State.oweAdmission_dispatch (s : State) : (s.oweAdmission).dispatch = s.dispatch := rfl
@[simp] theorem State.oweAdmission_desk (s : State) : (s.oweAdmission).desk = s.desk := rfl
@[simp] theorem State.oweAdmission_pool (s : State) : (s.oweAdmission).pool = s.pool := rfl
@[simp] theorem State.oweAdmission_loans (s : State) : (s.oweAdmission).loans = s.loans := rfl
@[simp] theorem State.oweAdmission_returns (s : State) : (s.oweAdmission).returns = s.returns := rfl
@[simp] theorem State.oweAdmission_zones (s : State) : (s.oweAdmission).zones = s.zones := rfl
@[simp] theorem State.oweAdmission_lines (s : State) : (s.oweAdmission).lines = s.lines := rfl
@[simp] theorem State.oweAdmission_outputs (s : State) : (s.oweAdmission).outputs = s.outputs := rfl
@[simp] theorem State.oweAdmission_mode (s : State) : (s.oweAdmission).mode = s.mode := rfl
@[simp] theorem State.oweAdmission_resets (s : State) : (s.oweAdmission).resets = s.resets := rfl
@[simp] theorem State.oweAdmission_now (s : State) : (s.oweAdmission).now = s.now := rfl
@[simp] theorem State.oweAdmission_floats (s : State) : (s.oweAdmission).floats = s.floats := rfl
@[simp] theorem State.oweAdmission_pending (s : State) : (s.oweAdmission).pending = s.pending := rfl
@[simp] theorem State.oweAdmission_addr (s : State) (x : Nat) : (s.oweAdmission).addr x = s.addr x := rfl
@[simp] theorem State.oweAdmission_treatDown (s : State) (x : Nat) : (s.oweAdmission).treatDown x = s.treatDown x := rfl
@[simp] theorem State.oweAdmission_treatUp (s : State) (x : Nat) : (s.oweAdmission).treatUp x = s.treatUp x := rfl
@[simp] theorem State.oweAdmission_counter (s : State) (x : Nat) : (s.oweAdmission).counter x = s.counter x := rfl
@[simp] theorem State.oweAdmission_aisle (s : State) (x : Nat) : (s.oweAdmission).aisle x = s.aisle x := rfl
@[simp] theorem State.oweAdmission_bin (s : State) (x : Nat) : (s.oweAdmission).bin x = s.bin x := rfl
@[simp] theorem State.oweAdmission_crane (s : State) (x : Nat) : (s.oweAdmission).crane x = s.crane x := rfl
@[simp] theorem State.oweAdmission_station (s : State) (x : Nat) : (s.oweAdmission).station x = s.station x := rfl
@[simp] theorem State.oweAdmission_order (s : State) (x : Nat) : (s.oweAdmission).order x = s.order x := rfl
@[simp] theorem State.oweAdmission_lift (s : State) (x : Nat) : (s.oweAdmission).lift x = s.lift x := rfl
@[simp] theorem State.oweAdmission_zone (s : State) (x : Nat) : (s.oweAdmission).zone x = s.zone x := rfl
@[simp] theorem State.oweAdmission_line (s : State) (x : Nat) : (s.oweAdmission).line x = s.line x := rfl
@[simp] theorem State.oweAdmission_pull (s : State) (x : Nat) : (s.oweAdmission).pull x = s.pull x := rfl
@[simp] theorem State.oweAdmission_item (s : State) (x : Nat) : (s.oweAdmission).item x = s.item x := rfl
@[simp] theorem State.oweAdmission_lendClass (s : State) (x : Nat) : (s.oweAdmission).lendClass x = s.lendClass x := rfl

/-! ## oweRestore -/

@[simp] theorem State.oweRestore_link (s : State) (t : RestoreTest) : (s.oweRestore t).link = s.link := rfl
@[simp] theorem State.oweRestore_ports (s : State) (t : RestoreTest) : (s.oweRestore t).ports = s.ports := rfl
@[simp] theorem State.oweRestore_params (s : State) (t : RestoreTest) : (s.oweRestore t).params = s.params := rfl
@[simp] theorem State.oweRestore_store (s : State) (t : RestoreTest) : (s.oweRestore t).store = s.store := rfl
@[simp] theorem State.oweRestore_dispatch (s : State) (t : RestoreTest) : (s.oweRestore t).dispatch = s.dispatch := rfl
@[simp] theorem State.oweRestore_desk (s : State) (t : RestoreTest) : (s.oweRestore t).desk = s.desk := rfl
@[simp] theorem State.oweRestore_pool (s : State) (t : RestoreTest) : (s.oweRestore t).pool = s.pool := rfl
@[simp] theorem State.oweRestore_loans (s : State) (t : RestoreTest) : (s.oweRestore t).loans = s.loans := rfl
@[simp] theorem State.oweRestore_returns (s : State) (t : RestoreTest) : (s.oweRestore t).returns = s.returns := rfl
@[simp] theorem State.oweRestore_zones (s : State) (t : RestoreTest) : (s.oweRestore t).zones = s.zones := rfl
@[simp] theorem State.oweRestore_lines (s : State) (t : RestoreTest) : (s.oweRestore t).lines = s.lines := rfl
@[simp] theorem State.oweRestore_outputs (s : State) (t : RestoreTest) : (s.oweRestore t).outputs = s.outputs := rfl
@[simp] theorem State.oweRestore_mode (s : State) (t : RestoreTest) : (s.oweRestore t).mode = s.mode := rfl
@[simp] theorem State.oweRestore_resets (s : State) (t : RestoreTest) : (s.oweRestore t).resets = s.resets := rfl
@[simp] theorem State.oweRestore_now (s : State) (t : RestoreTest) : (s.oweRestore t).now = s.now := rfl
@[simp] theorem State.oweRestore_floats (s : State) (t : RestoreTest) : (s.oweRestore t).floats = s.floats := rfl
@[simp] theorem State.oweRestore_pending (s : State) (t : RestoreTest) : (s.oweRestore t).pending = s.pending := rfl
@[simp] theorem State.oweRestore_addr (s : State) (t : RestoreTest) (x : Nat) : (s.oweRestore t).addr x = s.addr x := rfl
@[simp] theorem State.oweRestore_treatDown (s : State) (t : RestoreTest) (x : Nat) : (s.oweRestore t).treatDown x = s.treatDown x := rfl
@[simp] theorem State.oweRestore_treatUp (s : State) (t : RestoreTest) (x : Nat) : (s.oweRestore t).treatUp x = s.treatUp x := rfl
@[simp] theorem State.oweRestore_counter (s : State) (t : RestoreTest) (x : Nat) : (s.oweRestore t).counter x = s.counter x := rfl
@[simp] theorem State.oweRestore_aisle (s : State) (t : RestoreTest) (x : Nat) : (s.oweRestore t).aisle x = s.aisle x := rfl
@[simp] theorem State.oweRestore_bin (s : State) (t : RestoreTest) (x : Nat) : (s.oweRestore t).bin x = s.bin x := rfl
@[simp] theorem State.oweRestore_crane (s : State) (t : RestoreTest) (x : Nat) : (s.oweRestore t).crane x = s.crane x := rfl
@[simp] theorem State.oweRestore_station (s : State) (t : RestoreTest) (x : Nat) : (s.oweRestore t).station x = s.station x := rfl
@[simp] theorem State.oweRestore_order (s : State) (t : RestoreTest) (x : Nat) : (s.oweRestore t).order x = s.order x := rfl
@[simp] theorem State.oweRestore_lift (s : State) (t : RestoreTest) (x : Nat) : (s.oweRestore t).lift x = s.lift x := rfl
@[simp] theorem State.oweRestore_zone (s : State) (t : RestoreTest) (x : Nat) : (s.oweRestore t).zone x = s.zone x := rfl
@[simp] theorem State.oweRestore_line (s : State) (t : RestoreTest) (x : Nat) : (s.oweRestore t).line x = s.line x := rfl
@[simp] theorem State.oweRestore_pull (s : State) (t : RestoreTest) (x : Nat) : (s.oweRestore t).pull x = s.pull x := rfl
@[simp] theorem State.oweRestore_item (s : State) (t : RestoreTest) (x : Nat) : (s.oweRestore t).item x = s.item x := rfl
@[simp] theorem State.oweRestore_lendClass (s : State) (t : RestoreTest) (x : Nat) : (s.oweRestore t).lendClass x = s.lendClass x := rfl

/-! ## oweWaiting -/

@[simp] theorem State.oweWaiting_link (s : State) : (s.oweWaiting).link = s.link := rfl
@[simp] theorem State.oweWaiting_ports (s : State) : (s.oweWaiting).ports = s.ports := rfl
@[simp] theorem State.oweWaiting_params (s : State) : (s.oweWaiting).params = s.params := rfl
@[simp] theorem State.oweWaiting_store (s : State) : (s.oweWaiting).store = s.store := rfl
@[simp] theorem State.oweWaiting_dispatch (s : State) : (s.oweWaiting).dispatch = s.dispatch := rfl
@[simp] theorem State.oweWaiting_desk (s : State) : (s.oweWaiting).desk = s.desk := rfl
@[simp] theorem State.oweWaiting_pool (s : State) : (s.oweWaiting).pool = s.pool := rfl
@[simp] theorem State.oweWaiting_loans (s : State) : (s.oweWaiting).loans = s.loans := rfl
@[simp] theorem State.oweWaiting_returns (s : State) : (s.oweWaiting).returns = s.returns := rfl
@[simp] theorem State.oweWaiting_zones (s : State) : (s.oweWaiting).zones = s.zones := rfl
@[simp] theorem State.oweWaiting_lines (s : State) : (s.oweWaiting).lines = s.lines := rfl
@[simp] theorem State.oweWaiting_outputs (s : State) : (s.oweWaiting).outputs = s.outputs := rfl
@[simp] theorem State.oweWaiting_mode (s : State) : (s.oweWaiting).mode = s.mode := rfl
@[simp] theorem State.oweWaiting_resets (s : State) : (s.oweWaiting).resets = s.resets := rfl
@[simp] theorem State.oweWaiting_now (s : State) : (s.oweWaiting).now = s.now := rfl
@[simp] theorem State.oweWaiting_floats (s : State) : (s.oweWaiting).floats = s.floats := rfl
@[simp] theorem State.oweWaiting_pending (s : State) : (s.oweWaiting).pending = s.pending := rfl
@[simp] theorem State.oweWaiting_addr (s : State) (x : Nat) : (s.oweWaiting).addr x = s.addr x := rfl
@[simp] theorem State.oweWaiting_treatDown (s : State) (x : Nat) : (s.oweWaiting).treatDown x = s.treatDown x := rfl
@[simp] theorem State.oweWaiting_treatUp (s : State) (x : Nat) : (s.oweWaiting).treatUp x = s.treatUp x := rfl
@[simp] theorem State.oweWaiting_counter (s : State) (x : Nat) : (s.oweWaiting).counter x = s.counter x := rfl
@[simp] theorem State.oweWaiting_aisle (s : State) (x : Nat) : (s.oweWaiting).aisle x = s.aisle x := rfl
@[simp] theorem State.oweWaiting_bin (s : State) (x : Nat) : (s.oweWaiting).bin x = s.bin x := rfl
@[simp] theorem State.oweWaiting_crane (s : State) (x : Nat) : (s.oweWaiting).crane x = s.crane x := rfl
@[simp] theorem State.oweWaiting_station (s : State) (x : Nat) : (s.oweWaiting).station x = s.station x := rfl
@[simp] theorem State.oweWaiting_order (s : State) (x : Nat) : (s.oweWaiting).order x = s.order x := rfl
@[simp] theorem State.oweWaiting_lift (s : State) (x : Nat) : (s.oweWaiting).lift x = s.lift x := rfl
@[simp] theorem State.oweWaiting_zone (s : State) (x : Nat) : (s.oweWaiting).zone x = s.zone x := rfl
@[simp] theorem State.oweWaiting_line (s : State) (x : Nat) : (s.oweWaiting).line x = s.line x := rfl
@[simp] theorem State.oweWaiting_pull (s : State) (x : Nat) : (s.oweWaiting).pull x = s.pull x := rfl
@[simp] theorem State.oweWaiting_item (s : State) (x : Nat) : (s.oweWaiting).item x = s.item x := rfl
@[simp] theorem State.oweWaiting_lendClass (s : State) (x : Nat) : (s.oweWaiting).lendClass x = s.lendClass x := rfl

/-! ## oweHold -/

@[simp] theorem State.oweHold_link (s : State) : (s.oweHold).link = s.link := rfl
@[simp] theorem State.oweHold_ports (s : State) : (s.oweHold).ports = s.ports := rfl
@[simp] theorem State.oweHold_params (s : State) : (s.oweHold).params = s.params := rfl
@[simp] theorem State.oweHold_store (s : State) : (s.oweHold).store = s.store := rfl
@[simp] theorem State.oweHold_dispatch (s : State) : (s.oweHold).dispatch = s.dispatch := rfl
@[simp] theorem State.oweHold_desk (s : State) : (s.oweHold).desk = s.desk := rfl
@[simp] theorem State.oweHold_pool (s : State) : (s.oweHold).pool = s.pool := rfl
@[simp] theorem State.oweHold_loans (s : State) : (s.oweHold).loans = s.loans := rfl
@[simp] theorem State.oweHold_returns (s : State) : (s.oweHold).returns = s.returns := rfl
@[simp] theorem State.oweHold_zones (s : State) : (s.oweHold).zones = s.zones := rfl
@[simp] theorem State.oweHold_lines (s : State) : (s.oweHold).lines = s.lines := rfl
@[simp] theorem State.oweHold_outputs (s : State) : (s.oweHold).outputs = s.outputs := rfl
@[simp] theorem State.oweHold_mode (s : State) : (s.oweHold).mode = s.mode := rfl
@[simp] theorem State.oweHold_resets (s : State) : (s.oweHold).resets = s.resets := rfl
@[simp] theorem State.oweHold_now (s : State) : (s.oweHold).now = s.now := rfl
@[simp] theorem State.oweHold_floats (s : State) : (s.oweHold).floats = s.floats := rfl
@[simp] theorem State.oweHold_pending (s : State) : (s.oweHold).pending = s.pending := rfl
@[simp] theorem State.oweHold_addr (s : State) (x : Nat) : (s.oweHold).addr x = s.addr x := rfl
@[simp] theorem State.oweHold_treatDown (s : State) (x : Nat) : (s.oweHold).treatDown x = s.treatDown x := rfl
@[simp] theorem State.oweHold_treatUp (s : State) (x : Nat) : (s.oweHold).treatUp x = s.treatUp x := rfl
@[simp] theorem State.oweHold_counter (s : State) (x : Nat) : (s.oweHold).counter x = s.counter x := rfl
@[simp] theorem State.oweHold_aisle (s : State) (x : Nat) : (s.oweHold).aisle x = s.aisle x := rfl
@[simp] theorem State.oweHold_bin (s : State) (x : Nat) : (s.oweHold).bin x = s.bin x := rfl
@[simp] theorem State.oweHold_crane (s : State) (x : Nat) : (s.oweHold).crane x = s.crane x := rfl
@[simp] theorem State.oweHold_station (s : State) (x : Nat) : (s.oweHold).station x = s.station x := rfl
@[simp] theorem State.oweHold_order (s : State) (x : Nat) : (s.oweHold).order x = s.order x := rfl
@[simp] theorem State.oweHold_lift (s : State) (x : Nat) : (s.oweHold).lift x = s.lift x := rfl
@[simp] theorem State.oweHold_zone (s : State) (x : Nat) : (s.oweHold).zone x = s.zone x := rfl
@[simp] theorem State.oweHold_line (s : State) (x : Nat) : (s.oweHold).line x = s.line x := rfl
@[simp] theorem State.oweHold_pull (s : State) (x : Nat) : (s.oweHold).pull x = s.pull x := rfl
@[simp] theorem State.oweHold_item (s : State) (x : Nat) : (s.oweHold).item x = s.item x := rfl
@[simp] theorem State.oweHold_lendClass (s : State) (x : Nat) : (s.oweHold).lendClass x = s.lendClass x := rfl

/-! ## oweZone -/

@[simp] theorem State.oweZone_link (s : State) (z : Nat) : (s.oweZone z).link = s.link := rfl
@[simp] theorem State.oweZone_ports (s : State) (z : Nat) : (s.oweZone z).ports = s.ports := rfl
@[simp] theorem State.oweZone_params (s : State) (z : Nat) : (s.oweZone z).params = s.params := rfl
@[simp] theorem State.oweZone_store (s : State) (z : Nat) : (s.oweZone z).store = s.store := rfl
@[simp] theorem State.oweZone_dispatch (s : State) (z : Nat) : (s.oweZone z).dispatch = s.dispatch := rfl
@[simp] theorem State.oweZone_desk (s : State) (z : Nat) : (s.oweZone z).desk = s.desk := rfl
@[simp] theorem State.oweZone_pool (s : State) (z : Nat) : (s.oweZone z).pool = s.pool := rfl
@[simp] theorem State.oweZone_loans (s : State) (z : Nat) : (s.oweZone z).loans = s.loans := rfl
@[simp] theorem State.oweZone_returns (s : State) (z : Nat) : (s.oweZone z).returns = s.returns := rfl
@[simp] theorem State.oweZone_zones (s : State) (z : Nat) : (s.oweZone z).zones = s.zones := rfl
@[simp] theorem State.oweZone_lines (s : State) (z : Nat) : (s.oweZone z).lines = s.lines := rfl
@[simp] theorem State.oweZone_outputs (s : State) (z : Nat) : (s.oweZone z).outputs = s.outputs := rfl
@[simp] theorem State.oweZone_mode (s : State) (z : Nat) : (s.oweZone z).mode = s.mode := rfl
@[simp] theorem State.oweZone_resets (s : State) (z : Nat) : (s.oweZone z).resets = s.resets := rfl
@[simp] theorem State.oweZone_now (s : State) (z : Nat) : (s.oweZone z).now = s.now := rfl
@[simp] theorem State.oweZone_floats (s : State) (z : Nat) : (s.oweZone z).floats = s.floats := rfl
@[simp] theorem State.oweZone_pending (s : State) (z : Nat) : (s.oweZone z).pending = s.pending := rfl
@[simp] theorem State.oweZone_addr (s : State) (z : Nat) (x : Nat) : (s.oweZone z).addr x = s.addr x := rfl
@[simp] theorem State.oweZone_treatDown (s : State) (z : Nat) (x : Nat) : (s.oweZone z).treatDown x = s.treatDown x := rfl
@[simp] theorem State.oweZone_treatUp (s : State) (z : Nat) (x : Nat) : (s.oweZone z).treatUp x = s.treatUp x := rfl
@[simp] theorem State.oweZone_counter (s : State) (z : Nat) (x : Nat) : (s.oweZone z).counter x = s.counter x := rfl
@[simp] theorem State.oweZone_aisle (s : State) (z : Nat) (x : Nat) : (s.oweZone z).aisle x = s.aisle x := rfl
@[simp] theorem State.oweZone_bin (s : State) (z : Nat) (x : Nat) : (s.oweZone z).bin x = s.bin x := rfl
@[simp] theorem State.oweZone_crane (s : State) (z : Nat) (x : Nat) : (s.oweZone z).crane x = s.crane x := rfl
@[simp] theorem State.oweZone_station (s : State) (z : Nat) (x : Nat) : (s.oweZone z).station x = s.station x := rfl
@[simp] theorem State.oweZone_order (s : State) (z : Nat) (x : Nat) : (s.oweZone z).order x = s.order x := rfl
@[simp] theorem State.oweZone_lift (s : State) (z : Nat) (x : Nat) : (s.oweZone z).lift x = s.lift x := rfl
@[simp] theorem State.oweZone_zone (s : State) (z : Nat) (x : Nat) : (s.oweZone z).zone x = s.zone x := rfl
@[simp] theorem State.oweZone_line (s : State) (z : Nat) (x : Nat) : (s.oweZone z).line x = s.line x := rfl
@[simp] theorem State.oweZone_pull (s : State) (z : Nat) (x : Nat) : (s.oweZone z).pull x = s.pull x := rfl
@[simp] theorem State.oweZone_item (s : State) (z : Nat) (x : Nat) : (s.oweZone z).item x = s.item x := rfl
@[simp] theorem State.oweZone_lendClass (s : State) (z : Nat) (x : Nat) : (s.oweZone z).lendClass x = s.lendClass x := rfl

/-! ## oweMode -/

@[simp] theorem State.oweMode_link (s : State) : (s.oweMode).link = s.link := rfl
@[simp] theorem State.oweMode_ports (s : State) : (s.oweMode).ports = s.ports := rfl
@[simp] theorem State.oweMode_params (s : State) : (s.oweMode).params = s.params := rfl
@[simp] theorem State.oweMode_store (s : State) : (s.oweMode).store = s.store := rfl
@[simp] theorem State.oweMode_dispatch (s : State) : (s.oweMode).dispatch = s.dispatch := rfl
@[simp] theorem State.oweMode_desk (s : State) : (s.oweMode).desk = s.desk := rfl
@[simp] theorem State.oweMode_pool (s : State) : (s.oweMode).pool = s.pool := rfl
@[simp] theorem State.oweMode_loans (s : State) : (s.oweMode).loans = s.loans := rfl
@[simp] theorem State.oweMode_returns (s : State) : (s.oweMode).returns = s.returns := rfl
@[simp] theorem State.oweMode_zones (s : State) : (s.oweMode).zones = s.zones := rfl
@[simp] theorem State.oweMode_lines (s : State) : (s.oweMode).lines = s.lines := rfl
@[simp] theorem State.oweMode_outputs (s : State) : (s.oweMode).outputs = s.outputs := rfl
@[simp] theorem State.oweMode_mode (s : State) : (s.oweMode).mode = s.mode := rfl
@[simp] theorem State.oweMode_resets (s : State) : (s.oweMode).resets = s.resets := rfl
@[simp] theorem State.oweMode_now (s : State) : (s.oweMode).now = s.now := rfl
@[simp] theorem State.oweMode_floats (s : State) : (s.oweMode).floats = s.floats := rfl
@[simp] theorem State.oweMode_pending (s : State) : (s.oweMode).pending = s.pending := rfl
@[simp] theorem State.oweMode_addr (s : State) (x : Nat) : (s.oweMode).addr x = s.addr x := rfl
@[simp] theorem State.oweMode_treatDown (s : State) (x : Nat) : (s.oweMode).treatDown x = s.treatDown x := rfl
@[simp] theorem State.oweMode_treatUp (s : State) (x : Nat) : (s.oweMode).treatUp x = s.treatUp x := rfl
@[simp] theorem State.oweMode_counter (s : State) (x : Nat) : (s.oweMode).counter x = s.counter x := rfl
@[simp] theorem State.oweMode_aisle (s : State) (x : Nat) : (s.oweMode).aisle x = s.aisle x := rfl
@[simp] theorem State.oweMode_bin (s : State) (x : Nat) : (s.oweMode).bin x = s.bin x := rfl
@[simp] theorem State.oweMode_crane (s : State) (x : Nat) : (s.oweMode).crane x = s.crane x := rfl
@[simp] theorem State.oweMode_station (s : State) (x : Nat) : (s.oweMode).station x = s.station x := rfl
@[simp] theorem State.oweMode_order (s : State) (x : Nat) : (s.oweMode).order x = s.order x := rfl
@[simp] theorem State.oweMode_lift (s : State) (x : Nat) : (s.oweMode).lift x = s.lift x := rfl
@[simp] theorem State.oweMode_zone (s : State) (x : Nat) : (s.oweMode).zone x = s.zone x := rfl
@[simp] theorem State.oweMode_line (s : State) (x : Nat) : (s.oweMode).line x = s.line x := rfl
@[simp] theorem State.oweMode_pull (s : State) (x : Nat) : (s.oweMode).pull x = s.pull x := rfl
@[simp] theorem State.oweMode_item (s : State) (x : Nat) : (s.oweMode).item x = s.item x := rfl
@[simp] theorem State.oweMode_lendClass (s : State) (x : Nat) : (s.oweMode).lendClass x = s.lendClass x := rfl

/-! ## oweDrives -/

@[simp] theorem State.oweDrives_link (s : State) (xs : List Nat) : (s.oweDrives xs).link = s.link := rfl
@[simp] theorem State.oweDrives_ports (s : State) (xs : List Nat) : (s.oweDrives xs).ports = s.ports := rfl
@[simp] theorem State.oweDrives_params (s : State) (xs : List Nat) : (s.oweDrives xs).params = s.params := rfl
@[simp] theorem State.oweDrives_store (s : State) (xs : List Nat) : (s.oweDrives xs).store = s.store := rfl
@[simp] theorem State.oweDrives_dispatch (s : State) (xs : List Nat) : (s.oweDrives xs).dispatch = s.dispatch := rfl
@[simp] theorem State.oweDrives_desk (s : State) (xs : List Nat) : (s.oweDrives xs).desk = s.desk := rfl
@[simp] theorem State.oweDrives_pool (s : State) (xs : List Nat) : (s.oweDrives xs).pool = s.pool := rfl
@[simp] theorem State.oweDrives_loans (s : State) (xs : List Nat) : (s.oweDrives xs).loans = s.loans := rfl
@[simp] theorem State.oweDrives_returns (s : State) (xs : List Nat) : (s.oweDrives xs).returns = s.returns := rfl
@[simp] theorem State.oweDrives_zones (s : State) (xs : List Nat) : (s.oweDrives xs).zones = s.zones := rfl
@[simp] theorem State.oweDrives_lines (s : State) (xs : List Nat) : (s.oweDrives xs).lines = s.lines := rfl
@[simp] theorem State.oweDrives_outputs (s : State) (xs : List Nat) : (s.oweDrives xs).outputs = s.outputs := rfl
@[simp] theorem State.oweDrives_mode (s : State) (xs : List Nat) : (s.oweDrives xs).mode = s.mode := rfl
@[simp] theorem State.oweDrives_resets (s : State) (xs : List Nat) : (s.oweDrives xs).resets = s.resets := rfl
@[simp] theorem State.oweDrives_now (s : State) (xs : List Nat) : (s.oweDrives xs).now = s.now := rfl
@[simp] theorem State.oweDrives_floats (s : State) (xs : List Nat) : (s.oweDrives xs).floats = s.floats := rfl
@[simp] theorem State.oweDrives_pending (s : State) (xs : List Nat) : (s.oweDrives xs).pending = s.pending := rfl
@[simp] theorem State.oweDrives_addr (s : State) (xs : List Nat) (x : Nat) : (s.oweDrives xs).addr x = s.addr x := rfl
@[simp] theorem State.oweDrives_treatDown (s : State) (xs : List Nat) (x : Nat) : (s.oweDrives xs).treatDown x = s.treatDown x := rfl
@[simp] theorem State.oweDrives_treatUp (s : State) (xs : List Nat) (x : Nat) : (s.oweDrives xs).treatUp x = s.treatUp x := rfl
@[simp] theorem State.oweDrives_counter (s : State) (xs : List Nat) (x : Nat) : (s.oweDrives xs).counter x = s.counter x := rfl
@[simp] theorem State.oweDrives_aisle (s : State) (xs : List Nat) (x : Nat) : (s.oweDrives xs).aisle x = s.aisle x := rfl
@[simp] theorem State.oweDrives_bin (s : State) (xs : List Nat) (x : Nat) : (s.oweDrives xs).bin x = s.bin x := rfl
@[simp] theorem State.oweDrives_crane (s : State) (xs : List Nat) (x : Nat) : (s.oweDrives xs).crane x = s.crane x := rfl
@[simp] theorem State.oweDrives_station (s : State) (xs : List Nat) (x : Nat) : (s.oweDrives xs).station x = s.station x := rfl
@[simp] theorem State.oweDrives_order (s : State) (xs : List Nat) (x : Nat) : (s.oweDrives xs).order x = s.order x := rfl
@[simp] theorem State.oweDrives_lift (s : State) (xs : List Nat) (x : Nat) : (s.oweDrives xs).lift x = s.lift x := rfl
@[simp] theorem State.oweDrives_zone (s : State) (xs : List Nat) (x : Nat) : (s.oweDrives xs).zone x = s.zone x := rfl
@[simp] theorem State.oweDrives_line (s : State) (xs : List Nat) (x : Nat) : (s.oweDrives xs).line x = s.line x := rfl
@[simp] theorem State.oweDrives_pull (s : State) (xs : List Nat) (x : Nat) : (s.oweDrives xs).pull x = s.pull x := rfl
@[simp] theorem State.oweDrives_item (s : State) (xs : List Nat) (x : Nat) : (s.oweDrives xs).item x = s.item x := rfl
@[simp] theorem State.oweDrives_lendClass (s : State) (xs : List Nat) (x : Nat) : (s.oweDrives xs).lendClass x = s.lendClass x := rfl

/-! ## recordsFreed -/

@[simp] theorem State.recordsFreed_link (s : State) : (s.recordsFreed).link = s.link := rfl
@[simp] theorem State.recordsFreed_ports (s : State) : (s.recordsFreed).ports = s.ports := rfl
@[simp] theorem State.recordsFreed_params (s : State) : (s.recordsFreed).params = s.params := rfl
@[simp] theorem State.recordsFreed_store (s : State) : (s.recordsFreed).store = s.store := rfl
@[simp] theorem State.recordsFreed_dispatch (s : State) : (s.recordsFreed).dispatch = s.dispatch := rfl
@[simp] theorem State.recordsFreed_desk (s : State) : (s.recordsFreed).desk = s.desk := rfl
@[simp] theorem State.recordsFreed_pool (s : State) : (s.recordsFreed).pool = s.pool := rfl
@[simp] theorem State.recordsFreed_loans (s : State) : (s.recordsFreed).loans = s.loans := rfl
@[simp] theorem State.recordsFreed_returns (s : State) : (s.recordsFreed).returns = s.returns := rfl
@[simp] theorem State.recordsFreed_zones (s : State) : (s.recordsFreed).zones = s.zones := rfl
@[simp] theorem State.recordsFreed_lines (s : State) : (s.recordsFreed).lines = s.lines := rfl
@[simp] theorem State.recordsFreed_outputs (s : State) : (s.recordsFreed).outputs = s.outputs := rfl
@[simp] theorem State.recordsFreed_mode (s : State) : (s.recordsFreed).mode = s.mode := rfl
@[simp] theorem State.recordsFreed_resets (s : State) : (s.recordsFreed).resets = s.resets := rfl
@[simp] theorem State.recordsFreed_now (s : State) : (s.recordsFreed).now = s.now := rfl
@[simp] theorem State.recordsFreed_floats (s : State) : (s.recordsFreed).floats = s.floats := rfl
@[simp] theorem State.recordsFreed_pending (s : State) : (s.recordsFreed).pending = s.pending := rfl
@[simp] theorem State.recordsFreed_addr (s : State) (x : Nat) : (s.recordsFreed).addr x = s.addr x := rfl
@[simp] theorem State.recordsFreed_treatDown (s : State) (x : Nat) : (s.recordsFreed).treatDown x = s.treatDown x := rfl
@[simp] theorem State.recordsFreed_treatUp (s : State) (x : Nat) : (s.recordsFreed).treatUp x = s.treatUp x := rfl
@[simp] theorem State.recordsFreed_counter (s : State) (x : Nat) : (s.recordsFreed).counter x = s.counter x := rfl
@[simp] theorem State.recordsFreed_aisle (s : State) (x : Nat) : (s.recordsFreed).aisle x = s.aisle x := rfl
@[simp] theorem State.recordsFreed_bin (s : State) (x : Nat) : (s.recordsFreed).bin x = s.bin x := rfl
@[simp] theorem State.recordsFreed_crane (s : State) (x : Nat) : (s.recordsFreed).crane x = s.crane x := rfl
@[simp] theorem State.recordsFreed_station (s : State) (x : Nat) : (s.recordsFreed).station x = s.station x := rfl
@[simp] theorem State.recordsFreed_order (s : State) (x : Nat) : (s.recordsFreed).order x = s.order x := rfl
@[simp] theorem State.recordsFreed_lift (s : State) (x : Nat) : (s.recordsFreed).lift x = s.lift x := rfl
@[simp] theorem State.recordsFreed_zone (s : State) (x : Nat) : (s.recordsFreed).zone x = s.zone x := rfl
@[simp] theorem State.recordsFreed_line (s : State) (x : Nat) : (s.recordsFreed).line x = s.line x := rfl
@[simp] theorem State.recordsFreed_pull (s : State) (x : Nat) : (s.recordsFreed).pull x = s.pull x := rfl
@[simp] theorem State.recordsFreed_item (s : State) (x : Nat) : (s.recordsFreed).item x = s.item x := rfl
@[simp] theorem State.recordsFreed_lendClass (s : State) (x : Nat) : (s.recordsFreed).lendClass x = s.lendClass x := rfl

/-! ## untimed -/

@[simp] theorem State.untimed_link (s : State) : (s.untimed).link = s.link := rfl
@[simp] theorem State.untimed_ports (s : State) : (s.untimed).ports = s.ports := rfl
@[simp] theorem State.untimed_params (s : State) : (s.untimed).params = s.params := rfl
@[simp] theorem State.untimed_store (s : State) : (s.untimed).store = s.store := rfl
@[simp] theorem State.untimed_loans (s : State) : (s.untimed).loans = s.loans := rfl
@[simp] theorem State.untimed_outputs (s : State) : (s.untimed).outputs = s.outputs := rfl
@[simp] theorem State.untimed_resets (s : State) : (s.untimed).resets = s.resets := rfl
@[simp] theorem State.untimed_now (s : State) : (s.untimed).now = s.now := rfl
@[simp] theorem State.untimed_floats (s : State) : (s.untimed).floats = s.floats := rfl
@[simp] theorem State.untimed_work (s : State) : (s.untimed).work = s.work := rfl
@[simp] theorem State.untimed_pending (s : State) : (s.untimed).pending = s.pending := rfl
@[simp] theorem State.untimed_addr (s : State) (x : Nat) : (s.untimed).addr x = s.addr x := rfl
@[simp] theorem State.untimed_treatDown (s : State) (x : Nat) : (s.untimed).treatDown x = s.treatDown x := rfl
@[simp] theorem State.untimed_treatUp (s : State) (x : Nat) : (s.untimed).treatUp x = s.treatUp x := rfl
@[simp] theorem State.untimed_counter (s : State) (x : Nat) : (s.untimed).counter x = s.counter x := rfl
@[simp] theorem State.untimed_aisle (s : State) (x : Nat) : (s.untimed).aisle x = s.aisle x := rfl
@[simp] theorem State.untimed_bin (s : State) (x : Nat) : (s.untimed).bin x = s.bin x := rfl
@[simp] theorem State.untimed_item (s : State) (x : Nat) : (s.untimed).item x = s.item x := rfl
@[simp] theorem State.untimed_lendClass (s : State) (x : Nat) : (s.untimed).lendClass x = s.lendClass x := rfl

/-! ## suspend -/

@[simp] theorem State.suspend_link (s : State) : (s.suspend).link = s.link := rfl
@[simp] theorem State.suspend_params (s : State) : (s.suspend).params = s.params := rfl
@[simp] theorem State.suspend_store (s : State) : (s.suspend).store = s.store := rfl
@[simp] theorem State.suspend_loans (s : State) : (s.suspend).loans = s.loans := rfl
@[simp] theorem State.suspend_outputs (s : State) : (s.suspend).outputs = s.outputs := rfl
@[simp] theorem State.suspend_now (s : State) : (s.suspend).now = s.now := rfl
@[simp] theorem State.suspend_floats (s : State) : (s.suspend).floats = s.floats := rfl
@[simp] theorem State.suspend_work (s : State) : (s.suspend).work = s.work := rfl
@[simp] theorem State.suspend_pending (s : State) : (s.suspend).pending = s.pending := rfl
@[simp] theorem State.suspend_addr (s : State) (x : Nat) : (s.suspend).addr x = s.addr x := rfl
@[simp] theorem State.suspend_treatDown (s : State) (x : Nat) : (s.suspend).treatDown x = s.treatDown x := rfl
@[simp] theorem State.suspend_treatUp (s : State) (x : Nat) : (s.suspend).treatUp x = s.treatUp x := rfl
@[simp] theorem State.suspend_counter (s : State) (x : Nat) : (s.suspend).counter x = s.counter x := rfl
@[simp] theorem State.suspend_aisle (s : State) (x : Nat) : (s.suspend).aisle x = s.aisle x := rfl
@[simp] theorem State.suspend_bin (s : State) (x : Nat) : (s.suspend).bin x = s.bin x := rfl
@[simp] theorem State.suspend_item (s : State) (x : Nat) : (s.suspend).item x = s.item x := rfl
@[simp] theorem State.suspend_lendClass (s : State) (x : Nat) : (s.suspend).lendClass x = s.lendClass x := rfl

/-! ## beginReset -/

@[simp] theorem State.beginReset_link (s : State) (r : ResetRecord) (e : Option Nat) : (s.beginReset r e).link = s.link := rfl
@[simp] theorem State.beginReset_params (s : State) (r : ResetRecord) (e : Option Nat) : (s.beginReset r e).params = s.params := rfl
@[simp] theorem State.beginReset_store (s : State) (r : ResetRecord) (e : Option Nat) : (s.beginReset r e).store = s.store := rfl
@[simp] theorem State.beginReset_loans (s : State) (r : ResetRecord) (e : Option Nat) : (s.beginReset r e).loans = s.loans := rfl
@[simp] theorem State.beginReset_now (s : State) (r : ResetRecord) (e : Option Nat) : (s.beginReset r e).now = s.now := rfl
@[simp] theorem State.beginReset_floats (s : State) (r : ResetRecord) (e : Option Nat) : (s.beginReset r e).floats = s.floats := rfl
@[simp] theorem State.beginReset_work (s : State) (r : ResetRecord) (e : Option Nat) : (s.beginReset r e).work = s.work := rfl
@[simp] theorem State.beginReset_pending (s : State) (r : ResetRecord) (e : Option Nat) : (s.beginReset r e).pending = s.pending := rfl
@[simp] theorem State.beginReset_addr (s : State) (r : ResetRecord) (e : Option Nat) (x : Nat) : (s.beginReset r e).addr x = s.addr x := rfl
@[simp] theorem State.beginReset_treatDown (s : State) (r : ResetRecord) (e : Option Nat) (x : Nat) : (s.beginReset r e).treatDown x = s.treatDown x := rfl
@[simp] theorem State.beginReset_treatUp (s : State) (r : ResetRecord) (e : Option Nat) (x : Nat) : (s.beginReset r e).treatUp x = s.treatUp x := rfl
@[simp] theorem State.beginReset_counter (s : State) (r : ResetRecord) (e : Option Nat) (x : Nat) : (s.beginReset r e).counter x = s.counter x := rfl
@[simp] theorem State.beginReset_aisle (s : State) (r : ResetRecord) (e : Option Nat) (x : Nat) : (s.beginReset r e).aisle x = s.aisle x := rfl
@[simp] theorem State.beginReset_bin (s : State) (r : ResetRecord) (e : Option Nat) (x : Nat) : (s.beginReset r e).bin x = s.bin x := rfl
@[simp] theorem State.beginReset_item (s : State) (r : ResetRecord) (e : Option Nat) (x : Nat) : (s.beginReset r e).item x = s.item x := rfl
@[simp] theorem State.beginReset_lendClass (s : State) (r : ResetRecord) (e : Option Nat) (x : Nat) : (s.beginReset r e).lendClass x = s.lendClass x := rfl

/-! ## What a reset or RESTART does to the ports, the outputs and the course of resets -/

@[simp] theorem State.suspend_ports (s : State) : s.suspend.ports = { s.ports with dQueue := [] } := rfl
@[simp] theorem State.suspend_resets (s : State) : s.suspend.resets = { s.resets with phase := .restarting } := rfl
@[simp] theorem State.beginReset_ports (s : State) (r : ResetRecord) (e : Option Nat) :
    (s.beginReset r e).ports = s.ports.emptied := rfl
@[simp] theorem State.beginReset_outputs (s : State) (r : ResetRecord) (e : Option Nat) :
    (s.beginReset r e).outputs = { s.outputs with drives := [] } := rfl
@[simp] theorem State.beginReset_resets (s : State) (r : ResetRecord) (e : Option Nat) :
    (s.beginReset r e).resets = { s.resets with phase := .resetting, ending := e, record := r } := rfl

end Sys2Proof.Machine
end

