-- ==== Sys2Proof/Laws/Units.lean ====
section
/-! SUPPORT. The laws of the records of one unit: what a record reads as after the record of the same kind is
written. A record that may become its default value needs a table in order. -/

namespace Sys2Proof.Machine

/-! ## Bins -/

@[simp] theorem State.putBin_bin (s : State) (b c : Nat) (r : Bin) :
    (s.putBin b r).bin c = if c = b then some r else s.bin c := Tab.find_put s.store.bins b c r

@[simp] theorem State.modBin_bin (s : State) (b c : Nat) (f : Bin → Bin) :
    (s.modBin b f).bin c = if c = b then (s.bin b).map f else s.bin c := by
  unfold State.modBin
  split
  · rename_i r h; rw [State.putBin_bin]; simp [h]
  · rename_i h; split <;> simp_all

@[simp] theorem State.setBinState_bin (s : State) (b c : Nat) (st : BinState) :
    (s.setBinState b st).bin c = if c = b then (s.bin b).map (fun r => { r with state := st }) else s.bin c :=
  s.modBin_bin b c _

theorem State.delBin_bin (s : State) (b c : Nat) (h : s.store.bins.wf) :
    (s.delBin b).bin c = if c = b then none else s.bin c := Tab.find_del s.store.bins b c h

/-! ## Records read by index -/

theorem State.modCrane_crane (s : State) (a b : Nat) (f : Crane → Crane) (h : s.dispatch.cranes.wf) :
    (s.modCrane a f).crane b = if b = a then f (s.crane a) else s.crane b := Tab.get_set _ _ _ _ _ h

theorem State.modCrane_crane_ne (s : State) (a b : Nat) (f : Crane → Crane) (h : b ≠ a) :
    (s.modCrane a f).crane b = s.crane b := Tab.get_set_ne _ _ _ _ _ h

theorem State.modStation_station (s : State) (a b : Nat) (f : Station → Station) (h : s.desk.stations.wf) :
    (s.modStation a f).station b = if b = a then f (s.station a) else s.station b := Tab.get_set _ _ _ _ _ h

theorem State.modStation_station_ne (s : State) (a b : Nat) (f : Station → Station) (h : b ≠ a) :
    (s.modStation a f).station b = s.station b := Tab.get_set_ne _ _ _ _ _ h

theorem State.modLift_lift (s : State) (a b : Nat) (f : Lift → Lift) (h : s.pool.lifts.wf) :
    (s.modLift a f).lift b = if b = a then f (s.lift a) else s.lift b := Tab.get_set _ _ _ _ _ h

theorem State.modLift_lift_ne (s : State) (a b : Nat) (f : Lift → Lift) (h : b ≠ a) :
    (s.modLift a f).lift b = s.lift b := Tab.get_set_ne _ _ _ _ _ h

theorem State.modZone_zone (s : State) (a b : Nat) (f : Zone → Zone) (h : s.zones.wf) :
    (s.modZone a f).zone b = if b = a then f (s.zone a) else s.zone b := Tab.get_set _ _ _ _ _ h

theorem State.modZone_zone_ne (s : State) (a b : Nat) (f : Zone → Zone) (h : b ≠ a) :
    (s.modZone a f).zone b = s.zone b := Tab.get_set_ne _ _ _ _ _ h

theorem State.modLine_line (s : State) (a b : Nat) (f : Line → Line) (h : s.lines.lines.wf) :
    (s.modLine a f).line b = if b = a then f (s.line a) else s.line b := Tab.get_set _ _ _ _ _ h

theorem State.modLine_line_ne (s : State) (a b : Nat) (f : Line → Line) (h : b ≠ a) :
    (s.modLine a f).line b = s.line b := Tab.get_set_ne _ _ _ _ _ h

theorem State.setAisle_aisle (s : State) (a b : Nat) (r : Aisle) (h : s.store.aisles.wf) :
    (s.setAisle a r).aisle b = if b = a then r else s.aisle b := Tab.get_set _ _ _ _ _ h

theorem State.setAddr_addr (s : State) (a b : Nat) (e : AddrEntry) (h : s.link.addresses.wf) :
    (s.setAddr a e).addr b = if b = a then e else s.addr b := Tab.get_set _ _ _ _ _ h

theorem State.setCounter_counter (s : State) (i j v : Nat) (h : s.link.counters.wf) :
    (s.setCounter i v).counter j = if j = i then v else s.counter j := Tab.get_set _ _ _ _ _ h

theorem State.setCounter_counter_ne (s : State) (i j v : Nat) (h : j ≠ i) :
    (s.setCounter i v).counter j = s.counter j := Tab.get_set_ne _ _ _ _ _ h

/-- A raised counter has risen by one unless it stood at its top (R14). -/
theorem State.raise_counter (s : State) (i j : Nat) (h : s.link.counters.wf) :
    (s.raise i).counter j = if j = i then countUp (s.counter i) else s.counter j :=
  s.setCounter_counter i j _ h

theorem State.setPull_pull (s : State) (g k : Nat) (p : Pull) (h : s.lines.pulls.wf) :
    (s.setPull g p).pull k = if k = g then p else s.pull k := Tab.get_set _ _ _ _ _ h

theorem State.setLendClass_lendClass (s : State) (c k : Nat) (r : ClassRecord) (h : s.loans.classes.wf) :
    (s.setLendClass c r).lendClass k = if k = c then r else s.lendClass k := Tab.get_set _ _ _ _ _ h

/-! ## Items and orders -/

@[simp] theorem State.putItem_item (s : State) (t k : Nat) (e : Item) :
    (s.putItem t e).item k = if k = t then some e else s.item k := Tab.find_put s.loans.items t k e

@[simp] theorem State.createItem_item (s : State) (t k : Nat) (e : Item) :
    (s.createItem t e).item k = if k = t then some e else s.item k := by simp [State.createItem]

theorem State.delItem_item (s : State) (t k : Nat) (h : s.loans.items.wf) :
    (s.delItem t).item k = if k = t then none else s.item k := Tab.find_del s.loans.items t k h

theorem State.removeItem_item (s : State) (t k : Nat) (h : s.loans.items.wf) :
    (s.removeItem t).item k = if k = t then none else s.item k := by
  unfold State.removeItem
  split
  · rw [State.modBin_item, s.delItem_item t k h]
  · split <;> simp_all

/-- An order read after a change of orders that keeps the number of the changed one. -/
theorem State.modOrder_order (s : State) (num k : Nat) (f : Order → Order) (hf : ∀ o, (f o).number = o.number) :
    (s.modOrder num f).order k = (s.order k).map fun o => if o.number = num then f o else o := by
  have hg : ∀ o : Order, (if o.number = num then f o else o).number = o.number := by
    intro o; split <;> simp [hf]
  unfold State.order State.modOrder
  rw [State.modDesk_desk]
  generalize s.desk.orders = t
  induction t with
  | nil => rfl
  | cons p t ih =>
    simp only [Tab.mapVals, List.map_cons, List.find?_cons] at ih ⊢
    rw [hg]
    by_cases hk : p.2.number = k
    · simp [hk]
    · simp only [hk, decide_false]; exact ih

/-- The order that a number names has that number. -/
theorem State.order_number (s : State) (k : Nat) (o : Order) (h : s.order k = some o) : o.number = k := by
  unfold State.order at h
  rw [Option.map_eq_some_iff] at h
  obtain ⟨p, hp, rfl⟩ := h
  simpa using List.find?_some hp

/-- An order read after a change of one of its members. -/
theorem State.modMember_order (s : State) (r : MemberRef) (f : Member → Member) (k : Nat) :
    (s.modMember r f).order k = (s.order k).map fun p =>
      if k = r.order then { p with members := p.members.modify r.pos f } else p := by
  rw [State.modMember, State.modOrder_order s r.order k _ (by intro o; rfl)]
  cases h : s.order k with
  | none => rfl
  | some o => simp [s.order_number k o h]

/-! ## Addresses -/

/-- The address of a unit is one whose entry names it, and there is none where no entry does (R8). -/
theorem addressOf_cases {s : State} (h : s.link.addresses.wf) {v : AddrEntry} (hv : v ≠ .none) :
    (∃ a, addressOf v s.link.addresses = some a ∧ s.addr a = v) ∨
      (addressOf v s.link.addresses = none ∧ ∀ a, s.addr a ≠ v) := by
  have key (a : Nat) : s.addr a = v ↔ (a, v) ∈ s.link.addresses := by
    rw [← Tab.find_eq_some h, State.addr, Tab.get]
    cases s.link.addresses.find a <;> simp [hv.symm]
  rw [addressOf]
  cases e : s.link.addresses.find? fun p => p.2 = v with
  | none =>
    refine .inr ⟨rfl, fun a ha => ?_⟩
    simpa using List.find?_eq_none.1 e _ ((key a).1 ha)
  | some p =>
    obtain ⟨a, w⟩ := p
    obtain rfl : w = v := by simpa using List.find?_some e
    exact .inl ⟨a, rfl, (key a).2 (List.mem_of_find?_eq_some e)⟩

/-- A record's sizes are held exactly where it would change one of them while a list of the aisle holds a bin (R60). -/
theorem State.sizesHeld_iff (s : State) (a : Nat) (r : Aisle) : s.sizesHeld a r = true ↔
    (r.frontSize ≠ (s.aisle a).frontSize ∨ r.infeedSize ≠ (s.aisle a).infeedSize) ∧
      ((s.crane a).front ≠ [] ∨ (s.crane a).infeed ≠ []) := by
  simp [State.sizesHeld]

/-- A record that passes the tests of R27 leaves neither list of its aisle over its size (R60). -/
theorem State.aisleRefusal_fits {s : State} {a : Nat} {r : Aisle} (h : s.aisleRefusal a r = none)
    (hf : (s.crane a).front.length ≤ (s.aisle a).frontSize) (hi : (s.crane a).infeed.length ≤ (s.aisle a).infeedSize) :
    (s.crane a).front.length ≤ r.frontSize ∧ (s.crane a).infeed.length ≤ r.infeedSize := by
  unfold State.aisleRefusal at h
  split at h
  · rename_i e
    simp only [Aisle.shape, List.cons.injEq] at e
    omega
  · split at h
    · cases h
    · rename_i e
      have e' : s.sizesHeld a r = false := by simp_all
      have := (s.sizesHeld_iff a r).not.1 (by simp [e'])
      by_cases c : r.frontSize = (s.aisle a).frontSize ∧ r.infeedSize = (s.aisle a).infeedSize
      · omega
      · have : (s.crane a).front = [] ∧ (s.crane a).infeed = [] := by grind
        simp [this]

end Sys2Proof.Machine
end

