-- ==== Sys2Proof/Laws/Events.lean ====
section
/-! SUPPORT. The laws of the send queues and of the closing of an event: what a hand-over changes, which
telegrams stay queued, that the queues stay bounded, and what an event leaves of the state it came to. -/

namespace Sys2Proof.Machine

/-! ## The queues -/

/-- A discard takes one telegram. -/
theorem dropNewest_length (q r : List Queued) (h : dropNewest q = some r) : r.length + 1 = q.length := by
  fun_induction dropNewest q generalizing r <;> grind

/-- A discard takes no kept telegram. -/
theorem dropNewest_kept (q r : List Queued) (h : dropNewest q = some r) (x : Queued) (hx : x ∈ q)
    (hk : x.cls.discardable = false) : x ∈ r := by
  fun_induction dropNewest q generalizing r <;> grind

/-- A hand-over leaves at most 64 telegrams, unless the queue was longer already (R7). -/
theorem enqueue_length (q : List Queued) (x : Queued) (h : q.length ≤ Config.queueCapacity) :
    (enqueue q x).1.length ≤ Config.queueCapacity := by
  have := dropNewest_length q
  grind [enqueue]

/-- A kept telegram in a queue stays in it through a hand-over (R7). -/
theorem enqueue_kept (q : List Queued) (x y : Queued) (hy : y ∈ q) (hk : y.cls.discardable = false) :
    y ∈ (enqueue q x).1 := by
  have := dropNewest_kept q
  grind [enqueue]

/-- A telegram handed to a queue with room is queued (R7). -/
theorem enqueue_room (q : List Queued) (x : Queued) (h : q.length < Config.queueCapacity) :
    enqueue q x = (q ++ [x], false) := by
  unfold enqueue
  rw [if_pos h]

/-! ## Hand-overs -/

/-- What a hand-over leaves alone: everything but the ports and the two overflow counters. -/
structure Handed (s t : State) : Prop where
  rest : t = { s with ports := t.ports, link := { s.link with counters := t.link.counters } }
  counters : ∀ i, i ≠ 10 → i ≠ 11 → t.counter i = s.counter i

theorem Handed.addresses {s t : State} (h : Handed s t) : t.link.addresses = s.link.addresses :=
  (congrArg (fun u : State => u.link.addresses) h.rest :)

theorem Handed.trafficDown {s t : State} (h : Handed s t) : t.link.trafficDown = s.link.trafficDown :=
  (congrArg (fun u : State => u.link.trafficDown) h.rest :)

theorem Handed.trafficUp {s t : State} (h : Handed s t) : t.link.trafficUp = s.link.trafficUp :=
  (congrArg (fun u : State => u.link.trafficUp) h.rest :)

theorem Handed.params {s t : State} (h : Handed s t) : t.params = s.params :=
  (congrArg (fun u : State => u.params) h.rest :)

theorem Handed.store {s t : State} (h : Handed s t) : t.store = s.store :=
  (congrArg (fun u : State => u.store) h.rest :)

theorem Handed.dispatch {s t : State} (h : Handed s t) : t.dispatch = s.dispatch :=
  (congrArg (fun u : State => u.dispatch) h.rest :)

theorem Handed.desk {s t : State} (h : Handed s t) : t.desk = s.desk :=
  (congrArg (fun u : State => u.desk) h.rest :)

theorem Handed.pool {s t : State} (h : Handed s t) : t.pool = s.pool :=
  (congrArg (fun u : State => u.pool) h.rest :)

theorem Handed.loans {s t : State} (h : Handed s t) : t.loans = s.loans :=
  (congrArg (fun u : State => u.loans) h.rest :)

theorem Handed.returns {s t : State} (h : Handed s t) : t.returns = s.returns :=
  (congrArg (fun u : State => u.returns) h.rest :)

theorem Handed.zones {s t : State} (h : Handed s t) : t.zones = s.zones :=
  (congrArg (fun u : State => u.zones) h.rest :)

theorem Handed.lines {s t : State} (h : Handed s t) : t.lines = s.lines :=
  (congrArg (fun u : State => u.lines) h.rest :)

theorem Handed.outputs {s t : State} (h : Handed s t) : t.outputs = s.outputs :=
  (congrArg (fun u : State => u.outputs) h.rest :)

theorem Handed.mode {s t : State} (h : Handed s t) : t.mode = s.mode :=
  (congrArg (fun u : State => u.mode) h.rest :)

theorem Handed.resets {s t : State} (h : Handed s t) : t.resets = s.resets :=
  (congrArg (fun u : State => u.resets) h.rest :)

theorem Handed.now {s t : State} (h : Handed s t) : t.now = s.now :=
  (congrArg (fun u : State => u.now) h.rest :)

theorem Handed.floats {s t : State} (h : Handed s t) : t.floats = s.floats :=
  (congrArg (fun u : State => u.floats) h.rest :)

theorem Handed.work {s t : State} (h : Handed s t) : t.work = s.work :=
  (congrArg (fun u : State => u.work) h.rest :)

theorem Handed.pending {s t : State} (h : Handed s t) : t.pending = s.pending :=
  (congrArg (fun u : State => u.pending) h.rest :)

/-- Nothing handed over. -/
theorem Handed.refl (s : State) : Handed s s := ⟨rfl, fun _ _ _ => rfl⟩

/-- One hand-over after another. -/
theorem Handed.trans {s t u : State} (h : Handed s t) (k : Handed t u) : Handed s u where
  rest := k.rest.trans (congrArg
    (fun v : State => { v with ports := u.ports, link := { v.link with counters := u.link.counters } }) h.rest)
  counters i h10 h11 := (k.counters i h10 h11).trans (h.counters i h10 h11)

/-- A counter of the overflows that rises. -/
theorem raiseIf_handed (s : State) (b : Bool) (i : Nat) (hi : i = 10 ∨ i = 11) : Handed s (s.raiseIf b i) := by
  unfold State.raiseIf
  split
  · exact ⟨rfl, fun j h10 h11 => s.setCounter_counter_ne i j _ (by omega)⟩
  · exact .refl s

/-- A change of the ports. -/
theorem modPorts_handed (s : State) (f : Ports → Ports) : Handed s (s.modPorts f) := ⟨rfl, fun _ _ _ => rfl⟩

theorem handUp_handed (x : Queued) (s : State) : Handed s (State.handUp x s) :=
  (modPorts_handed s _).trans (raiseIf_handed _ _ 10 (.inl rfl))

theorem handDown_handed (x : Queued) (s : State) : Handed s (State.handDown x s) :=
  (modPorts_handed s _).trans (raiseIf_handed _ _ 11 (.inr rfl))

theorem handMsg_handed (m : UpMsg) (s : State) : Handed s (State.handMsg m s) := by
  cases m with
  | notice n =>
    unfold State.handMsg
    exact (handUp_handed _ s).trans (modPorts_handed _ _)
  | holdoff ms => exact handUp_handed _ s

theorem handAnswer_handed (s : State) (a : Option Answer) : Handed s (s.handAnswer a) := by
  cases a with
  | none => exact Handed.refl s
  | some a => exact handUp_handed _ s

/-- The sends of an event. -/
theorem closeEvent_handed (s t : State) (a : Option Answer) : Handed (s.eventLeaves t) (s.closeEvent t a) := by
  unfold State.closeEvent
  refine forEach_induct (Handed (s.eventLeaves t)) _ (fun x u h => h.trans (handDown_handed x u)) _ _ ?_
  refine forEach_induct (Handed (s.eventLeaves t)) _ (fun m u h => h.trans (handMsg_handed m u)) _ _ ?_
  exact handAnswer_handed _ _

@[simp] theorem raiseIf_ports (s : State) (b : Bool) (i : Nat) : (s.raiseIf b i).ports = s.ports := by
  unfold State.raiseIf; split <;> rfl

theorem handUp_ports (x : Queued) (s : State) :
    (State.handUp x s).ports = { s.ports with uQueue := (enqueue s.ports.uQueue x).1 } := by
  unfold State.handUp; rw [raiseIf_ports]; rfl

theorem handDown_ports (x : Queued) (s : State) :
    (State.handDown x s).ports = { s.ports with dQueue := (enqueue s.ports.dQueue x).1 } := by
  unfold State.handDown; rw [raiseIf_ports]; rfl

/-- A hand-over to the U send queue keeps the bounds of both queues. -/
theorem handUp_bounded (x : Queued) (s : State) (h : s.queuesBounded) : (State.handUp x s).queuesBounded := by
  unfold State.queuesBounded
  rw [handUp_ports]
  exact ⟨enqueue_length _ _ h.1, h.2⟩

/-- A hand-over to the D send queue keeps the bounds of both queues. -/
theorem handDown_bounded (x : Queued) (s : State) (h : s.queuesBounded) : (State.handDown x s).queuesBounded := by
  unfold State.queuesBounded
  rw [handDown_ports]
  exact ⟨h.1, enqueue_length _ _ h.2⟩

theorem handMsg_bounded (m : UpMsg) (s : State) (h : s.queuesBounded) : (State.handMsg m s).queuesBounded := by
  cases m with
  | notice n => exact handUp_bounded _ s h
  | holdoff ms => exact handUp_bounded _ s h

/-- An event keeps the bounds of both queues. -/
theorem closeEvent_bounded (s t : State) (a : Option Answer) (h : s.queuesBounded) :
    (s.closeEvent t a).queuesBounded := by
  unfold State.closeEvent
  refine forEach_induct State.queuesBounded _ (fun x u h => handDown_bounded x u h) _ _ ?_
  refine forEach_induct State.queuesBounded _ (fun m u h => handMsg_bounded m u h) _ _ ?_
  cases a with
  | none => exact h
  | some a => exact handUp_bounded _ _ h

theorem handMsg_kept (m : UpMsg) (s : State) (y : Queued) (hy : y ∈ s.ports.uQueue)
    (hk : y.cls.discardable = false) : y ∈ (State.handMsg m s).ports.uQueue := by
  cases m with
  | notice n =>
    show y ∈ (State.handUp _ s).ports.uQueue
    rw [handUp_ports]
    exact enqueue_kept _ _ y hy hk
  | holdoff ms =>
    show y ∈ (State.handUp _ s).ports.uQueue
    rw [handUp_ports]
    exact enqueue_kept _ _ y hy hk

/-- The ANSWER of an event whose U send queue has room at the beginning is in the queue at its end (R7, R21). -/
theorem closeEvent_answers (s t : State) (a : Answer) (h : s.ports.uQueue.length < Config.queueCapacity) :
    a.queued ∈ (s.closeEvent t (some a)).ports.uQueue := by
  unfold State.closeEvent
  have h1 : a.queued ∈ ((s.eventLeaves t).handAnswer (some a)).ports.uQueue := by
    show a.queued ∈ (State.handUp _ _).ports.uQueue
    rw [handUp_ports]
    show a.queued ∈ (enqueue s.ports.uQueue a.queued).1
    rw [enqueue_room _ _ h]
    simp
  have h2 := forEach_induct (fun u : State => a.queued ∈ u.ports.uQueue) _
    (fun m u hu => handMsg_kept m u _ hu rfl) t.work.up _ h1
  exact forEach_induct (fun u : State => a.queued ∈ u.ports.uQueue) _
    (fun x u hu => by rw [handDown_ports]; exact hu) t.work.down _ h2

/-! ## What an event leaves -/

@[simp] theorem closeEvent_params (s t : State) (a : Option Answer) : (s.closeEvent t a).params = t.params :=
  (closeEvent_handed s t a).params

@[simp] theorem closeEvent_store (s t : State) (a : Option Answer) : (s.closeEvent t a).store = t.store :=
  (closeEvent_handed s t a).store

@[simp] theorem closeEvent_dispatch (s t : State) (a : Option Answer) : (s.closeEvent t a).dispatch = t.dispatch :=
  (closeEvent_handed s t a).dispatch

@[simp] theorem closeEvent_desk (s t : State) (a : Option Answer) : (s.closeEvent t a).desk = t.desk :=
  (closeEvent_handed s t a).desk

@[simp] theorem closeEvent_pool (s t : State) (a : Option Answer) : (s.closeEvent t a).pool = t.pool :=
  (closeEvent_handed s t a).pool

@[simp] theorem closeEvent_loans (s t : State) (a : Option Answer) : (s.closeEvent t a).loans = t.loans :=
  (closeEvent_handed s t a).loans

@[simp] theorem closeEvent_returns (s t : State) (a : Option Answer) : (s.closeEvent t a).returns = t.returns :=
  (closeEvent_handed s t a).returns

@[simp] theorem closeEvent_zones (s t : State) (a : Option Answer) : (s.closeEvent t a).zones = t.zones :=
  (closeEvent_handed s t a).zones

@[simp] theorem closeEvent_lines (s t : State) (a : Option Answer) : (s.closeEvent t a).lines = t.lines :=
  (closeEvent_handed s t a).lines

@[simp] theorem closeEvent_mode (s t : State) (a : Option Answer) : (s.closeEvent t a).mode = t.mode :=
  (closeEvent_handed s t a).mode

@[simp] theorem closeEvent_floats (s t : State) (a : Option Answer) : (s.closeEvent t a).floats = t.floats :=
  (closeEvent_handed s t a).floats

@[simp] theorem closeEvent_now (s t : State) (a : Option Answer) : (s.closeEvent t a).now = s.now :=
  (closeEvent_handed s t a).now

@[simp] theorem closeEvent_pending (s t : State) (a : Option Answer) : (s.closeEvent t a).pending = s.pending :=
  (closeEvent_handed s t a).pending

@[simp] theorem closeEvent_work (s t : State) (a : Option Answer) : (s.closeEvent t a).work = Work.empty :=
  (closeEvent_handed s t a).work

@[simp] theorem closeEvent_outputs (s t : State) (a : Option Answer) : (s.closeEvent t a).outputs = outputsAfter s t :=
  (closeEvent_handed s t a).outputs

@[simp] theorem closeEvent_resets (s t : State) (a : Option Answer) :
    (s.closeEvent t a).resets = { t.resets with phase := .running } :=
  (closeEvent_handed s t a).resets

@[simp] theorem closeEvent_addresses (s t : State) (a : Option Answer) :
    (s.closeEvent t a).link.addresses = t.link.addresses := (closeEvent_handed s t a).addresses

@[simp] theorem closeEvent_trafficDown (s t : State) (a : Option Answer) :
    (s.closeEvent t a).link.trafficDown = t.link.trafficDown := (closeEvent_handed s t a).trafficDown

@[simp] theorem closeEvent_trafficUp (s t : State) (a : Option Answer) :
    (s.closeEvent t a).link.trafficUp = t.link.trafficUp := (closeEvent_handed s t a).trafficUp

theorem closeEvent_counter (s t : State) (a : Option Answer) (i : Nat) (h1 : i ≠ 10) (h2 : i ≠ 11) :
    (s.closeEvent t a).counter i = t.counter i := (closeEvent_handed s t a).counters i h1 h2

/-- The output levels read the zones, the mode and the aisles only (R170, R171, R180). -/
theorem outputLevels_congr (s t : State) (hz : t.zones = s.zones) (hm : t.mode.mode = s.mode.mode)
    (ha : t.store.aisles = s.store.aisles) : t.outputLevels = s.outputLevels := by
  have h1 : ∀ z, t.zone z = s.zone z := fun z => by simp only [State.zone, hz]
  have h2 : ∀ a, t.aisle a = s.aisle a := fun a => by simp only [State.aisle, ha]
  have h3 : t.driveLevel = s.driveLevel := by funext a; simp only [State.driveLevel, h1, h2, hm]
  have h4 : t.shutterLevel = s.shutterLevel := by funext z; simp only [State.shutterLevel, h1]
  have h5 : t.beaconLevel = s.beaconLevel := by simp only [State.beaconLevel, State.zoneClear, h1]
  simp only [State.outputLevels, h3, h4, h5]

/-- An event leaves the output levels that the zone states, the mode and the aisles give. -/
theorem closeEvent_follows (s t : State) (a : Option Answer) (h : s.outputsFollow) : (s.closeEvent t a).outputsFollow := by
  have hr : (s.closeEvent t a).resets.phase = .running := by rw [closeEvent_resets]
  unfold State.outputsFollow
  rw [hr]
  show (s.closeEvent t a).outputs = (s.closeEvent t a).outputLevels
  rw [closeEvent_outputs, outputLevels_congr t (s.closeEvent t a) (by simp) (by simp) (by simp)]
  unfold outputsAfter
  split
  · rename_i hc
    rw [outputLevels_congr s t hc.1 hc.2.1 hc.2.2.1]
    unfold State.outputsFollow at h
    rw [hc.2.2.2] at h
    exact h
  · rfl

/-- What an event owes once it owes no test: sends, held dispatch tests and held-back lifts only. -/
def Work.sends (w : Work) : Work :=
  { Work.empty with up := w.up, down := w.down, testsHeld := w.testsHeld, bars := w.bars }

/-- An event that owes no test settles at once. -/
theorem settle_idle (s : State) (h : s.work = s.work.sends) : s.settle = s := by
  have same (g : Work → Work) (hg : g s.work = s.work) : s.modWork g = s := congrArg (fun w => { s with work := w }) hg
  have hc : s.controlLoop = s := repeatTimes_idle _ s (by
    unfold State.controlRound
    dsimp only
    rw [same _ (by rw [h]; rfl), h]
    rfl) _
  have hr : s.settleRound = s := by
    unfold State.settleRound
    have e1 : s.drainPhase = s := if_neg (by rw [h]; simp [Work.sends, Work.empty])
    have e2 : s.scanPhase = s := if_neg (by rw [h]; simp [Work.sends, Work.empty])
    have e3 : s.admissionPhase = s := if_neg (by rw [h]; simp [Work.sends, Work.empty])
    have e4 : s.restorePhase = s := by
      unfold State.restorePhase
      rw [same _ (by rw [h]; rfl), h]
      rfl
    have e5 : s.waitingPhase = s := if_neg (by rw [h]; simp [Work.sends, Work.empty])
    rw [e1, hc, e2, e3, e4, e5]
  unfold State.settle
  rw [repeatTimes_idle _ s hr]
  exact if_neg (by rw [h]; simp [Work.sends, Work.empty])

end Sys2Proof.Machine
end

