-- ==== Sys2Proof/Laws/Commands.lean ====
section
/-! SUPPORT. The laws of the commands as a whole: a live command answers a next state, a command that needs a running
part does nothing without one, and a property that hand-overs, closings of events, counters and the course of resets
keep is kept by every command. -/

namespace Sys2Proof.Machine

/-- A live command answers a next state. -/
theorem live_next (s t : State) : ∃ u, s.live t = .next u := by unfold State.live; split <;> exact ⟨_, rfl⟩
/-- A WRITE answers a next state. -/
theorem write_next {α} (s : State) (tag size) (ap : Nat → α → State → Judged) (f es) : ∃ u, s.write tag size ap f es = .next u := live_next _ _
/-- A next state is one. -/
theorem next_next (s : State) : ∃ u, (Host.Outcome.next s : Host.Outcome State Fault Refusal) = .next u := ⟨s, rfl⟩
/-- The command that a telegram carries answers a next state. -/
theorem runTaken_next (c : Instr) (s : State) : ∃ t, runTaken c s = .next t := by
  cases c <;> first | exact next_next _ | exact live_next _ _ | exact write_next _ _ _ _ _ _ | skip
  rename_i tag first es
  show ∃ t, execItemWrite tag first es s = _
  unfold execItemWrite; split <;> exact live_next _ _
/-- A telegram taken at the U port answers a next state. -/
theorem take_next (s : State) (t : Telegram) : ∃ u, s.takeUp t = .next u := by
  unfold State.takeUp; split
  · exact live_next _ _
  · exact live_next _ _
  · exact live_next _ _
  · exact runTaken_next _ _
/-- A telegram taken at the D port answers a next state. -/
theorem takeDown_next (s : State) (t : Telegram) : ∃ u, s.takeDown t = .next u := by
  unfold State.takeDown; split
  · exact next_next _
  · unfold State.takeCrane; split
    · split
      · exact runTaken_next _ _
      · exact next_next _
    · exact next_next _
  · unfold State.takeLift; split
    · split
      · exact runTaken_next _ _
      · exact next_next _
    · exact next_next _
  · unfold State.takeStation; split
    · split
      · exact runTaken_next _ _
      · exact next_next _
    · exact next_next _
  · split <;> exact next_next _
/-- A frame that arrives answers a next state. -/
theorem arrive_next (p f) (s : State) : ∃ t, execFrameArrival p f s = .next t := by
  unfold execFrameArrival; split
  · unfold State.arrive; split
    · exact next_next _
    · exact next_next _
    · unfold State.routeUp; repeat' split
      all_goals first | exact next_next _ | exact take_next _ _
    · unfold State.routeDown; repeat' split
      all_goals first | exact next_next _ | exact takeDown_next _ _
  · exact next_next _
/-- A part that does not run is unchanged by a live command. -/
theorem live_not (s t : State) (h : ¬ s.running) : s.live t = .next s := by unfold State.live; exact if_neg h
/-- What holds of a state and of the one a live command would make holds of its answer. -/
theorem live_keeps (P : State → Prop) (s t u : State) (hs : P s) (ht : P t) (h : s.live t = .next u) : P u := by
  unfold State.live at h; split at h <;> cases h <;> assumption
/-- What holds of a state holds of the answer that is that state. -/
theorem next_keeps (P : State → Prop) (t u : State) (ht : P t) (h : (Host.Outcome.next t : Host.Outcome State Fault Refusal) = .next u) : P u := by
  cases h; exact ht
/-- `P` outlives an event that runs: its closing, its counters, the hand-overs to the send queues. -/
structure Stable (P : State → Prop) : Prop where
  close : ∀ s t a, P s → P (s.closeEvent t a)
  raise : ∀ s i, P s → P (s.raise i)
  up : ∀ s x, P s → P (State.handUp x s)
  down : ∀ s x, P s → P (State.handDown x s)
/-- A stable `P` outlives the command that a telegram carries, if it outlives RESTART. -/
theorem runTaken_keeps (P) (hP : Stable P) (hR : ∀ tag s t, P s → execRestart tag s = .next t → P t) (c : Instr) (s t : State) (hs : P s) (h : runTaken c s = .next t) : P t := by
  cases c
  case itemWrite a b c =>
    replace h : execItemWrite a b c s = _ := h
    unfold execItemWrite at h; split at h <;> exact live_keeps P _ _ _ hs (hP.close _ _ _ hs) h
  case restart a => exact hR _ _ _ hs h
  all_goals first
    | exact next_keeps P _ _ hs h
    | exact live_keeps P _ _ _ hs (hP.close _ _ _ hs) h
/-- A stable `P` outlives a forwarding to the D port. -/
theorem fwd_keeps (P) (hP : Stable P) (s m) (hs : P s) : P (State.forwardDown s m) := by
  unfold State.forwardDown; split
  · exact hP.down _ _ hs
  · exact hP.raise _ _ hs
  · split
    · exact hP.down _ _ hs
    · exact hP.close _ _ _ hs
/-- A stable `P` outlives a forwarding to the U port. -/
theorem fwdUp_keeps (P) (hP : Stable P) (s m) (hs : P s) : P (State.forwardUp s m) := by
  unfold State.forwardUp; split
  · exact hP.up _ _ hs
  · exact hP.raise _ _ hs
  · exact hP.up _ _ hs
/-- A stable `P` outlives the taking of a telegram at the U port. -/
theorem takeUp_keeps (P) (hP : Stable P) (hR : ∀ tag s t, P s → execRestart tag s = .next t → P t) (s m t) (hs : P s) (h : State.takeUp s m = .next t) : P t := by
  unfold State.takeUp at h; split at h
  · exact live_keeps P _ _ _ hs (hP.close _ _ _ hs) h
  · exact live_keeps P _ _ _ hs (hP.close _ _ _ hs) h
  · exact live_keeps P _ _ _ hs (hP.close _ _ _ hs) h
  · exact runTaken_keeps P hP hR _ _ _ hs h
/-- A stable `P` outlives the taking of a telegram at the D port. -/
theorem takeDown_keeps (P) (hP : Stable P) (hR : ∀ tag s t, P s → execRestart tag s = .next t → P t) (s m t) (hs : P s) (h : State.takeDown s m = .next t) : P t := by
  have stray := fun h => next_keeps P _ t (hP.raise s 5 hs) h
  unfold State.takeDown at h; split at h
  · exact next_keeps P _ _ (hP.raise _ _ hs) h
  · unfold State.takeCrane at h; split at h
    · split at h
      · exact runTaken_keeps P hP hR _ _ _ hs h
      · exact stray h
    · exact stray h
  · unfold State.takeLift at h; split at h
    · split at h
      · exact runTaken_keeps P hP hR _ _ _ hs h
      · exact stray h
    · exact stray h
  · unfold State.takeStation at h; split at h
    · split at h
      · exact runTaken_keeps P hP hR _ _ _ hs h
      · exact stray h
    · exact stray h
  · split at h
    · exact next_keeps P _ _ hs h
    · exact stray h
/-- A stable `P` outlives the arrival of a frame. -/
theorem arrive_keeps (P) (hP : Stable P) (hR : ∀ tag s t, P s → execRestart tag s = .next t → P t) (p f s t) (hs : P s) (h : execFrameArrival p f s = .next t) : P t := by
  unfold execFrameArrival at h; split at h
  · unfold State.arrive at h; split at h
    · exact next_keeps P _ _ (hP.raise _ _ hs) h
    · exact next_keeps P _ _ (hP.raise _ _ hs) h
    · unfold State.routeUp at h; split at h
      · exact next_keeps P _ _ (hP.raise _ _ hs) h
      · split at h
        · exact takeUp_keeps P hP hR _ _ _ hs h
        · split at h
          · exact takeUp_keeps P hP hR _ _ _ (fwd_keeps P hP _ _ hs) h
          · exact next_keeps P _ _ (fwd_keeps P hP _ _ hs) h
    · unfold State.routeDown at h; split at h
      · exact next_keeps P _ _ (fwdUp_keeps P hP _ _ hs) h
      · split at h
        · exact takeDown_keeps P hP hR _ _ _ hs h
        · exact next_keeps P _ _ (hP.raise _ _ hs) h
  · exact next_keeps P _ _ hs h
/-- `P` outlives events and the course of resets as well. -/
structure Course (P : State → Prop) : Prop extends Stable P where
  ports : ∀ s f, P s → (∀ p : Ports, (f p).uQueue.length ≤ p.uQueue.length ∧ (f p).dQueue.length ≤ p.dQueue.length) → P (s.modPorts f)
  restart : ∀ tag s t, P s → execRestart tag s = .next t → P t
  wiring : ∀ s n w, P s → P (s.setWiring n w)
  pin : ∀ s t, P s → execPinReset s = .next t → P t
  release : ∀ s t, P s → execResetLineRelease s = .next t → P t
  command : ∀ s t, P s → execCommandReset s = .next t → P t
  period : ∀ s t, P s → execResetPeriodEnd s = .next t → P t
  power : ∀ s t, P s → execPowerOnReset s = .next t → P t
  loss : ∀ s t, P s → execLossOfSupply s = .next t → P t
/-- A stable `P` outlives the count of forwarded telegrams. -/
theorem countF (P) (hP : Stable P) (s q i) (hs : P s) : P (State.countForwarded s q i) := by
  unfold State.countForwarded; split <;> first | exact hs | exact hP.raise _ _ hs
/-- What outlives events and the course of resets outlives every command. -/
theorem exec_keeps (P) (hP : Course P) (c : Instr) (s t : State) (hs : P s) (h : exec c s = .next t) : P t := by
  cases c
  case restart => exact hP.restart _ _ _ hs h
  case pinReset => exact hP.pin _ _ hs h
  case resetLineRelease => exact hP.release _ _ hs h
  case commandReset => exact hP.command _ _ hs h
  case resetPeriodEnd => exact hP.period _ _ hs h
  case powerOnReset => exact hP.power _ _ hs h
  case lossOfSupply => exact hP.loss _ _ hs h
  case frameArrival p f => exact arrive_keeps P hP.toStable hP.restart p f _ _ hs h
  case transmissionBegins p =>
    replace h : execTransmissionBegins p s = _ := h
    have up : P s.transmitUp := by
      unfold State.transmitUp; split
      · exact hs
      · rename_i q rest hq
        refine countF P hP.toStable _ _ _ ?_
        have := hP.ports s (fun p => { p with uQueue := p.uQueue.tail, uLine := some q.telegram.frame }) hs (by intro p; simp)
        simpa [State.modPorts, hq] using this
    have down : P s.transmitDown := by
      unfold State.transmitDown; split
      · exact hs
      · rename_i q rest hq
        split
        · refine countF P hP.toStable _ _ _ ?_
          have := hP.ports s (fun p => { p with dQueue := p.dQueue.tail, dLine := some q.telegram.frame }) hs (by intro p; simp)
          simpa [State.modPorts, hq] using this
        · refine hP.close _ _ _ ?_
          have := hP.ports s (fun p => { p with dQueue := p.dQueue.tail }) hs (by intro p; simp)
          simpa [State.modPorts, hq] using this
    unfold execTransmissionBegins at h; split at h
    · exact next_keeps P _ _ up h
    · exact next_keeps P _ _ up h
    · exact next_keeps P _ _ down h
    · exact next_keeps P _ _ hs h
  case itemWrite a b c =>
    replace h : execItemWrite a b c s = _ := h
    unfold execItemWrite at h; split at h <;> exact live_keeps P _ _ _ hs (hP.close _ _ _ hs) h
  case lineInputChange n w =>
    replace h : execLineInputChange n w s = _ := h
    unfold execLineInputChange at h; split at h
    · exact next_keeps P _ _ (hP.close _ _ _ hs) h
    · exact next_keeps P _ _ (hP.wiring _ _ _ hs) h
  all_goals exact live_keeps P _ _ _ hs (hP.close _ _ _ hs) h
end Sys2Proof.Machine
end

