-- ==== Sys2Proof/Laws/Settling.lean ====
section
/-! SUPPORT. What the tests at the end of an event can do: one relation between the state before and after, kept
by every operation that the tests are made of. The provers cite `settle_settles` instead of unfolding the
tests. -/

namespace Sys2Proof.Machine

variable {s₀ s : State}

/-- The tests of an event led from one state to another. They keep what stands; a zone that is neither STOPPING
nor ENABLING keeps its record; a crane that is not READY starts no job, and changes state only from BUSY; and while the
part does not run no zone becomes CLEAR (R172). -/
structure Settles (s t : State) : Prop where
  tidy : t.Tidy
  standing : t.standing = s.standing
  zones : ∀ z, (s.zone z).state ≠ .stopping → (s.zone z).state ≠ .enabling → t.zone z = s.zone z
  flights : ∀ a, (s.crane a).state ≠ .ready → (t.crane a).state ≠ .ready ∧ (t.crane a).flight = (s.crane a).flight
  cranes : ∀ a, (s.crane a).state ≠ .ready → (s.crane a).state ≠ .busy → (t.crane a).state = (s.crane a).state
  clears : ¬ s.running → ∀ z, (t.zone z).state = .clear → (s.zone z).state = .clear

/-- No test made. -/
theorem Settles.refl (h : s.Tidy) : Settles s s where
  tidy := h
  standing := rfl
  zones _ _ _ := rfl
  flights _ hr := ⟨hr, rfl⟩
  cranes _ _ _ := rfl
  clears _ _ hz := hz

/-- The part runs, or does not, as it did. -/
theorem Settles.phase (h : Settles s₀ s) : s.resets = s₀.resets := congrArg Standing.resets h.standing

/-! ## Updates -/

/-- A change of the workspace alone. -/
theorem Settles.work (h : Settles s₀ s) (f : Work → Work) : Settles s₀ (s.modWork f) :=
  ⟨{ h.tidy with }, h.standing, h.zones, h.flights, h.cranes, h.clears⟩

/-- A change of Mode Control alone. -/
theorem Settles.modMode (h : Settles s₀ s) (f : ModeControl → ModeControl) : Settles s₀ (s.modMode f) :=
  ⟨{ h.tidy with }, h.standing, h.zones, h.flights, h.cranes, h.clears⟩

/-- A change of the Order Unit that keeps the stations. -/
theorem Settles.modDesk (h : Settles s₀ s) (f : OrderUnit → OrderUnit)
    (ho : s.desk.orders.wf → (f s.desk).orders.wf := by exact fun h => h)
    (hs : (f s.desk).stations = s.desk.stations := by rfl) : Settles s₀ (s.modDesk f) := by
  refine ⟨{ h.tidy with stations := ?_, orders := ho h.tidy.orders }, ?_, h.zones, h.flights, h.cranes, h.clears⟩
  · rw [State.modDesk_desk, hs]; exact h.tidy.stations
  · rw [← h.standing]
    simp only [State.standing, State.station, State.modDesk_desk, hs]
    rfl

/-- A change of the Lift Pool that keeps the lifts. -/
theorem Settles.modPool (h : Settles s₀ s) (f : LiftPool → LiftPool)
    (hp : (f s.pool).lifts = s.pool.lifts := by rfl) : Settles s₀ (s.modPool f) := by
  refine ⟨{ h.tidy with lifts := ?_ }, ?_, h.zones, h.flights, h.cranes, h.clears⟩
  · rw [State.modPool_pool, hp]; exact h.tidy.lifts
  · rw [← h.standing]
    simp only [State.standing, State.lift, State.modPool_pool, hp]
    rfl

/-- A change of the job-tag counter. -/
theorem Settles.modDispatch (h : Settles s₀ s) (f : CraneDispatch → CraneDispatch)
    (hd : (f s.dispatch).cranes = s.dispatch.cranes := by rfl) : Settles s₀ (s.modDispatch f) := by
  have hc : ∀ a, (s.modDispatch f).crane a = s.crane a := by
    intro a; simp only [State.crane, State.modDispatch_dispatch, hd]
  refine ⟨{ h.tidy with cranes := ?_ }, ?_, h.zones, ?_, ?_, h.clears⟩
  · rw [State.modDispatch_dispatch, hd]; exact h.tidy.cranes
  · rw [← h.standing]
    simp only [State.standing, hc]
    rfl
  · intro a; rw [hc]; exact h.flights a
  · intro a; rw [hc]; exact h.cranes a

/-- A change of one bin record that keeps what stands. -/
theorem Settles.modBin (h : Settles s₀ s) (b : Nat) (f : Bin → Bin)
    (hf : ∀ r, (f r).standing = r.standing := by intro _; rfl) :
    Settles s₀ (s.modBin b f) := by
  refine ⟨?_, ?_, ?_, ?_, ?_, ?_⟩
  · unfold State.modBin
    split
    · exact { h.tidy with bins := Tab.wf_put _ _ _ h.tidy.bins }
    · exact h.tidy
  · rw [← h.standing]
    have hb : (fun c => ((s.modBin b f).bin c).map Bin.standing) = fun c => (s.bin c).map Bin.standing := by
      funext c
      rw [State.modBin_bin]
      split
      · rename_i hc; subst hc; cases s.bin c <;> simp [hf]
      · rfl
    simp only [State.standing, hb, State.modBin_link, State.modBin_ports, State.modBin_params, State.modBin_crane,
      State.modBin_station, State.modBin_lift, State.modBin_loans, State.modBin_returns, State.modBin_zone,
      State.modBin_lines, State.modBin_outputs, State.modBin_resets, State.modBin_now, State.modBin_floats,
      State.modBin_pending]
    unfold State.modBin
    split <;> rfl
  · intro z; simpa using h.zones z
  · intro a; simpa using h.flights a
  · intro a; simpa using h.cranes a
  · intro hp z; simpa using h.clears hp z

/-- A change of one crane record that keeps what stands and what the relation asks of cranes. -/
theorem Settles.modCrane (h : Settles s₀ s) (a : Nat) (f : Crane → Crane)
    (hf : (f (s.crane a)).standing = (s.crane a).standing)
    (hr : (s.crane a).state ≠ .ready →
      (f (s.crane a)).state ≠ .ready ∧ (f (s.crane a)).flight = (s.crane a).flight)
    (hc : (s.crane a).state ≠ .ready → (s.crane a).state ≠ .busy → (f (s.crane a)).state = (s.crane a).state) :
    Settles s₀ (s.modCrane a f) := by
  have key := fun b => s.modCrane_crane a b f h.tidy.cranes.1
  refine ⟨{ h.tidy with cranes := Tab.canonical_set _ _ _ _ h.tidy.cranes }, ?_, h.zones, ?_, ?_, h.clears⟩
  · rw [← h.standing]
    have hb : (fun c => ((s.modCrane a f).crane c).standing) = fun c => (s.crane c).standing := by
      funext c
      rw [key]
      split
      · rename_i hc; subst hc; exact hf
      · rfl
    simp only [State.standing, hb]
    rfl
  · intro b hb
    have h0 := h.flights b hb
    rw [key]
    split
    · rename_i hba; subst hba
      have := hr h0.1
      exact ⟨this.1, this.2.trans h0.2⟩
    · exact h0
  · intro b hb hb'
    have h0 := h.flights b hb
    have h1 := h.cranes b hb hb'
    rw [key]
    split
    · rename_i hba; subst hba
      rw [hc h0.1 (by rw [h1]; exact hb'), h1]
    · exact h1

/-- A change of one station record that keeps what stands. -/
theorem Settles.modStation (h : Settles s₀ s) (st : Nat) (f : Station → Station)
    (hf : ∀ w, (f w).standing = w.standing := by intro _; rfl) : Settles s₀ (s.modStation st f) := by
  have key := fun b => s.modStation_station st b f h.tidy.stations.1
  refine ⟨{ h.tidy with stations := Tab.canonical_set _ _ _ _ h.tidy.stations }, ?_, h.zones, h.flights, h.cranes, h.clears⟩
  rw [← h.standing]
  have hb : (fun c => ((s.modStation st f).station c).standing) = fun c => (s.station c).standing := by
    funext c
    rw [key]
    split
    · rename_i hc; subst hc; exact hf _
    · rfl
  simp only [State.standing, hb]
  rfl

/-- A change of one lift record that keeps what stands. -/
theorem Settles.modLift (h : Settles s₀ s) (l : Nat) (f : Lift → Lift)
    (hf : ∀ r, (f r).standing = r.standing := by intro _; rfl) : Settles s₀ (s.modLift l f) := by
  have key := fun b => s.modLift_lift l b f h.tidy.lifts.1
  refine ⟨{ h.tidy with lifts := Tab.canonical_set _ _ _ _ h.tidy.lifts }, ?_, h.zones, h.flights, h.cranes, h.clears⟩
  rw [← h.standing]
  have hb : (fun c => ((s.modLift l f).lift c).standing) = fun c => (s.lift c).standing := by
    funext c
    rw [key]
    split
    · rename_i hc; subst hc; exact hf _
    · rfl
  simp only [State.standing, hb]
  rfl

/-- A change of the record of a zone that is STOPPING or ENABLING, or whose record the tests changed. -/
theorem Settles.modZone (h : Settles s₀ s) (z : Nat) (f : Zone → Zone)
    (hf : (f (s.zone z)).standing = (s.zone z).standing)
    (hz : (s₀.zone z).state = .stopping ∨ (s₀.zone z).state = .enabling)
    (hc : (f (s.zone z)).state ≠ .clear ∨ s.running) : Settles s₀ (s.modZone z f) := by
  have key := fun b => s.modZone_zone z b f h.tidy.zones.1
  refine ⟨{ h.tidy with zones := Tab.canonical_set _ _ _ _ h.tidy.zones }, ?_, ?_, h.flights, h.cranes, ?_⟩
  · rw [← h.standing]
    have hb : (fun c => ((s.modZone z f).zone c).standing) = fun c => (s.zone c).standing := by
      funext c
      rw [key]
      split
      · rename_i hc; subst hc; exact hf
      · rfl
    simp only [State.standing, hb]
    rfl
  · intro y h1 h2
    rw [key]
    split
    · rename_i hy; subst hy; rcases hz with hz | hz <;> contradiction
    · exact h.zones y h1 h2
  · intro hp y hy
    rw [key] at hy
    split at hy
    · rcases hc with hc | hc
      · exact absurd hy hc
      · exact absurd ((congrArg ResetControl.phase h.phase).symm.trans hc) hp
    · exact h.clears hp y hy

/-- A change of the orders. -/
theorem Settles.modOrder (h : Settles s₀ s) (num : Nat) (f : Order → Order) : Settles s₀ (s.modOrder num f) :=
  h.modDesk _ (fun ho => Tab.wf_mapVals s.desk.orders (fun o => if o.number = num then f o else o) ho)

theorem Settles.dropOrder (h : Settles s₀ s) (num : Nat) : Settles s₀ (s.dropOrder num) :=
  h.modDesk _ (fun ho => Tab.wf_filter _ _ ho)

theorem Settles.modMember (h : Settles s₀ s) (r : MemberRef) (f : Member → Member) : Settles s₀ (s.modMember r f) :=
  h.modOrder _ _

/-- A striking of a requested entry. -/
theorem retainedItems_del (t : Tab Item) (k : Nat) (e : Item) (h : t.find k = some e) (hr : e.state.word = .requested) :
    retainedItems (t.del k) = retainedItems t := by
  induction t with
  | nil => rfl
  | cons p t ih =>
    obtain ⟨i, a⟩ := p
    rw [Tab.find_cons] at h
    rw [Tab.del]
    split at h
    · rename_i hk
      obtain rfl : a = e := by simpa using h
      rw [if_pos hk]
      simp [retainedItems, hr]
    · rename_i hk
      rw [if_neg hk]
      have := ih h
      simp only [retainedItems, List.filter_cons] at this ⊢
      rw [this]

/-- The removal of a requested entry. -/
theorem Settles.removeItem (h : Settles s₀ s) (t : Nat) (e : Item) (he : s.item t = some e)
    (hr : e.state.word = .requested) : Settles s₀ (s.removeItem t) := by
  unfold State.removeItem
  rw [he]
  refine Settles.modBin ?_ _ _ 
  refine ⟨{ h.tidy with items := Tab.wf_del _ _ h.tidy.items }, ?_, h.zones, h.flights, h.cranes, h.clears⟩
  rw [← h.standing]
  have hi : retainedItems (s.delItem t).loans.items = retainedItems s.loans.items := retainedItems_del _ _ e he hr
  simp only [State.standing, hi]
  rfl

/-! ## Runs and owed tests -/

theorem Settles.forEach {α : Type} (h : Settles s₀ s) (xs : List α) (f : α → State → State)
    (hf : ∀ x s, Settles s₀ s → Settles s₀ (f x s)) : Settles s₀ (Machine.forEach xs f s) :=
  forEach_induct (Settles s₀) f hf xs s h

theorem Settles.repeatTimes (h : Settles s₀ s) (n : Nat) (f : State → State)
    (hf : ∀ s, Settles s₀ s → Settles s₀ (f s)) : Settles s₀ (Machine.repeatTimes f n s) :=
  repeatTimes_induct (Settles s₀) f hf n s h

theorem Settles.notice (h : Settles s₀ s) (n : Notice) : Settles s₀ (s.notice n) := h.work _
theorem Settles.holdoff (h : Settles s₀ s) (ms : Nat) : Settles s₀ (s.holdoff ms) := h.work _
theorem Settles.sendDown (h : Settles s₀ s) (q : Queued) : Settles s₀ (s.sendDown q) := h.work _
theorem Settles.sendUnit (h : Settles s₀ s) (d : Option Nat) (k : Nat) (b : List Byte) (c : QueueClass) :
    Settles s₀ (s.sendUnit d k b c) := by
  unfold State.sendUnit; split
  · exact h.sendDown _
  · exact h
theorem Settles.oweControl (h : Settles s₀ s) : Settles s₀ s.oweControl := h.work _
theorem Settles.oweZone (h : Settles s₀ s) (z : Nat) : Settles s₀ (s.oweZone z) := h.work _
theorem Settles.oweMode (h : Settles s₀ s) : Settles s₀ s.oweMode := h.work _
theorem Settles.oweDrives (h : Settles s₀ s) (xs : List Nat) : Settles s₀ (s.oweDrives xs) := h.work _
theorem Settles.oweDrain (h : Settles s₀ s) : Settles s₀ s.oweDrain := h.work _
theorem Settles.oweScan (h : Settles s₀ s) : Settles s₀ s.oweScan := h.work _
theorem Settles.oweAdmission (h : Settles s₀ s) : Settles s₀ s.oweAdmission := h.work _
theorem Settles.oweRestore (h : Settles s₀ s) (t : RestoreTest) : Settles s₀ (s.oweRestore t) := h.work _
theorem Settles.oweWaiting (h : Settles s₀ s) : Settles s₀ s.oweWaiting := h.work _
theorem Settles.recordsFreed (h : Settles s₀ s) : Settles s₀ s.recordsFreed := h.oweAdmission.oweDrain

/-! ## Jobs -/

theorem Settles.setBinState (h : Settles s₀ s) (b : Nat) (st : BinState) : Settles s₀ (s.setBinState b st) :=
  h.modBin b _

theorem Settles.setMember (h : Settles s₀ s) (r : MemberRef) (st : MemberState) : Settles s₀ (s.setMember r st) :=
  h.modMember r _

theorem Settles.useHeld (h : Settles s₀ s) (r : MemberRef) : Settles s₀ (s.useHeld r) := h.modMember r _

theorem Settles.releaseHeld (h : Settles s₀ s) (r : MemberRef) : Settles s₀ (s.releaseHeld r) := by
  unfold State.releaseHeld
  split
  · split
    · exact h
    · exact (h.modMember r _).recordsFreed
  · exact h

/-- A change of a crane's queues, credits or lists. -/
theorem Settles.craneWork (h : Settles s₀ s) (a : Nat) (f : Crane → Crane)
    (hf : ∀ c, (f c).standing = c.standing := by intro _; rfl) (hs : ∀ c, (f c).state = c.state := by intro _; rfl)
    (hl : ∀ c, (f c).flight = c.flight := by intro _; rfl) : Settles s₀ (s.modCrane a f) :=
  h.modCrane a f (hf _) (fun hr => ⟨by rw [hs]; exact hr, hl _⟩) fun _ _ => hs _

theorem Crane.setQueue_keeps (c : Crane) (k : JobClass) (q : List Job) :
    (c.setQueue k q).standing = c.standing ∧ (c.setQueue k q).state = c.state ∧ (c.setQueue k q).flight = c.flight := by
  cases k <;> exact ⟨rfl, rfl, rfl⟩

theorem Crane.spend_keeps (c : Crane) (k : JobClass) :
    (c.spend k).standing = c.standing ∧ (c.spend k).state = c.state ∧ (c.spend k).flight = c.flight := by
  cases k <;> exact ⟨rfl, rfl, rfl⟩

theorem Settles.setQueue (h : Settles s₀ s) (a : Nat) (k : JobClass) (q : Crane → List Job) :
    Settles s₀ (s.modCrane a fun c => c.setQueue k (q c)) :=
  h.craneWork a _ (fun c => (c.setQueue_keeps k _).1) (fun c => (c.setQueue_keeps k _).2.1) fun c =>
    (c.setQueue_keeps k _).2.2

theorem Settles.spend (h : Settles s₀ s) (a : Nat) (k : JobClass) : Settles s₀ (s.modCrane a fun c => c.spend k) :=
  h.craneWork a _ (fun c => (c.spend_keeps k).1) (fun c => (c.spend_keeps k).2.1) fun c => (c.spend_keeps k).2.2

theorem Settles.refill (h : Settles s₀ s) (a : Nat) : Settles s₀ (s.refill a) := by
  unfold State.refill
  exact h.craneWork a _

/-- The choice of a class changes the credits of the aisle at most: the crane's state and flight stay. -/
theorem Settles.chooseClass (h : Settles s₀ s) (a : Nat) (k : JobClass) (t : State) (ht : s.chooseClass a = some (k, t)) :
    Settles s₀ t ∧ (t.crane a).state = (s.crane a).state := by
  have keep : ∀ (u : State) (f : Crane → Crane), u.Tidy → (∀ c, (f c).state = c.state) →
      ((u.modCrane a f).crane a).state = (u.crane a).state := by
    intro u f hu hf
    rw [State.modCrane_crane _ _ _ _ hu.cranes.1, if_pos rfl, hf]
  have hsp : ∀ k (c : Crane), (c.spend k).state = c.state := fun k c => (c.spend_keeps k).2.1
  have hrefill : ((s.refill a).crane a).state = (s.crane a).state :=
    keep s (fun c => { c with patronCredit := _, restoreCredit := _, houseCredit := _ }) h.tidy fun _ => rfl
  unfold State.chooseClass at ht
  split at ht
  · rw [Option.map_eq_some_iff] at ht
    obtain ⟨k', _, ht⟩ := ht
    cases ht
    exact ⟨h, rfl⟩
  · split at ht
    · cases ht
      exact ⟨h.spend a _, keep s (fun c => c.spend k) h.tidy (hsp k)⟩
    · split at ht
      · simp only [Option.map_eq_some_iff] at ht
        obtain ⟨k', _, ht⟩ := ht
        cases ht
        exact ⟨(h.refill a).spend a _, (keep _ (fun c => c.spend k) (h.refill a).tidy (hsp k)).trans hrefill⟩
      · cases ht

theorem Settles.tellDispatched (h : Settles s₀ s) (j : Job) : Settles s₀ (s.tellDispatched j) := by
  unfold State.tellDispatched
  split
  · split
    · exact h.setMember _ _
    · exact h
  · exact h

theorem Settles.sendMove (h : Settles s₀ s) (a t : Nat) (j : Job) : Settles s₀ (s.sendMove a t j) := h.sendUnit _ _ _ _

/-- A dispatch starts a job of a READY crane. -/
theorem Settles.dispatchJob (h : Settles s₀ s) (a : Nat) (j : Job) (p : Point) (hr : (s.crane a).state = .ready) :
    Settles s₀ (s.dispatchJob a j p) := by
  unfold State.dispatchJob
  refine Settles.sendMove (Settles.tellDispatched (Settles.setBinState (Settles.oweControl ?_) _ _) _) _ _ _
  refine (h.modDispatch _).modCrane a _ (by rfl) (fun hn => absurd hr hn) (fun hn => absurd hr hn)

theorem Settles.dispatchTest (h : Settles s₀ s) (a : Nat) : Settles s₀ (s.dispatchTest a) := by
  unfold State.dispatchTest
  split
  · rename_i hm
    split
    · rename_i p k t _ ht
      obtain ⟨h1, h2⟩ := h.chooseClass a k t ht
      split
      · refine (h1.setQueue a k _).dispatchJob a _ _ ?_
        rw [State.modCrane_crane _ _ _ _ h1.tidy.cranes.1, if_pos rfl, (Crane.setQueue_keeps _ _ _).2.1, h2]
        simp only [State.mayDispatch, Bool.and_eq_true, decide_eq_true_eq] at hm
        exact hm.2.1.1.1.2
      · exact h
    · exact h
  · exact h

theorem Settles.appendJob (h : Settles s₀ s) (a : Nat) (j : Job) : Settles s₀ (s.appendJob a j) :=
  (h.setQueue a _ _).dispatchTest a

theorem Settles.requestFetch (h : Settles s₀ s) (r : MemberRef) (b : Nat) : Settles s₀ (s.requestFetch r b) :=
  (((h.useHeld r).setMember r _).setBinState b _).appendJob _ _

theorem Settles.requestStore (h : Settles s₀ s) (r : MemberRef) (b : Nat) (p : Point) :
    Settles s₀ (s.requestStore r b p) := (h.useHeld r).appendJob _ _

theorem Settles.leaveFront (h : Settles s₀ s) (a b : Nat) : Settles s₀ (s.leaveFront a b) := by
  unfold State.leaveFront
  split
  · exact (h.craneWork a _).dispatchTest a
  · exact h

theorem Settles.leaveInfeed (h : Settles s₀ s) (a b : Nat) : Settles s₀ (s.leaveInfeed a b) := by
  unfold State.leaveInfeed
  split
  · exact (h.craneWork a _).oweScan
  · exact h

theorem Settles.leaveLists (h : Settles s₀ s) (a b : Nat) : Settles s₀ (s.leaveLists a b) :=
  (h.leaveFront a b).leaveInfeed a b

theorem Settles.offer (h : Settles s₀ s) (b : Nat) : Settles s₀ (s.offer b) := by
  unfold State.offer
  split
  · exact h.requestFetch _ _
  · exact h.oweRestore _

theorem Settles.becomeStored (h : Settles s₀ s) (b : Nat) : Settles s₀ (s.becomeStored b) :=
  ((h.setBinState b _).forEach _ _ fun a _ h => h.leaveLists a b).offer b

/-! ## Orders -/

theorem Settles.giveUpItem (h : Settles s₀ s) (num : Nat) (cause : NotTakenCause) (t : Nat) :
    Settles s₀ (State.giveUpItem num cause t s) := by
  unfold State.giveUpItem
  split
  · rename_i e o he ho
    split
    · rename_i hr
      exact ((h.removeItem t e he (by rw [hr]; rfl)).modOrder _ _).notice _
    · exact h
  · exact h

theorem Settles.giveUpItems (h : Settles s₀ s) (num : Nat) (cause : NotTakenCause) (ts : List Nat) :
    Settles s₀ (s.giveUpItems num cause ts) := h.forEach _ _ fun t _ h => h.giveUpItem num cause t

theorem Settles.releaseReservation (h : Settles s₀ s) (st : Nat) : Settles s₀ (s.releaseReservation st) :=
  (h.modStation st _).oweAdmission

theorem Settles.leaveLane (h : Settles s₀ s) (st b : Nat) : Settles s₀ (s.leaveLane st b) :=
  (h.modStation st _).oweAdmission.oweDrain

theorem Settles.markLane (h : Settles s₀ s) (st b : Nat) (m : LaneMark) : Settles s₀ (s.markLane st b m) :=
  h.modStation st _

theorem Settles.joinWaitList (h : Settles s₀ s) (e : WaitEntry) : Settles s₀ (s.joinWaitList e) :=
  (h.modPool _).oweScan

theorem Settles.dropWaiting (h : Settles s₀ s) (p : WaitEntry → Bool) : Settles s₀ (s.dropWaiting p) := h.modPool _

theorem Settles.toUpLeg (h : Settles s₀ s) (r : MemberRef) (b st : Nat) : Settles s₀ (s.toUpLeg r b st) :=
  h.joinWaitList _

theorem Settles.toDownLeg (h : Settles s₀ s) (r : MemberRef) (b st : Nat) : Settles s₀ (s.toDownLeg r b st) :=
  h.joinWaitList _

theorem Settles.completeGather (h : Settles s₀ s) (num st : Nat) : Settles s₀ (s.completeGather num st) :=
  (h.modOrder num _).modStation st _

theorem Settles.gatherTest (h : Settles s₀ s) (num : Nat) : Settles s₀ (s.gatherTest num) := by
  unfold State.gatherTest
  split
  · split
    · dsimp only
      split
      · exact h.modOrder num _
      · split
        · exact h.completeGather _ _
        · exact h
    · exact h
  · exact h

theorem Settles.present (h : Settles s₀ s) (st : Nat) (r : MemberRef) (b : Nat) : Settles s₀ (s.present st r b) :=
  (((h.markLane st b _).setMember r _).modOrder _ _).sendUnit _ _ _ _

theorem Settles.windowStep (h : Settles s₀ s) (st : Nat) : Settles s₀ (State.windowStep st s) := by
  unfold State.windowStep
  dsimp only
  split
  · exact h
  · split
    · split
      · exact h
      · exact (h.modStation st _).modOrder _ _
    · split
      · exact h.modStation st _
      · split
        · exact h.present _ _ _
        · split
          · exact h
          · exact h.modStation st _

theorem Settles.windowPass (h : Settles s₀ s) (st : Nat) : Settles s₀ (s.windowPass st) :=
  h.repeatTimes _ _ fun _ h => h.windowStep st

theorem Settles.clearPending (h : Settles s₀ s) (o : Order) : Settles s₀ (s.clearPending o) := by
  unfold State.clearPending
  split
  · exact h.forEach _ _ fun b _ h => (h.modBin b _).oweRestore _
  · exact h

theorem Settles.freeRecord (h : Settles s₀ s) (num : Nat) : Settles s₀ (s.freeRecord num) :=
  (h.dropOrder num).oweDrain.oweRestore _

theorem Settles.endOrder (h : Settles s₀ s) (o : Order) : Settles s₀ (s.endOrder o) := by
  unfold State.endOrder
  dsimp only
  refine Settles.freeRecord ?_ _
  have h1 := (h.giveUpItems o.number .orderEnd o.tags).forEach o.refs (fun r s => s.releaseHeld r) fun r _ h =>
    h.releaseHeld r
  split
  · exact ((h1.modStation _ _).clearPending _).notice _
  · exact (h1.modStation _ _).clearPending _

theorem Settles.endTest (h : Settles s₀ s) (num : Nat) : Settles s₀ (s.endTest num) := by
  unfold State.endTest
  split
  · split
    · exact (h.endOrder _).windowPass _
    · exact h
  · exact h

theorem Settles.settleOrder (h : Settles s₀ s) (num : Nat) : Settles s₀ (s.settleOrder num) := by
  unfold State.settleOrder
  split
  · exact ((h.gatherTest num).windowPass _).endTest num
  · exact h

theorem Settles.stationOpen (h : Settles s₀ s) (st : Nat) : Settles s₀ (State.stationOpen st s) :=
  (h.forEach _ _ fun f _ h => h.toUpLeg f.1 f.2 st).windowPass st

theorem Settles.admitMember (h : Settles s₀ s) (r : MemberRef) : Settles s₀ (State.admitMember r s) := by
  unfold State.admitMember
  split
  · split
    · exact h.requestFetch _ _
    · exact h
  · exact h

theorem Settles.admitHead (h : Settles s₀ s) (st : Nat) (o : Order) (rest : List Nat) :
    Settles s₀ (s.admitHead st o rest) := by
  unfold State.admitHead
  dsimp only
  refine Settles.forEach (Settles.oweWaiting ?_) _ _ fun r _ h => h.admitMember r
  exact ((h.modStation st _).modOrder _ _).modDesk _

theorem Settles.admissionStep (h : Settles s₀ s) (st : Nat) : Settles s₀ (State.admissionStep st s) := by
  unfold State.admissionStep
  split
  · exact h
  · split
    · split
      · exact h.admitHead _ _ _
      · exact h
    · exact h

theorem Settles.admissionPass (h : Settles s₀ s) : Settles s₀ s.admissionPass :=
  h.forEach _ _ fun st _ h => h.repeatTimes _ _ fun _ h => h.admissionStep st

theorem Settles.placeOrder (h : Settles s₀ s) (i : Nat) (o : Order) : Settles s₀ (s.placeOrder i o) :=
  ((h.modDesk _ (Tab.wf_put _ _ _)).modStation _ _).oweWaiting

/-! ## Carriage and restoration -/

theorem Settles.sendCarry (h : Settles s₀ s) (l : Nat) (c : Carry) : Settles s₀ (s.sendCarry l c) := h.sendUnit _ _ _ _

theorem Settles.assign (h : Settles s₀ s) (e : WaitEntry) (l : Nat) : Settles s₀ (s.assign e l) := by
  unfold State.assign
  dsimp only
  split
  · split
    · exact (((((h.dropWaiting _).modPool _).modLift l _).sendCarry _ _).leaveFront _ _).setMember _ _
    · exact ((((h.dropWaiting _).modPool _).modLift l _).sendCarry _ _).leaveFront _ _
  · exact ((((h.dropWaiting _).modPool _).modLift l _).sendCarry _ _).leaveLane _ _

theorem Settles.scan (h : Settles s₀ s) : Settles s₀ s.scan :=
  h.forEach _ _ fun e s h => by
    unfold State.scanEntry
    split
    · exact h.assign _ _
    · exact h

theorem Settles.createRestore (h : Settles s₀ s) (b st i : Nat) : Settles s₀ (s.createRestore b st i) :=
  (((h.modDesk _).modBin b _).placeOrder i _).admissionPass

theorem Settles.restoreAttempt (h : Settles s₀ s) (b : Nat) : Settles s₀ (State.restoreAttempt b s) := by
  unfold State.restoreAttempt
  split
  · split
    · split
      · exact h.createRestore _ _ _
      · exact h
    · exact h
  · exact h

theorem Settles.restorePass (h : Settles s₀ s) : Settles s₀ s.restorePass :=
  h.forEach _ _ fun b _ h => h.restoreAttempt b

theorem Settles.restoreTest (h : Settles s₀ s) (t : RestoreTest) : Settles s₀ (State.restoreTest t s) := by
  cases t with
  | bin b => exact h.restoreAttempt b
  | pass => exact h.restorePass

/-! ## Zones -/

theorem Settles.parkCrane (h : Settles s₀ s) (a : Nat) : Settles s₀ (State.parkCrane a s) := by
  have park : ∀ (hs : (s.crane a).state = .ready ∨ (s.crane a).state = .busy),
      Settles s₀ ((s.setCraneState a .parking).sendPark a) := by
    intro hs
    refine Settles.sendUnit ?_ _ _ _ _
    unfold State.setCraneState
    split
    · exact h
    · refine Settles.oweControl (h.modCrane a _ rfl (fun _ => ⟨by simp, rfl⟩) ?_)
      intro h1 h2
      rcases hs with hs | hs <;> contradiction
  unfold State.parkCrane
  split
  · split
    · exact park (.inl ‹_›)
    · exact park (.inr ‹_›)
    · exact h
  · exact h

theorem Settles.parkRequest (h : Settles s₀ s) (xs : List Nat) : Settles s₀ (s.parkRequest xs) :=
  h.forEach _ _ fun a _ h => h.parkCrane a

/-- A zone whose record the tests may change. -/
def Open (s₀ : State) (z : Nat) : Prop := (s₀.zone z).state = .stopping ∨ (s₀.zone z).state = .enabling

theorem Settles.isOpen (h : Settles s₀ s) (z : Nat) (hz : (s.zone z).state = .stopping ∨ (s.zone z).state = .enabling) :
    Open s₀ z := by
  by_contra hn
  simp only [Open, not_or] at hn
  have := h.zones z hn.1 hn.2
  rw [this] at hz
  rcases hz with hz | hz
  · exact hn.1 hz
  · exact hn.2 hz

theorem Settles.zoneTo (h : Settles s₀ s) (z : Nat) (f : Zone → Zone) (hz : Open s₀ z)
    (hc : (f (s.zone z)).state ≠ .clear ∨ s.running)
    (hf : ∀ r, (f r).standing = r.standing := by intro _; rfl) : Settles s₀ (s.zoneTo z f) :=
  ((h.modZone z f (hf _) hz hc).oweDrives _).notice _

theorem Settles.admitNow (h : Settles s₀ s) : Settles s₀ s.admitNow := (h.work _).admissionPass

theorem Settles.becomeClear (h : Settles s₀ s) (z : Nat) (hz : Open s₀ z) (hr : s.running) :
    Settles s₀ (s.becomeClear z) := by
  unfold State.becomeClear
  dsimp only
  exact ((((h.zoneTo z _ hz (.inr hr)).forEach _ _ fun a _ h => h.dispatchTest a).forEach _ _ fun st _ h =>
    h.stationOpen st).admitNow.oweScan).oweRestore _

theorem Settles.enterEnabling (h : Settles s₀ s) (z : Nat) (hz : Open s₀ z) : Settles s₀ (s.enterEnabling z) :=
  (h.zoneTo z _ hz (.inl (by simp))).oweZone z

theorem Settles.feedback (h : Settles s₀ s) (z : Nat) (hz : Open s₀ z) : Settles s₀ (State.feedback z s) := by
  unfold State.feedback
  split
  · split
    · exact h.zoneTo z _ hz (.inl (by simp))
    · exact h
  · split
    · exact h.enterEnabling z hz
    · exact h
  · exact h

theorem Settles.enterClosing (h : Settles s₀ s) (z : Nat) (hz : Open s₀ z) : Settles s₀ (s.enterClosing z) :=
  (h.zoneTo z _ hz (.inl (by simp))).feedback z hz

theorem Settles.enterSettling (h : Settles s₀ s) (z : Nat) (hz : Open s₀ z) : Settles s₀ (s.enterSettling z) := by
  have h1 := h.zoneTo z (fun r => { r with state := .settling, timer := s.after r.brakeSettle, awaited := [] }) hz
    (.inl (by simp))
  unfold State.enterSettling
  dsimp only
  split
  · exact h1.enterClosing z hz
  · exact h1

theorem Settles.stoppingTest (h : Settles s₀ s) (z : Nat) : Settles s₀ (State.stoppingTest z s) := by
  unfold State.stoppingTest
  split
  · rename_i hz
    have ho := h.isOpen z (.inl hz)
    dsimp only
    split
    · exact h.parkRequest _
    · exact (h.parkRequest _).enterSettling z ho
  · exact h

theorem Settles.readyTest (h : Settles s₀ s) (z : Nat) : Settles s₀ (State.readyTest z s) := by
  unfold State.readyTest
  split
  · rename_i hz
    split
    · exact h.becomeClear z (h.isOpen z (.inr hz.1)) hz.2.2
    · exact h
  · exact h

/-! ## Mode Control -/

theorem Settles.readyTests (h : Settles s₀ s) (zs : List Nat) : Settles s₀ (Machine.forEach zs State.readyTest s) :=
  h.forEach _ _ fun z _ h => h.readyTest z

theorem Settles.dispatchTests (h : Settles s₀ s) (xs : List Nat) :
    Settles s₀ (Machine.forEach xs (fun a s => s.dispatchTest a) s) := h.forEach _ _ fun a _ h => h.dispatchTest a

theorem Settles.changeMode (h : Settles s₀ s) (m : Mode) (cause : ModeCause) : Settles s₀ (s.changeMode m cause) := by
  unfold State.changeMode
  generalize allZones = zs
  generalize allAisles = xs
  dsimp only
  have h0 (f) : Settles s₀ (if m = .waking then (s.modMode f).oweMode else s.modMode f) := by
    split
    · exact (h.modMode f).oweMode
    · exact h.modMode f
  have h1 := fun f => (h0 f).readyTests zs
  have h2 := fun f => (h1 f).dispatchTests xs
  split
  · split
    · exact Settles.notice (Settles.restorePass (Settles.admissionPass (h2 _))) _
    · exact Settles.notice (Settles.restorePass (Settles.admissionPass (h1 _))) _
  · split
    · exact Settles.notice (h2 _) _
    · exact Settles.notice (h1 _) _

theorem Settles.drainTest (h : Settles s₀ s) : Settles s₀ s.drainTest := by
  unfold State.drainTest
  split
  · exact (((h.modMode _).parkRequest _).modMode _).oweMode
  · exact h

theorem Settles.parkWaitTest (h : Settles s₀ s) : Settles s₀ s.parkWaitTest := by
  unfold State.parkWaitTest
  split
  · dsimp only
    split
    · exact h.parkRequest _
    · exact (h.parkRequest _).changeMode _ _
  · exact h

theorem Settles.wakeTest (h : Settles s₀ s) : Settles s₀ s.wakeTest := by
  unfold State.wakeTest
  split
  · split
    · exact h.changeMode _ _
    · exact h
  · exact h

theorem Settles.thresholdTest (h : Settles s₀ s) : Settles s₀ s.thresholdTest := by
  unfold State.thresholdTest
  split
  · split
    · exact h.changeMode _ _
    · split
      · exact h.changeMode _ _
      · exact h
  · exact h

theorem Settles.handWaiting (h : Settles s₀ s) : Settles s₀ s.handWaiting := (h.modMode _).thresholdTest

/-! ## The tests at the end of an event -/

theorem Settles.zoneTests (h : Settles s₀ s) (z : Nat) : Settles s₀ (State.zoneTests z s) :=
  (h.stoppingTest z).readyTest z

theorem Settles.controlRound (h : Settles s₀ s) : Settles s₀ s.controlRound := by
  have h1 := (h.work fun w => { w with control := false, zoneTests := [], modeTest := false }).forEach s.work.zonesOwed
    State.zoneTests fun z _ h => h.zoneTests z
  unfold State.controlRound
  dsimp only
  split
  · exact h1.parkWaitTest.wakeTest
  · exact h1

theorem Settles.holdTest (h : Settles s₀ s) : Settles s₀ s.holdTest := by
  unfold State.holdTest
  split
  · split
    · exact h
    · exact (h.holdoff _).modDesk _
  · split
    · exact (h.holdoff _).modDesk _
    · exact h

theorem Settles.settleRound (h : Settles s₀ s) : Settles s₀ s.settleRound := by
  unfold State.settleRound
  have h1 : Settles s₀ s.drainPhase := by
    unfold State.drainPhase; split
    · exact (h.work _).drainTest
    · exact h
  have h2 : Settles s₀ s.drainPhase.controlLoop := h1.repeatTimes _ _ fun _ h => h.controlRound
  have h3 : Settles s₀ s.drainPhase.controlLoop.scanPhase := by
    unfold State.scanPhase; split
    · exact (h2.work _).scan
    · exact h2
  have h4 : Settles s₀ s.drainPhase.controlLoop.scanPhase.admissionPhase := by
    unfold State.admissionPhase; split
    · exact (h3.work _).admissionPass
    · exact h3
  have h5 : Settles s₀ s.drainPhase.controlLoop.scanPhase.admissionPhase.restorePhase :=
    (h4.work _).forEach _ _ fun t _ h => h.restoreTest t
  unfold State.waitingPhase
  split
  · exact (h5.work _).handWaiting
  · exact h5

/-- What the tests at the end of an event can do. -/
theorem settle_settles (h : s.Tidy) : Settles s s.settle := by
  have h1 : Settles s (Machine.repeatTimes State.settleRound 4 s) :=
    (Settles.refl h).repeatTimes _ _ fun _ h => h.settleRound
  unfold State.settle State.holdPhase
  split
  · exact h1.holdTest
  · exact h1

end Sys2Proof.Machine
end

