-- ==== Sys2Proof/Laws/Wire.lean ====
section
/-! SUPPORT. The laws of fields on the wire: what a number's bytes are, and that fields and entries are read back from
the bytes that carry them. -/

namespace Sys2Proof.Machine

/-! ## Numbers -/

@[simp] theorem be_length (w n : Nat) : (be w n).length = w := by
  induction w with
  | zero => rfl
  | succ w ih => simp [be, ih]

/-- The bytes of a number, the highest first (R23). -/
theorem be_getElem? (w n k : Nat) (h : k < w) : (be w n)[k]? = some (BitVec.ofNat 8 (n / 256 ^ (w - 1 - k))) := by
  induction w generalizing k with
  | zero => omega
  | succ w ih =>
    cases k with
    | zero => simp [be]
    | succ k => rw [be, List.getElem?_cons_succ, ih k (by omega), show w + 1 - 1 - (k + 1) = w - 1 - k by omega]

theorem ofBe_cons_foldl (bs : List Byte) (a : Nat) :
    bs.foldl (fun n b => n * 256 + b.toNat) a = a * 256 ^ bs.length + ofBe bs := by
  induction bs generalizing a with
  | nil => simp [ofBe]
  | cons b bs ih => rw [ofBe, List.foldl_cons, List.foldl_cons, ih, ih, List.length_cons, pow_succ]; ring

/-- The first byte of a number is its highest digit. -/
theorem ofBe_cons (b : Byte) (bs : List Byte) : ofBe (b :: bs) = b.toNat * 256 ^ bs.length + ofBe bs := by
  rw [ofBe, List.foldl_cons, ofBe_cons_foldl]; simp

/-- A number is read back from its bytes, up to what its width holds. -/
theorem ofBe_be_mod (w n : Nat) : ofBe (be w n) = n % 256 ^ w := by
  induction w with
  | zero => simp [be, ofBe, Nat.mod_one]
  | succ w ih =>
    have d : (BitVec.ofNat 8 (n / 256 ^ w)).toNat = n / 256 ^ w % 256 := BitVec.toNat_ofNat ..
    rw [be, ofBe_cons, ih, be_length, d, Nat.mul_comm, Nat.add_comm, pow_succ, ← Nat.mod_mul]

/-- A number that its width holds is read back. -/
theorem ofBe_be (w n : Nat) (h : n < 256 ^ w) : ofBe (be w n) = n := by rw [ofBe_be_mod, Nat.mod_eq_of_lt h]

/-! ## Fields -/

@[simp] theorem Fields.bytes_nil : Fields.bytes [] = [] := rfl

@[simp] theorem Fields.bytes_cons (f : Nat × Nat) (fs : Fields) : Fields.bytes (f :: fs) = be f.1 f.2 ++ fs.bytes := rfl

theorem Fields.bytes_append (fs gs : Fields) : Fields.bytes (fs ++ gs) = fs.bytes ++ gs.bytes := List.flatMap_append

/-- The bytes of fields are as many as their widths together. -/
theorem Fields.bytes_length (fs : Fields) : fs.bytes.length = (fs.map (·.1)).sum := by
  induction fs with
  | nil => rfl
  | cons f fs ih => simp [ih]

/-- Fields whose values fit are read back from the bytes that carry them, whatever follows (R23). -/
theorem splitFields_bytes (fs : Fields) (rest : List Byte) (h : fs.fit) :
    splitFields (fs.map (·.1)) (fs.bytes ++ rest) = fs.map (·.2) := by
  induction fs with
  | nil => rfl
  | cons f fs ih =>
    have fit : f.2 < 256 ^ f.1 := h f (List.mem_cons_self ..)
    have take : (be f.1 f.2 ++ (Fields.bytes fs ++ rest)).take f.1 = be f.1 f.2 := List.take_left' (be_length _ _)
    have drop : (be f.1 f.2 ++ (Fields.bytes fs ++ rest)).drop f.1 = Fields.bytes fs ++ rest := List.drop_left' (be_length _ _)
    simp only [List.map_cons, splitFields, Fields.bytes_cons, List.append_assoc, take, drop, ofBe_be _ _ fit,
      ih fun g hg => h g (List.mem_cons_of_mem _ hg)]

/-- Entries of one length are cut apart again (R15). -/
theorem splitEntries_flatten (w : Nat) (es : List (List Byte)) (h : ∀ e ∈ es, e.length = w) :
    splitEntries w es.length es.flatten = es := by
  induction es with
  | nil => rfl
  | cons e es ih =>
    have len : e.length = w := h e (List.mem_cons_self ..)
    rw [List.length_cons, splitEntries, List.flatten_cons, List.take_left' len, List.drop_left' len,
      ih fun d hd => h d (List.mem_cons_of_mem _ hd)]

end Sys2Proof.Machine
end

