-- ==== Sys2Proof/WellFormed.lean ====
section
/-! DEFINITION. Which commands are well formed: those whose lists and fields a telegram can carry (R1, R5, R15,
R23). A value that a telegram can carry but a rule does not allow is well formed: the part judges it. -/

namespace Sys2Proof

/-- A field of `w` bytes can carry the value (R23). -/
def fits (w n : Nat) : Bool := decide (n < 256 ^ w)

/-- A WRITE of entries of `w` bytes carries at least one entry, and its body holds them (R1, R5). -/
def listFits (w n : Nat) : Bool := decide (1 ≤ n) && decide (3 + w * n ≤ Config.bodyMax)

/-- An ADDRESS entry can be carried. -/
def AddressEntry.fits (e : AddressEntry) : Bool :=
  [e.role, e.unitPresence, e.unit, e.zonePresence, e.zone].all (Sys2Proof.fits 1)

/-- An AISLE entry can be carried. -/
def AisleEntry.fits (e : AisleEntry) : Bool :=
  [e.levels, e.columns, e.leftMirrored, e.rightMirrored, e.frontLevel, e.infeedLevel, e.frontSize, e.infeedSize,
      e.parkColumn, e.parkLevel, e.lowerZone, e.upperZone, e.split, e.mode, e.patronWeight, e.restoreWeight,
      e.houseWeight].all (Sys2Proof.fits 1) &&
    [e.frontOffset, e.columnPitch, e.levelPitch, e.travelVmax, e.travelAccel, e.hoistVmax, e.hoistAccel,
      e.handling].all (Sys2Proof.fits 2)

/-- A BIN entry can be carried. -/
def BinEntry.fits (e : BinEntry) : Bool :=
  [e.presence, e.aisle, e.face, e.level, e.column, e.state].all (Sys2Proof.fits 1)

/-- A STATION entry can be carried. -/
def StationEntry.fits (e : StationEntry) : Bool :=
  [e.kind, e.zone, e.laneSize].all (Sys2Proof.fits 1) && Sys2Proof.fits 3 e.slack

/-- A LIFT entry can be carried. -/
def LiftEntry.fits (e : LiftEntry) : Bool :=
  [e.zone, e.carriers].all (Sys2Proof.fits 1) && [e.mask, e.carryLimit].all (Sys2Proof.fits 3) &&
    Sys2Proof.fits 2 e.answerLimit

/-- An ITEM entry can be carried. -/
def ItemEntry.fits (e : ItemEntry) : Bool :=
  [e.presence, e.category, e.state, e.renewals].all (Sys2Proof.fits 1) && Sys2Proof.fits 6 e.item &&
    [e.bin, e.order, e.lendDay, e.dueDay, e.scanDay].all (Sys2Proof.fits 2)

/-- A CLASS entry can be carried. -/
def ClassEntry.fits (e : ClassEntry) : Bool :=
  [e.cls, e.renewLimit].all (Sys2Proof.fits 1) && Sys2Proof.fits 2 e.period

/-- A ZONE entry can be carried. -/
def ZoneEntry.fits (e : ZoneEntry) : Bool :=
  [e.debounce, e.parkAllowance, e.brakeSettle].all (Sys2Proof.fits 2) &&
    [e.shutterLimit, e.readyLimit].all (Sys2Proof.fits 3)

/-- A LINE entry can be carried. -/
def LineEntry.fits (e : LineEntry) : Bool := [e.selection, e.polarity, e.output].all (Sys2Proof.fits 1)

/-- A command is well formed. -/
def wellFormed : Instr → Bool
  | .frameArrival _ _ => true
  | .transmissionBegins _ => true
  | .order _ _ _ _ items => decide (1 ≤ items.length) && decide (items.length ≤ 8)
  | .cancel _ _ => true
  | .renew _ _ => true
  | .shift _ _ _ => true
  | .addressWrite _ _ es => listFits 5 es.length && es.all AddressEntry.fits
  | .trafficWrite _ _ es => listFits 1 es.length && es.all (fits 1)
  | .countersWrite _ _ es => listFits 4 es.length && es.all (fits 4)
  | .paramsWrite _ _ es => listFits 4 es.length && es.all (fits 4)
  | .aisleWrite _ _ es => listFits 33 es.length && es.all AisleEntry.fits
  | .binWrite _ _ es => listFits 16 es.length && es.all BinEntry.fits
  | .stationWrite _ _ es => listFits 46 es.length && es.all StationEntry.fits
  | .liftWrite _ _ es => listFits 47 es.length && es.all LiftEntry.fits
  | .itemWrite _ _ es => listFits 20 es.length && es.all ItemEntry.fits
  | .classWrite _ _ es => listFits 4 es.length && es.all ClassEntry.fits
  | .zoneWrite _ _ es => listFits 30 es.length && es.all ZoneEntry.fits
  | .lineWrite _ _ es => listFits 8 es.length && es.all LineEntry.fits
  | .pullWrite _ _ es => listFits 1 es.length && es.all (fits 1)
  | .read _ _ _ _ => true
  | .resetRead _ _ _ => true
  | .quiet _ => true
  | .wake _ => true
  | .restart _ => true
  | .join _ _ => true
  | .leave _ _ => true
  | .zoneShut _ _ => true
  | .zoneRestore _ _ => true
  | .sealNow _ _ => true
  | .clearFault _ _ => true
  | .flush _ _ => true
  | .day _ _ => true
  | .done _ _ _ _ => true
  | .fault _ _ _ => true
  | .parked _ _ _ => true
  | .status _ _ _ _ => true
  | .infeed _ _ => true
  | .fitness _ _ => true
  | .carried _ _ => true
  | .itemOut _ _ _ => true
  | .binDone _ _ => true
  | .itemIn _ _ _ => true
  | .intoBin _ _ _ => true
  | .moveDeadlineExpiry _ => true
  | .gatherTimerExpiry _ => true
  | .holdRepeatExpiry => true
  | .answerTimerExpiry _ => true
  | .carryDeadlineExpiry _ _ => true
  | .minuteTimerExpiry => true
  | .alarmDebounceExpiry _ => true
  | .parkDeadlineExpiry _ => true
  | .brakeSettleExpiry _ => true
  | .shutterCloseLimitExpiry _ => true
  | .shutterOpenLimitExpiry _ => true
  | .zoneReadyExpiry _ => true
  | .parkWaitExpiry => true
  | .wakeReadyExpiry => true
  | .lineInputChange _ _ => true
  | .callKeyDebounceExpiry _ => true
  | .powerOnReset => true
  | .pinReset => true
  | .resetLineRelease => true
  | .commandReset => true
  | .resetPeriodEnd => true
  | .lossOfSupply => true

end Sys2Proof
end

