-- ==== Sys2Proof/Tests/Slice0.lean ====
section
/-! SUPPORT. Tests: ill-formed commands are refused, the worked figures of the manual, and one or two steps of each
command on a small state. Each obligation's hypotheses are met by a witness named after it. -/

/- The tests are checked one after another: each evaluates large states. -/
set_option Elab.async false

namespace Sys2Proof.Machine.Tests

/-! ## Small states -/

/-- Aisle 4 of section 9.9, whose figures are those of the worked example of chapter 2. -/
def aisle : Aisle :=
  { levels := 40, columns := 200, frontOffset := 1200, columnPitch := 600, levelPitch := 400, leftMirrored := false
    rightMirrored := false, frontLevel := 3, infeedLevel := 1, frontSize := 2, infeedSize := 2, parkColumn := 0
    parkLevel := 2, travelVmax := 4000, travelAccel := 1000, hoistVmax := 1200, hoistAccel := 800, handling := 4000
    lowerZone := 1, upperZone := 2, split := 22, mode := .strict, patronWeight := 1, restoreWeight := 1
    houseWeight := 1 }

/-- An AISLE entry with the fields of the example aisle. -/
def aisleEntry : AisleEntry :=
  { levels := 40, columns := 200, frontOffset := 1200, columnPitch := 600, levelPitch := 400, leftMirrored := 0
    rightMirrored := 0, frontLevel := 3, infeedLevel := 1, frontSize := 2, infeedSize := 2, parkColumn := 0
    parkLevel := 2, travelVmax := 4000, travelAccel := 1000, hoistVmax := 1200, hoistAccel := 800, handling := 4000
    lowerZone := 1, upperZone := 2, split := 22, mode := 0, patronWeight := 1, restoreWeight := 1, houseWeight := 1 }

/-- A bin at a slot of the left face of aisle 5. -/
def binAt (level column : Nat) (st : BinState) (staged refs : Nat) : Bin :=
  { home := { aisle := 5, face := .left, level, column }, state := st, target := none, staged, pending := false
    itemRefs := refs }

/-- The crane of aisle 5 at its front, without a load. -/
def crane : Crane := { Crane.idle with state := .ready, place := some { point := .front, load := none } }

/-- A running part: aisle 5 with its crane, stations 4 (PICK), 5 (RESHELVE) and 6 (CHUTE), lifts 0 and 1, and bins in
each state. -/
def wing : State :=
  { State.reset with
    link := { State.reset.link with
      addresses := [(10, .crane 5), (20, .lift 0), (21, .lift 1), (30, .station 4), (31, .station 5), (32, .station 6),
        (40, .device 3)] }
    ports := { State.reset.ports with uQueue := [] }
    store :=
      { aisles := [(5, aisle)]
        bins := [(510, binAt 20 120 .stored 0 0), (511, binAt 21 1 .out 0 0), (512, binAt 22 1 .stranded 0 0),
          (513, binAt 23 1 .adrift 0 0), (514, binAt 24 1 .blocked 0 0), (620, binAt 30 180 .stored 0 1)] }
    dispatch := { cranes := [(5, crane)], jobTag := 65535 }
    desk := { State.reset.desk with
      stations := [(4, { Station.powerOn with kind := .pick, zone := 3, laneSize := 4 }),
        (5, { Station.powerOn with kind := .reshelve, zone := 3 })] }
    pool := { State.reset.pool with
      lifts := [(0, { Lift.powerOn with word := .on 0, mask := 48 }), (1, { Lift.powerOn with word := .tail 1 })] }
    loans := { State.reset.loans with
      today := 100
      items := [(9, { bin := 620, category := 1, state := .lent { lendDay := 90, dueDay := 99, renewals := 1 } })] }
    outputs := { drives := [5], shutters := [], beacon := false } }

/-- The state that a command answers. -/
def after (c : Instr) (s : State) : State :=
  match exec c s with
  | .next t => t
  | .fault _ => s
  | .refused _ => s

/-- The outcome and the reason of the ANSWER last handed over. -/
def answered (s : State) : Option (List Byte) :=
  (s.ports.uQueue.find? fun q => decide (q.telegram.kind = 16)).map fun q => q.telegram.body.drop 1

/-- A wing with a zone in some state. -/
def zoned (z : Nat) (st : ZoneState) (s : State) : State :=
  s.modZone z fun r => { r with state := st, timer := some 500, cause := some .alarm, awaited := [5] }

theorem wing_tidy : wing.Tidy := by
  constructor <;> decide +kernel

/-! ## Ill-formed commands are refused -/

theorem test_order_lists :
    wellFormed (.order 0 0 0 0 []) = false ∧
      wellFormed (.order 0 0 0 0 (List.replicate 9 { item := 1, bin := 0, category := 0 })) = false ∧
      wellFormed (.order 0 0 0 0 (List.replicate 8 { item := 1, bin := 0, category := 0 })) = true := by decide +kernel

theorem test_entries_that_do_not_fit :
    wellFormed (.addressWrite 0 0 [⟨256, 0, 0, 0, 0⟩]) = false ∧ wellFormed (.trafficWrite 0 0 [256]) = false ∧
      wellFormed (.countersWrite 0 0 [4294967296]) = false ∧ wellFormed (.paramsWrite 0 0 [4294967296]) = false ∧
      wellFormed (.binWrite 0 0 [⟨0, 0, 0, 0, 0, 256⟩]) = false ∧
      wellFormed (.stationWrite 0 0 [⟨0, 0, 2, 16777216⟩]) = false ∧
      wellFormed (.liftWrite 0 0 [⟨0, 0, 1, 5000, 65536⟩]) = false ∧
      wellFormed (.itemWrite 0 0 [⟨0, 281474976710656, 0, 0, 0, 0, 0, 0, 0, 0⟩]) = false ∧
      wellFormed (.classWrite 0 0 [⟨0, 65536, 0⟩]) = false ∧ wellFormed (.zoneWrite 0 0 [⟨0, 0, 65536, 0, 0⟩]) = false ∧
      wellFormed (.lineWrite 0 0 [⟨256, 0, 0⟩]) = false ∧ wellFormed (.pullWrite 0 0 [256]) = false ∧
      wellFormed (.aisleWrite 0 0 [{ aisleEntry with frontOffset := 65536 }]) = false := by decide +kernel

theorem test_lists_that_do_not_fit :
    wellFormed (.trafficWrite 0 0 []) = false ∧ wellFormed (.pullWrite 0 0 (List.replicate 238 0)) = false ∧
      wellFormed (.addressWrite 0 0 (List.replicate 48 ⟨0, 1, 0, 1, 0⟩)) = false ∧
      wellFormed (.countersWrite 0 0 (List.replicate 60 0)) = false ∧
      wellFormed (.paramsWrite 0 0 []) = false ∧
      wellFormed (.aisleWrite 0 0 (List.replicate 8 aisleEntry)) = false ∧
      wellFormed (.binWrite 0 0 (List.replicate 15 ⟨0, 0, 0, 0, 0, 0⟩)) = false ∧
      wellFormed (.stationWrite 0 0 (List.replicate 6 ⟨0, 0, 2, 0⟩)) = false ∧
      wellFormed (.liftWrite 0 0 (List.replicate 6 ⟨0, 0, 1, 0, 0⟩)) = false ∧
      wellFormed (.itemWrite 0 0 (List.replicate 12 ⟨0, 1, 0, 0, 0, 0, 0, 0, 0, 0⟩)) = false ∧
      wellFormed (.classWrite 0 0 (List.replicate 60 ⟨0, 0, 0⟩)) = false ∧
      wellFormed (.zoneWrite 0 0 (List.replicate 8 ⟨0, 0, 0, 0, 0⟩)) = false ∧
      wellFormed (.lineWrite 0 0 (List.replicate 30 ⟨0, 0, 0⟩)) = false := by decide +kernel

/-! ## Worked figures of the manual -/

/-- The axis times of section 3.9.2, and those of section 9.9.1. -/
theorem test_axis_times :
    [axisTime 1000 4000 1000, axisTime 1500 4000 1000, axisTime 16000 4000 1000, axisTime 60000 4000 1000,
      axisTime 6300 1200 800, axisTime 405000 200 100, axisTime 1200 4000 1000, axisTime 400 1200 800] =
      [2000, 2450, 8000, 19000, 6750, 2027000, 2191, 1415] := by decide +kernel

/-- The fetch of section 3.9.1: estimate 46,000 and deadline 62,500. -/
theorem test_fetch_estimate_and_deadline :
    let r := { aisle with frontOffset := 0, columnPitch := 500, levelPitch := 350, frontLevel := 2, infeedLevel := 0
                          parkColumn := 2, parkLevel := 1 }
    r.jobEstimate .front (.slot .left 20 120) .front = 46000 ∧ Params.powerOn.moveDeadline 46000 = 62500 := by
  decide +kernel

/-- The PARK estimate of section 9.9.1. -/
theorem test_park_estimate : aisle.parkEstimate .front = 2191 := by decide +kernel

/-- Section 6.8.3: lift 0 of three leaves; the pointer goes on naming lift 1. -/
theorem test_leave_renumbers :
    let t := after (.leave 7 0) { wing with pool := { wing.pool with
      lifts := [(0, { Lift.powerOn with word := .on 0 }), (1, { Lift.powerOn with word := .on 1 }),
        (2, { Lift.powerOn with word := .tail 2 })], pointer := 1 } }
    ((t.lift 0).word, (t.lift 1).word, (t.lift 2).word, t.pool.pointer) = (.off, .on 0, .tail 1, 0) := by decide +kernel

/-- Section 2.3 as used in section 9.9: aisle 4's front and infeed lie in zone 1, and it touches zones 1 and 2. -/
theorem test_split_aisle : aisle.frontZone = 1 ∧ aisle.infeedZone = 1 ∧ aisle.zones.length = 2 ∧ 1 ∈ aisle.zones ∧
    2 ∈ aisle.zones := by decide +kernel

/-- The whole course of a power-on reset ends in the state right after reset. -/
theorem test_power_on_reset :
    after .resetPeriodEnd { after .powerOnReset wing with now := 0 } = State.reset := by decide +kernel

/-! ## Witnesses: the step, the invariants, the queues -/

theorem witness_StepTakesFrontCommand : { wing with pending := [.quiet 1, .wake 2] }.pending = .quiet 1 :: [.wake 2] := rfl

theorem witness_StepOnEmptyQueueTicks :
    State.reset.pending = [] ∧ State.reset.dueCommand = none ∧
      { State.reset with now := 60000 }.dueCommand = some .minuteTimerExpiry := by decide +kernel

theorem witness_NothingTakenOutsideRunning : ¬ wing.blank.running ∧ needsRunning (.quiet 1) = true := by decide +kernel

theorem witness_QueuesStayBounded : wing.queuesBounded ∧ ∃ t, step wing = .next t :=
  ⟨by constructor <;> decide +kernel, _, rfl⟩

theorem wing_rotation : wing.rotationLaw := by
  have words : ∀ l, l < 6 → (wing.lift l).word = [Word.on 0, .tail 1].getD l .off := by decide +kernel
  have size : wing.rotationSize = 2 := by decide +kernel
  refine ⟨by decide +kernel, ?_, ?_, by decide +kernel, by decide +kernel⟩ <;> intro l q hl
  all_goals
    rw [words l hl, size]
    match l with
    | 0 | 1 => simp [Word.seq]; omega
    | n + 2 => simp [Word.seq]

theorem witness_RotationKeepsItsLaw : wing.Tidy ∧ wing.rotationLaw ∧ ∃ t, step wing = .next t :=
  ⟨wing_tidy, wing_rotation, _, rfl⟩

theorem witness_OutputsFollowEveryStep : wing.Tidy ∧ wing.outputsFollow ∧ ∃ t, step wing = .next t :=
  ⟨wing_tidy, show wing.outputs = wing.outputLevels by decide +kernel, _, rfl⟩

theorem witness_TablesStayCanonical : wing.Tidy ∧ ∃ t, step wing = .next t := ⟨wing_tidy, _, rfl⟩

/-- In RUN aisle 5's drive is asserted; with one of its zones SEALED it is not. -/
theorem witness_DriveEnableFollowsZonesAndMode :
    wing.Tidy ∧ wing.outputsFollow ∧ (∃ t, exec (.zoneShut 0 1) wing = .next t ∧ t.running) ∧
      (after (.sealNow 0 1) wing).outputs.drives = [] ∧
      ∃ t, exec .pinReset wing = .next t ∧ t.resets.phase = .resetting :=
  ⟨wing_tidy, show wing.outputs = wing.outputLevels by decide +kernel, ⟨_, rfl, by decide +kernel⟩, by decide +kernel,
    _, rfl, by decide +kernel⟩

/-- A discardable and a kept telegram. -/
def passing : Queued := { telegram := { dest := 1, src := 1, kind := 1, tag := 0, body := [] }, cls := .forwarded false }
def kept : Queued := { passing with cls := .kept }

theorem witness_HandOverToSendQueue :
    (List.replicate 63 kept).length < 64 ∧ 64 ≤ (List.replicate 64 kept).length ∧ passing.cls.discardable = true ∧
      kept.cls.discardable = false ∧ 64 ≤ ([passing] ++ passing :: List.replicate 62 kept).length ∧
      (∀ y ∈ List.replicate 64 kept, y.cls.discardable = false) ∧ wing.link.counters.wf ∧
      enqueue (List.replicate 64 kept) passing = (List.replicate 64 kept, true) := by decide +kernel

/-- Two NOTICEs with a HOLDOFF between them, which a queue of 60 takes whole beside an ANSWER; and a telegram sent down. -/
theorem witness_EventHandsOverItsSends :
    let u := ((wing.notice (.callKey 1)).holdoff 5000).notice (.callKey 2)
    let s : State := { wing with ports := { wing.ports with uQueue := List.replicate 60 kept, noticeSeq := 65535 } }
    let sent := (s.closeEvent u (some (.done 9 7))).ports
    u.work.up = [.notice (.callKey 1), .holdoff 5000, .notice (.callKey 2)] ∧
      s.ports.uQueue.length + 1 + u.work.up.length = 64 ∧
      (sent.uQueue.drop 60).map (fun q => (q.telegram.kind, q.telegram.tag)) = [(16, 9), (17, 65535), (18, 0), (17, 0)] ∧
      sent.noticeSeq = 1 ∧ wing.ports.dQueue.length + (wing.sendPark 5).work.down.length ≤ 64 ∧
      (wing.sendPark 5).work.down.length = 1 ∧ wing.ports.uQueue.length < 64 := by decide +kernel

/-! ## Witnesses: frames and forwarding -/

/-- A telegram. -/
def telegram (dest src kind tag : Nat) (body : List Byte) : Telegram := { dest, src, kind, tag, body }

theorem witness_FramesCarryTelegramsBack :
    (let t := telegram 127 127 63 65535 (List.replicate 24 255)
     t.dest < 128 ∧ t.src < 128 ∧ t.kind < 64 ∧ t.tag < 65536 ∧ t.body.length ≤ 240 ∧ parseFrame t.frame = some t) ∧
      (List.replicate 240 (255 : Byte)).length ≤ 240 ∧
      parseFrame (telegram 0 1 0 0 []).frame = some (telegram 0 1 0 0 []) := by decide +kernel

/-- A telegram is read back from its frame. -/
abbrev framed (t : Telegram) : Prop := parseFrame t.frame = some t

/-- A wrong check, a telegram to the gateway from its own side, one to a unit from the field, and a report of bad
form. -/
theorem witness_ArrivalDiscardedAndCounted :
    wing.running ∧ wing.link.counters.wf ∧ parseFrame [] = none ∧
      parseFrame ((telegram 126 10 42 0 []).frame.dropLast ++ [0]) = none ∧ framed (telegram 0 1 1 0 []) ∧
      framed (telegram 127 1 1 0 []) ∧ framed (telegram 126 10 44 0 []) := by decide +kernel

/-- Reports of bad form, and reports whose source has not the fitting role. -/
theorem witness_ArrivalDiscardedAndCounted_stray :
    takenDown (telegram 126 10 44 0 []) = none ∧
      framed (telegram 126 30 44 0 [0, 1]) ∧ framed (telegram 126 30 45 0 [0]) ∧ framed (telegram 126 10 50 0 [0, 1]) ∧
      (∃ make, takenDown (telegram 126 30 44 0 [0, 1]) = some (.crane make)) ∧ (∀ a, wing.addr 30 ≠ .crane a) ∧
      (∃ make, takenDown (telegram 126 30 45 0 [0]) = some (.lift make)) ∧ (∀ l, wing.addr 30 ≠ .lift l) ∧
      (∃ make, takenDown (telegram 126 10 50 0 [0, 1]) = some (.station make)) ∧ ∀ st, wing.addr 10 ≠ .station st := by
  have h30 : wing.addr 30 = .station 4 := by decide +kernel
  have h10 : wing.addr 10 = .crane 5 := by decide +kernel
  refine ⟨rfl, by decide +kernel, by decide +kernel, by decide +kernel, ⟨_, rfl⟩, ?_, ⟨_, rfl⟩, ?_, ⟨_, rfl⟩, ?_⟩ <;>
    intro a h <;> simp [h30, h10] at h

/-- Each treatment in each direction, and a zone that a destination touches shut and not. -/
theorem witness_ArrivalForwarded :
    let s := { wing with link := { wing.link with
      trafficUp := [(8, .guard), (9, .drop)], trafficDown := [(8, .pass), (9, .drop)] } }
    s.running ∧ s.link.counters.wf ∧
      parseFrame (telegram 0 1 7 0 []).frame = some (telegram 0 1 7 0 []) ∧
      parseFrame (telegram 40 1 10 0 []).frame = some (telegram 40 1 10 0 []) ∧
      s.treatUp 7 = .pass ∧ s.treatUp 8 = .guard ∧ s.treatUp 9 = .drop ∧ s.treatDown 8 = .pass ∧ s.treatDown 9 = .drop ∧
      s.treatDown 10 = .guard ∧ (∀ z, z < 8 → (s.zone z).state = .clear) ∧
      (∀ z ∈ s.zonesTouched 40, (s.zone z).state = .clear) ∧
      ¬ (∀ z ∈ (zoned 3 .sealed s).zonesTouched 40, ((zoned 3 .sealed s).zone z).state = .clear) := by decide +kernel

theorem witness_ArrivalRunsItsCommand :
    wing.running ∧
      (let m := telegram 127 1 2 9 [0, 5]
       parseFrame m.frame = some m ∧ takenUp m = .request (.cancel 9 5)) ∧
      (let m := telegram 126 1 2 9 [0, 5]
       parseFrame m.frame = some m ∧ m.dest = 126 ∧ takenUp m = .request (.cancel 9 5)) ∧
      takenUp (telegram 126 1 2 9 [0]) = .badForm ∧ framed (telegram 127 1 5 9 [0]) ∧
      takenUp (telegram 127 1 5 9 [0]) = .badForm ∧ takenUp (telegram 127 1 7 9 [3, 0, 6]) = .refused .valueRange ∧
      answered (after (.frameArrival .u (telegram 127 1 5 9 [0]).frame) wing) = some [1, 1, 0, 1] ∧
      takenUp (telegram 126 1 7 9 [3, 0, 6]) = .refused .valueRange ∧
      takenUp (telegram 126 1 5 9 [0, 0, 0, 0]) = .writeRefused .unknownTable := by decide +kernel

theorem witness_ArrivalRunsItsCommand_reports :
    (∃ make, takenDown (telegram 126 10 44 0 [2, 1]) = some (.crane make) ∧ wing.addr 10 = .crane 5) ∧
      (∃ make, takenDown (telegram 126 20 45 0 [0]) = some (.lift make) ∧ wing.addr 20 = .lift 0) ∧
      ∃ make, takenDown (telegram 126 30 50 0 [0, 1]) = some (.station make) ∧ wing.addr 30 = .station 4 :=
  ⟨⟨_, rfl, rfl⟩, ⟨_, rfl, rfl⟩, ⟨_, rfl, rfl⟩⟩

/-- An INFEED frame from the field runs INFEED: bin 513 is ADRIFT, and its recovery is queued and dispatched. -/
theorem test_frame_arrival_runs_infeed :
    ((after (.frameArrival .d (telegram 126 10 44 0 [2, 1]).frame) wing).bin 513).map (·.state) = some .out := by
  decide +kernel

theorem witness_TransmissionTakesTheHead :
    let s (q : List Queued) := { wing with ports := { wing.ports with uQueue := q, dQueue := q } }
    wing.link.counters.wf ∧ (s []).ports.uQueue = [] ∧ (s [kept]).ports.dQueue = kept :: [] ∧ wing.running ∧
      ¬ wing.blank.running ∧ wing.blank.resets.phase ≠ .restarting ∧
      (after (.restart 1) wing).resets.phase = .restarting ∧
      wing.guardPasses 40 = true ∧ (zoned 3 .sealed wing).guardPasses 40 = false ∧
      (∀ z ∈ (wing.aisle 5).zones, (wing.zone z).state = .clear) ∧
      (after (.transmissionBegins .d) (s [{ passing with cls := .forwarded true }])).counter 8 = 1 ∧
      (after (.transmissionBegins .d) (zoned 1 .sealed (s [{ kept with cls := .move 5 }]))).counter 6 = 1 := by
  decide +kernel

/-! ## Witnesses: COMMAND and WRITE -/

/-- The command that a COMMAND telegram carries. -/
def commanded (name arg : Nat) : TakenUp :=
  takenUp { dest := 126, src := 0, kind := 7, tag := 9, body := be 1 name ++ be 2 arg }

theorem witness_CommandNamesAndArguments :
    255 < 256 ∧ 65535 < 65536 ∧ commanded 0 65535 = .request (.quiet 9) ∧ commanded 3 5 = .request (.join 9 5) ∧
      commanded 3 6 = .refused .valueRange ∧ commanded 7 7 = .request (.sealNow 9 7) ∧
      commanded 7 8 = .refused .valueRange ∧ commanded 9 11 = .request (.flush 9 11) ∧
      commanded 9 12 = .refused .valueRange ∧ commanded 10 65535 = .request (.day 9 65535) ∧
      commanded 11 0 = .refused .valueRange ∧ commanded 255 65535 = .refused .valueRange := by decide +kernel

/-- No refusal; a refusal of the first entry, of a later one, and by the end of the table; and 35 clamped fields, of
which 33 fit. -/
theorem witness_WriteStopsAtFirstRefusal :
    let w (es : List Nat) (first : Nat) := writeEntries 12 judgeCounter es first wing
    let z := writeEntries 8 judgeZone (List.replicate 7 ⟨65535, 65535, 65535, 0, 0⟩) 0 wing
    ((w [0, 0] 10).applied, (w [0, 0] 10).refusal) = (2, none) ∧
      ((w [1, 0] 0).applied, (w [1, 0] 0).refusal) = (0, some .valueRange) ∧
      ((w [0, 1, 0] 0).applied, (w [0, 1, 0] 0).refusal) = (1, some .valueRange) ∧
      ((w [0, 0, 0] 10).applied, (w [0, 0, 0] 10).refusal) = (2, some .indexRange) ∧
      (z.refusal, z.clamps.length, z.fields.length, z.fields[1]?) = (none, 35, 2 + 7 * 33, some 0) := by decide +kernel

theorem witness_WritesAreTakenWhole :
    wing.running ∧ (0 : BitVec 16) = 0 ∧ (1 : BitVec 16) ≠ 0 ∧
      answered (after (.itemWrite 7 1 [⟨0, 1, 620, 0, 1, 0, 0, 0, 0, 0⟩]) wing) = some [1, 3, 0, 1] := by decide +kernel

/-- Each value; the reserved addresses; a unit named elsewhere; units not at rest; and entries that are applied. -/
theorem witness_AddressWrite :
    let busy := { wing with
      desk := { wing.desk with stations := wing.desk.stations.mapVals fun w => { w with lane := [⟨510, .lined, ⟨1, 0⟩⟩] } } }
    wing.running ∧ wing.Tidy ∧ (0 : BitVec 16).toNat < 128 ∧ (127 : BitVec 16).toNat < 128 ∧
      addressValue ⟨0, 1, 0, 1, 0⟩ = some .none ∧ addressValue ⟨1, 0, 11, 1, 0⟩ = some (.crane 11) ∧
      addressValue ⟨1, 0, 12, 1, 0⟩ = none ∧ addressValue ⟨2, 0, 5, 1, 0⟩ = some (.lift 5) ∧
      addressValue ⟨3, 0, 23, 1, 0⟩ = some (.station 23) ∧ addressValue ⟨4, 1, 0, 0, 7⟩ = some (.device 7) ∧
      (AddrEntry.crane 5).namesUnit = true ∧ 11 ≠ 10 ∧ wing.addr 10 = .crane 5 ∧ (wing.crane 5).state = .ready ∧
      wing.addr 20 = .lift 0 ∧ (wing.lift 0).word = .on 0 ∧ busy.running ∧ busy.addr 30 = .station 4 ∧
      (busy.station 4).lane ≠ [] ∧ wing.addr 11 = .none ∧ (wing.station 6).lane = [] ∧ wing.addr 32 = .station 6 ∧
      wing.desk.orders = [] ∧
      (after (.addressWrite 1 32 [⟨4, 1, 0, 0, 7⟩]) wing).addr 32 = .device 7 ∧
      answered (after (.addressWrite 1 11 [⟨1, 0, 5, 1, 0⟩]) wing) = some [1, 4, 0, 1] ∧
      answered (after (.addressWrite 1 10 [⟨0, 1, 0, 1, 0⟩]) wing) = some [1, 21, 0, 1] := by
  refine ⟨by decide +kernel, wing_tidy, ?_⟩
  decide +kernel

theorem witness_TrafficAndCountersWrite :
    wing.running ∧ wing.Tidy ∧ (63 : BitVec 16).toNat < 64 ∧ 64 ≤ (64 : BitVec 16).toNat ∧
      (127 : BitVec 16).toNat < 128 ∧
      (11 : BitVec 16).toNat < 12 ∧ 2 < 3 ∧
      (after (.trafficWrite 1 63 [2]) wing).treatDown 63 = .drop ∧
      (after (.trafficWrite 1 64 [1]) wing).treatUp 0 = .guard ∧
      (after (.countersWrite 1 11 [0]) (wing.raise 11)).counter 11 = 0 ∧ (wing.raise 11).counter 11 = 1 := by
  refine ⟨by decide +kernel, wing_tidy, ?_⟩
  decide +kernel

/-- Values below, at and above the ranges, and the wake thresholds of a quiet part. -/
theorem witness_ParamsWrite :
    let q := { wing with mode := { wing.mode with mode := .quiet, lastStaging := 4096, lastWaiting := 256 } }
    1 ≤ 256 ∧ wing.running ∧ q.running ∧ clampTo 1 1 256 0 = (1, [(1, 1)]) ∧ clampTo 1 1 256 256 = (256, []) ∧
      clampTo 1 1 256 257 = (256, [(1, 256)]) ∧ (after (.paramsWrite 1 0 [257]) wing).params.watermark = 256 ∧
      (after (.paramsWrite 1 2 [20000]) wing).params.holdRepeat = 10000 ∧
      (after (.paramsWrite 1 8 [4096]) q).mode.mode = .run ∧ (after (.paramsWrite 1 9 [0]) q).mode.mode = .quiet ∧
      (after (.paramsWrite 1 11 [1]) wing).params.callKeyInhibit = true ∧
      answered (after (.paramsWrite 1 11 [2]) wing) = some [1, 4, 0, 1] := by decide +kernel

/-- A watermark written above the count of a part that holds off, and at the count of one that does not; and one that a
wake, in the same WRITE, brings the count below again: no HOLDOFF is sent. -/
theorem witness_ParamsWrite_watermark :
    let waits : State := { wing with
      params := { wing.params with watermark := 2 }
      desk := { wing.desk with
        stations := [(4, { (wing.station 4) with orderQueue := [1] })]
        orders := [(0, newOrder 1 .patron 4 77 [(510, [100])] false)] } }
    let holding : State := { waits with desk := { waits.desk with holding := true, holdTimer := some 9 } }
    let quiet : State := { waits with mode := { waits.mode with mode := .quiet, lastWaiting := 1 } }
    let all : Instr := .paramsWrite 1 0 [1, 10000, 5000, 25, 5000, 0, 8, 240, 0, 1]
    let sent (s : State) : Bool × List (List Byte) :=
      (s.desk.holding, (s.ports.uQueue.filter fun q => decide (q.telegram.kind = 18)).map fun q => q.telegram.body)
    sent (after (.paramsWrite 1 0 [256]) holding) = (false, [[0, 0]]) ∧
      sent (after (.paramsWrite 1 0 [1]) waits) = (true, [[39, 16]]) ∧
      sent (after all quiet) = (false, []) ∧ (after all quiet).mode.mode = .run ∧
      (after all quiet).waitingCount = 0 := by decide +kernel

/-- Levels 0; a field beyond its range; work, a zone not CLEAR, and a bin outside the new geometry; and a record that is
applied, changing the geometry or not. -/
theorem witness_AisleWrite :
    let home := { wing with
      store := { wing.store with bins := [(510, binAt 20 120 .stored 0 0)] }, dispatch := { wing.dispatch with cranes := [] } }
    let low (n : Nat) := { aisleEntry with levels := n, frontLevel := 3, infeedLevel := 1 }
    wing.running ∧ wing.Tidy ∧ (11 : BitVec 16).toNat < 12 ∧ home.running ∧ home.aisleResting 5 = true ∧
      home.slotLost 5 (aisleRecord (low 19)) = true ∧ home.slotLost 5 (aisleRecord (low 20)) = false ∧
      wing.aisleResting 5 = false ∧ (low 64).levels ≤ 64 ∧ aisleMalformed (low 64) = false ∧
      aisleMalformed (low 65) = true ∧
      aisleMalformed { aisleEntry with columns := 201 } = true ∧ (aisleRecord aisleEntry).shape = (wing.aisle 5).shape ∧
      aisleRecord (low 0) = Aisle.unconfigured ∧
      answered (after (.aisleWrite 1 5 [low 65]) home) = some [1, 4, 0, 1] ∧
      answered (after (.aisleWrite 1 5 [low 41]) wing) = some [1, 21, 0, 1] ∧
      answered (after (.aisleWrite 1 5 [low 41]) (zoned 1 .sealed home)) = some [1, 18, 0, 1] ∧
      answered (after (.aisleWrite 1 5 [low 19]) home) = some [1, 5, 0, 1] ∧
      answered (after (.aisleWrite 1 5 [low 20]) home) = some [0, 0, 1, 1] ∧
      answered (after (.aisleWrite 1 5 [{ aisleEntry with patronWeight := 0 }]) wing) =
        some [2, 0, 1, 1, 0, 5, 23, 0, 0, 0, 1] ∧
      aisleClamps { aisleEntry with frontOffset := 5001, handling := 0, houseWeight := 256 } =
        [(3, 5000), (18, 500), (25, 255)] ∧ aisleClamps aisleEntry = [] ∧
      ((after (.aisleWrite 1 11 [low 64]) wing).aisle 11).levels = 64 := by
  refine ⟨by decide +kernel, wing_tidy, ?_⟩
  decide +kernel

/-- A removed bin left on the front or on the infeed list: a change of either size and levels 0 are refused with
AISLE_BUSY, and a change of other geometry or of a weight is applied; with the lists empty each is. -/
theorem witness_AisleWrite_lists :
    let home (front infeed : List Nat) : State := { wing with
      store := { wing.store with bins := [(513, binAt 23 1 .adrift 0 0)] }
      dispatch := { wing.dispatch with cranes := [(5, { Crane.idle with front, infeed })] } }
    let removed (front infeed : List Nat) := after (.binWrite 1 513 [⟨1, 0, 0, 0, 0, 0⟩]) (home front infeed)
    let put (e : AisleEntry) (front infeed : List Nat) := answered (after (.aisleWrite 1 5 [e])
      { (removed front infeed) with ports := { wing.ports with uQueue := [] } })
    let resized (f i : Nat) := { aisleEntry with frontSize := f, infeedSize := i }
    (removed [513] []).running ∧ (removed [513] []).bin 513 = none ∧ ((removed [513] []).crane 5).front = [513] ∧
      (removed [513] []).aisleResting 5 = true ∧ ((removed [] [513]).crane 5).infeed = [513] ∧
      [resized 1 2, resized 2 1, resized 3 3, { aisleEntry with levels := 0 }].map (fun e =>
        [put e [513] [], put e [] [513], put e [] []]) =
        List.replicate 4 [some [1, 21, 0, 1], some [1, 21, 0, 1], some [0, 0, 1, 1]] ∧
      [{ aisleEntry with levels := 41 }, { aisleEntry with split := 23 }, { aisleEntry with patronWeight := 9 }].map (fun e =>
        put e [513] [513]) = List.replicate 3 (some [0, 0, 1, 1]) := by decide +kernel

/-- A slot that does not fit, an absent bin at a claimed and at a free slot, present bins of each state, and an ADRIFT bin
that a carry in flight names. -/
theorem witness_BinWritePresent :
    let e (level column state : Nat) : BinEntry := { presence := 0, aisle := 5, face := 0, level, column, state }
    let put (b : BitVec 16) (x : BinEntry) := after (.binWrite 1 b [x]) wing
    let carried : State := wing.modLift 0 fun r => { r with carries :=
      [{ tag := 7, bin := 513, leg := .up, aisle := 5, station := 4, ref := ⟨12, 0⟩, late := false, timer := some 70 }] }
    carried.running ∧ (carried.bin 513).map (·.state) = some .adrift ∧ (carried.carries.map (·.bin)) = [513] ∧
      answered (after (.binWrite 1 513 [e 23 1 0]) carried) = some [1, 7, 0, 1] ∧
      wing.running ∧ (49151 : BitVec 16).toNat < 49152 ∧ (e 40 200 4).presence = 0 ∧
      answered (put 1 (e 41 200 0)) = some [1, 4, 0, 1] ∧ answered (put 1 (e 40 200 1)) = some [1, 4, 0, 1] ∧
      wing.bin 49151 = none ∧ answered (put 49151 (e 20 120 0)) = some [1, 5, 0, 1] ∧
      ((put 49151 (e 40 200 4)).bin 49151).map (·.state) = some .blocked ∧
      (wing.bin 511).map (·.state) = some .out ∧ answered (put 511 (e 21 1 0)) = some [1, 7, 0, 1] ∧
      answered (put 513 (e 23 1 4)) = some [1, 7, 0, 1] ∧ answered (put 510 (e 21 1 0)) = some [1, 5, 0, 1] ∧
      ((put 510 (e 40 200 4)).bin 510).map (·.home.level) = some 40 ∧
      ((put 513 (e 23 1 0)).bin 513).map (·.state) = some .stored ∧
      ((put 512 (e 1 1 0)).bin 512).map (·.state) = some .stored := by decide +kernel

/-- Another presence value, an absent record, a busy bin, one with item entries, and one that is removed. -/
theorem witness_BinWriteAbsent :
    let e (p : Nat) : BinEntry := { presence := p, aisle := 0, face := 0, level := 0, column := 0, state := 0 }
    let put (b : BitVec 16) (p : Nat) := after (.binWrite 1 b [e p]) wing
    wing.running ∧ wing.Tidy ∧ (49151 : BitVec 16).toNat < 49152 ∧ 1 < (e 2).presence ∧ (e 1).presence = 1 ∧
      wing.bin 49151 = none ∧ answered (put 510 2) = some [1, 4, 0, 1] ∧ answered (put 49151 1) = some [0, 0, 1, 1] ∧
      (wing.bin 511).map (·.state) = some .out ∧ answered (put 511 1) = some [1, 7, 0, 1] ∧
      (wing.bin 620).map (·.itemRefs) = some 1 ∧ answered (put 620 1) = some [1, 8, 0, 1] ∧
      (wing.bin 512).map (·.state) = some .stranded ∧ wing.carries = [] ∧ (put 512 1).bin 512 = none := by
  refine ⟨by decide +kernel, wing_tidy, ?_⟩
  decide +kernel

/-- Malformed entries, changes that the state forbids, and entries that are applied, clamped. -/
theorem witness_StationAndLiftWrite :
    let busy := { wing with
      desk := { wing.desk with stations := wing.desk.stations.mapVals fun w => { w with lane := [⟨510, .lined, ⟨1, 0⟩⟩] } } }
    wing.running ∧ wing.Tidy ∧ busy.running ∧ (23 : BitVec 16).toNat < 24 ∧ (5 : BitVec 16).toNat < 6 ∧
      (busy.station 4).lane ≠ [] ∧ (wing.lift 0).word = .on 0 ∧ (wing.lift 5).word = .off ∧
      answered (after (.stationWrite 1 23 [⟨3, 0, 2, 0⟩]) wing) = some [1, 4, 0, 1] ∧
      answered (after (.stationWrite 1 23 [⟨2, 0, 9, 0⟩]) wing) = some [1, 4, 0, 1] ∧
      answered (after (.stationWrite 1 4 [⟨0, 3, 5, 0⟩]) busy) = some [1, 22, 0, 1] ∧
      ((after (.stationWrite 1 4 [⟨0, 3, 4, 7⟩]) busy).station 4).slack = 7 ∧
      ((after (.stationWrite 1 23 [⟨2, 7, 8, 120001⟩]) wing).station 23).slack = 120000 ∧
      answered (after (.liftWrite 1 5 [⟨7, 0, 5, 5000, 1000⟩]) wing) = some [1, 4, 0, 1] ∧
      answered (after (.liftWrite 1 0 [⟨7, 0, 4, 5000, 1000⟩]) wing) = some [1, 24, 0, 1] ∧
      ((after (.liftWrite 1 0 [⟨0, 48, 4, 300001, 999⟩]) wing).lift 0).carryLimit = 300000 ∧
      ((after (.liftWrite 1 5 [⟨7, 48, 4, 4999, 10001⟩]) wing).lift 5).answerLimit = 10000 := by
  refine ⟨by decide +kernel, wing_tidy, ?_⟩
  decide +kernel

/-- A wing whose items 1 to 4 are in the four states. -/
def lending : State :=
  let loan : Loan := { lendDay := 90, dueDay := 99, renewals := 1 }
  { wing with loans := { wing.loans with
      items := [(1, { bin := 510, category := 0, state := .requested 12 }), (2, { bin := 510, category := 0, state := .lent loan }),
        (3, { bin := 510, category := 1, state := .inhouse loan }),
        (4, { bin := 510, category := 0, state := .returned loan 100 })]
      classes := [(1, { cls := .inhouseOnly, period := 28, renewLimit := 2 }),
        (2, { cls := .notLendable, period := 28, renewLimit := 2 })] } }

/-- A lending class of another code, malformed seeds, seeds that the state forbids, and entries that are applied. The
item table is full at 65,536 entries. -/
theorem witness_ItemAndClassWrite :
    let seed (item bin state renewals : Nat) : ItemEntry :=
      { presence := 0, item, bin, category := 15, state, order := 0, lendDay := 9, dueDay := 9, renewals, scanDay := 0 }
    let off (item : Nat) : ItemEntry := { seed item 0 0 0 with presence := 1 }
    let put (e : ItemEntry) := after (.itemWrite 1 0 [e]) lending
    lending.running ∧ wing.running ∧ wing.Tidy ∧ (15 : BitVec 16).toNat < 16 ∧
      answered (put { off 1 with presence := 2 }) = some [1, 4, 0, 1] ∧
      answered (put (seed 7 510 1 16)) = some [1, 4, 0, 1] ∧
      answered (put (seed 7 49152 1 0)) = some [1, 4, 0, 1] ∧ answered (put (seed 7 49151 1 0)) = some [1, 6, 0, 1] ∧
      answered (put (seed 2 510 1 15)) = some [1, 9, 0, 1] ∧ lending.item 7 = none ∧
      lending.loans.items.length < 65536 ∧
      (put (seed 7 510 1 15)).item 7 = some { bin := 510, category := 15, state := .lent ⟨9, 9, 15⟩ } ∧
      ((put (seed 7 510 2 0)).bin 510).map (·.itemRefs) = some 1 ∧
      65536 ≤ (List.replicate 65536 ()).length ∧
      answered (put (off 7)) = some [0, 0, 1, 1] ∧ answered (put (off 1)) = some [1, 9, 0, 1] ∧
      answered (put (off 4)) = some [1, 9, 0, 1] ∧ (put (off 2)).item 2 = none ∧ (put (off 3)).item 3 = none ∧
      answered (after (.classWrite 1 15 [⟨3, 0, 0⟩]) wing) = some [1, 4, 0, 1] ∧
      (after (.classWrite 1 15 [⟨2, 366, 16⟩]) wing).lendClass 15 = ⟨.notLendable, 365, 15⟩ := by
  refine ⟨by decide +kernel, by decide +kernel, wing_tidy, ?_⟩
  decide +kernel

theorem witness_ZoneWrite :
    wing.running ∧ wing.Tidy ∧ (7 : BitVec 16).toNat < 8 ∧
      ((after (.zoneWrite 1 7 [⟨2001, 60001, 30001, 4999, 300001⟩]) (zoned 7 .settling wing)).zone 7) =
        { (zoned 7 .settling wing).zone 7 with
          debounce := 2000, parkAllowance := 60000, brakeSettle := 30000, shutterLimit := 5000, readyLimit := 300000 } := by
  refine ⟨by decide +kernel, wing_tidy, ?_⟩
  decide +kernel

/-! ## Witnesses: lines, READ, loans and returns -/

/-- A wing with line 1 (or another) under its first selection. -/
def lined (n : Nat) (s : State) : State := s.modLine n fun l => { l with selection := .first }

/-- Malformed entries, fire functions that may not be changed and may, a general line, and the pulls of a group. -/
theorem witness_LineAndPullWrite :
    let quiet (s : State) := { s with mode := { s.mode with mode := .quiet } }
    let line (e : LineEntry) (s : State) := after (.lineWrite 1 1 [e]) s
    let pull (v : Nat) (s : State) := after (.pullWrite 1 0 [v]) s
    wing.running ∧ wing.Tidy ∧ (47 : BitVec 16).toNat < 48 ∧ (11 : BitVec 16).toNat < 12 ∧ (lined 1 wing).running ∧
      (lined 1 wing).function 1 = .zoneAlarm 1 ∧ answered (line ⟨4, 0, 0⟩ wing) = some [1, 4, 0, 1] ∧
      answered (line ⟨0, 2, 0⟩ wing) = some [1, 4, 0, 1] ∧ answered (line ⟨2, 0, 0⟩ wing) = some [1, 19, 0, 1] ∧
      answered (line ⟨2, 1, 0⟩ (lined 1 wing)) = some [1, 19, 0, 1] ∧
      answered (line ⟨2, 0, 1⟩ (lined 1 wing)) = some [0, 0, 1, 1] ∧
      answered (line ⟨2, 1, 0⟩ (quiet wing)) = some [0, 0, 1, 1] ∧
      answered (line ⟨2, 1, 0⟩ (zoned 1 .sealed (quiet wing))) = some [1, 19, 0, 1] ∧
      ((after (.lineWrite 1 47 [⟨3, 1, 1⟩]) wing).line 47).selection = .second ∧
      answered (pull 3 wing) = some [1, 4, 0, 1] ∧ wing.pull 0 = .none ∧
      answered (pull 0 (lined 1 wing)) = some [0, 0, 1, 1] ∧
      answered (pull 1 (lined 1 wing)) = some [1, 19, 0, 1] ∧ (pull 2 wing).pull 0 = .down ∧
      (pull 1 (quiet (lined 1 wing))).pull 0 = .up := by
  refine ⟨by decide +kernel, wing_tidy, ?_⟩
  decide +kernel

/-- The outcome, the reason and the length of the ANSWER last handed over, less its tag. -/
def ends (s : State) : Option (Nat × Nat × Nat) :=
  (answered s).map fun b => ((b.getD 0 0).toNat, (b.getD 1 0).toNat, b.length)

/-- Each refusal; a full count, the end of a table, and a body that is full; and the flags that a READ clears. -/
theorem witness_ReadReturnsEntries :
    let read (table count : BitVec 8) (first : BitVec 16) := after (.read 1 table first count) State.reset
    State.reset.running ∧ State.reset.tableSize 0 = none ∧ State.reset.tableSize 19 = none ∧
      State.reset.tableSize 18 = some 1 ∧
      ends (read 0 1 0) = some (1, 2, 6) ∧ ends (read 19 1 0) = some (1, 2, 6) ∧
      ends (read 18 0 0) = some (1, 4, 6) ∧ ends (read 18 1 1) = some (1, 3, 6) ∧
      ends (read 1 46 0) = some (0, 0, 236) ∧ ends (read 1 47 0) = some (3, 16, 236) ∧
      ends (read 1 3 126) = some (3, 3, 16) ∧ State.reset.resets.record.power = true ∧
      (read 18 1 0).resets.record.power = false ∧
      (after (.resetRead 1 0 1) State.reset).resets.record.power = false := by
  decide +kernel

/-- Item tag 0, an absent entry, one not LENT, a class that may not be renewed, its limit, no extension, and a renewal
that is granted. -/
theorem witness_RenewMovesTheDueDay :
    let renew (s : State) (t : BitVec 48) := after (.renew 1 t) s
    let classed (r : ClassRecord) := lending.setLendClass 0 r
    lending.running ∧ (lending.item 2).map (·.state) = some (.lent ⟨90, 99, 1⟩) ∧
      answered (renew lending 0) = some [1, 4, 0, 0, 0, 0, 0, 0, 0, 0, 0] ∧ lending.item 7 = none ∧
      (answered (renew lending 7)).map (·.take 2) = some [1, 10] ∧
      (answered (renew lending 3)).map (·.take 2) = some [1, 24] ∧
      (answered (renew (classed ⟨.inhouseOnly, 28, 2⟩) 2)).map (·.take 2) = some [1, 25] ∧
      (answered (renew (classed ⟨.loanable, 28, 1⟩) 2)).map (·.take 2) = some [1, 29] ∧
      (classed ⟨.loanable, 0, 2⟩).dueDay 0 = 100 ∧
      (answered (renew { classed ⟨.loanable, 0, 2⟩ with loans := { (classed ⟨.loanable, 0, 2⟩).loans with today := 99 } } 2)).map
        (·.take 2) = some [1, 30] ∧
      ((renew lending 2).item 2).map (·.state) = some (.lent ⟨90, 128, 2⟩) := by decide +kernel

theorem witness_DaySetsToday :
    wing.running ∧ (99 : BitVec 16).toNat < wing.loans.today ∧ wing.loans.today ≤ (100 : BitVec 16).toNat ∧
      answered (after (.day 1 99) wing) = some [1, 4] ∧
      answered (after (.day 1 100) wing) = some [0, 0, 0, 100, 0, 0, 1, 0, 0, 0] ∧
      (after (.day 1 65535) wing).loans.today = 65535 := by decide +kernel

/-- The two forms of the due day: term end held, and each reason not to hold it. -/
theorem witness_DueDayFromTodayPeriodAndTermEnd :
    let s (t e : Nat) := { wing with loans := { wing.loans with today := t }, params := { wing.params with termEnd := e } }
    (s 100 110).dueDay 28 = 110 ∧ (s 100 100).dueDay 28 = 100 ∧ (s 100 99).dueDay 28 = 128 ∧ (s 100 0).dueDay 28 = 128 ∧
      (s 100 128).dueDay 28 = 128 ∧ (s 65520 0).dueDay 28 = 65535 ∧ 100 < 100 + 28 := by decide +kernel

/-- A wing at work: order 12 owns station 4 with bin 510 at its window, restore order 32768 owns station 5 with bin 511
at its window and item 5 to put back. -/
def working : State :=
  let order (number : Nat) (kind : OrderKind) (station : Nat) (member : Member) : Order :=
    { number, kind, station, patron := 77, state := .presenting, gathered := true, gatherLimit := some 1000
      gatherStart := some 0, gatherTimer := none, taken := 0, notTaken := 0, members := [member], admission := 0
      listOpen := false }
  { lending with
    store := { lending.store with bins := [(510, binAt 20 120 .out 0 3), (511, binAt 21 1 .out 1 1)] }
    desk := { lending.desk with
      stations :=
        [(4, { (lending.station 4) with owner := some 12, lane := [⟨510, .window, ⟨12, 0⟩⟩] }),
          (5, { (lending.station 5) with owner := some 32768, lane := [⟨511, .window, ⟨32768, 0⟩⟩] })]
      orders := [(0, order 12 .patron 4 ⟨510, [1], .atWindow, 0⟩), (1, order 32768 .restore 5 ⟨511, [5], .atWindow, 0⟩)] }
    loans := { lending.loans with
      items := lending.loans.items ++ [(5, { bin := 511, category := 0, state := .returned ⟨90, 99, 1⟩ 100 })] }
    returns := { lending.returns with staging := [⟨5, 511, 100, 65535⟩] } }

theorem working_tidy : working.Tidy := by constructor <;> decide +kernel

/-- The body of the VERDICT last handed over. -/
def verdict (s : State) : Option (List Byte) :=
  (s.ports.dQueue.find? fun q => decide (q.telegram.kind = 30)).map fun q => q.telegram.body

/-- A station without an address, of another kind, an item not asked for, one that is not to be lent, and one lent. -/
theorem witness_ItemOutLends :
    let out (st : Fin 24) (item : BitVec 48) (s : State) := after (.itemOut st 9 item) s
    let cat (c : Nat) := working.putItem 1 { bin := 510, category := c, state := .requested 12 }
    working.running ∧ working.stationAddress 7 = none ∧ working.stationAddress 4 = some 30 ∧
      (working.station 4).kind = .pick ∧
      (working.station 5).kind ≠ .pick ∧ (working.station 4).owner = some 12 ∧
      (working.item 1).map (·.state) = some (.requested 12) ∧
      (working.station 4).window = some ⟨510, .window, ⟨12, 0⟩⟩ ∧
      verdict (out 7 1 working) = none ∧ verdict (out 5 1 working) = some [0, 9, 1, 17, 0, 0] ∧
      verdict (out 4 2 working) = some [0, 9, 1, 26, 0, 0] ∧ verdict (out 4 1 (cat 2)) = some [0, 9, 1, 25, 0, 0] ∧
      verdict (out 4 1 working) = some [0, 9, 0, 0, 0, 128] ∧
      ((out 4 1 working).item 1).map (·.state) = some (.lent ⟨100, 128, 0⟩) ∧
      ((out 4 1 (cat 1)).item 1).map (·.state) = some (.inhouse ⟨100, 100, 0⟩) ∧
      ((out 4 1 working).order 12).map (·.taken) = some 1 := by decide +kernel

/-- A station without an address, no CHUTE, an absent item, one requested or staged already, a bin whose staged count is
at its top, and items that are staged. -/
theorem witness_ItemInStages :
    let put (st : Fin 24) (item : BitVec 48) (s : State) := after (.itemIn st 9 item) s
    let staged (n : Nat) := working.modBin 510 fun r => { r with staged := n }
    working.running ∧ working.stationAddress 6 = some 32 ∧ (working.station 6).kind = .chute ∧ working.item 8 = none ∧
      64 ≤ 64 ∧ ¬ 64 ≤ 63 ∧
      verdict (put 7 2 working) = none ∧ verdict (put 4 2 working) = some [0, 9, 1, 17, 0, 0] ∧
      verdict (put 6 8 working) = some [0, 9, 1, 10, 0, 0] ∧ verdict (put 6 1 working) = some [0, 9, 1, 9, 0, 0] ∧
      verdict (put 6 4 working) = some [0, 9, 1, 9, 0, 0] ∧ verdict (put 6 2 (staged 64)) = some [0, 9, 1, 28, 0, 0] ∧
      verdict (put 6 2 (staged 63)) = some [0, 9, 0, 0, 0, 99] ∧ verdict (put 6 3 working) = some [0, 9, 0, 0, 0, 99] ∧
      ((put 6 2 working).item 2).map (·.state) = some (.returned ⟨90, 99, 1⟩ 100) ∧
      (put 6 2 working).returns.staging = [⟨5, 511, 100, 65535⟩, ⟨2, 510, 100, 0⟩] ∧
      ((put 6 2 working).bin 510).map (·.staged) = some 1 := by decide +kernel

/-- A station without an address, no RESHELVE, an item not staged in the window bin, and one that goes back. -/
theorem witness_IntoBinRestores :
    let put (st : Fin 24) (item : BitVec 48) := after (.intoBin st 9 item) working
    working.running ∧ working.Tidy ∧ working.stationAddress 5 = some 31 ∧ (working.station 5).kind = .reshelve ∧
      (working.item 5).map (·.state.word) = some .returned ∧
      (working.station 5).window = some ⟨511, .window, ⟨32768, 0⟩⟩ ∧
      working.member ⟨32768, 0⟩ = some ⟨511, [5], .atWindow, 0⟩ ∧
      verdict (put 7 5) = none ∧ verdict (put 4 5) = some [0, 9, 1, 17, 0, 0] ∧
      verdict (put 5 4) = some [0, 9, 1, 27, 0, 0] ∧
      verdict (put 5 5) = some [0, 9, 0, 0, 0, 0] ∧ (put 5 5).item 5 = none ∧ (put 5 5).returns.staging = [] ∧
      ((put 5 5).bin 511).map (fun r => (r.staged, r.itemRefs)) = some (0, 0) ∧
      ((put 5 5).order 32768).map (·.taken) = some 1 := by
  refine ⟨by decide +kernel, working_tidy, ?_⟩
  decide +kernel

theorem witness_MinuteTimerAgesTheList :
    let stopped := { working with returns := { working.returns with minuteTimer := none } }
    working.running ∧ working.returns.minuteTimer = some 60000 ∧ stopped.running ∧ stopped.returns.minuteTimer = none ∧
      (after .minuteTimerExpiry working).returns.staging = [⟨5, 511, 100, 65535⟩] ∧
      (after .minuteTimerExpiry { working with returns := { working.returns with staging := [⟨5, 511, 100, 65534⟩] } }).returns =
        ⟨[⟨5, 511, 100, 65535⟩], some 60000⟩ := by decide +kernel

/-- Outside QUIET; in QUIET with both thresholds off, below, and reached. -/
theorem witness_ThresholdsWakeTheQuietPart :
    let s (stage order : Nat) := { working with
      mode := { working.mode with mode := .quiet }, params := { working.params with stagingWake := stage, orderWake := order } }
    working.mode.mode ≠ .quiet ∧ (s 0 0).mode.mode = .quiet ∧ (s 0 0).handStaging.mode.mode = .quiet ∧
      (s 2 0).handStaging.mode.mode = .quiet ∧ (s 1 0).handStaging.mode.mode = .waking ∧
      (s 0 1).handWaiting.mode.mode = .quiet ∧
      (s 1 1).handStaging.work.up = [.notice (.modeState .waking .staging)] := by decide +kernel

/-! ## Witnesses: orders -/

/-- An ORDER line. -/
def asked (item : BitVec 48) (bin : BitVec 16) (category : BitVec 8) : OrderItem := { item, bin, category }

/-- Each refusal of the whole; every outcome of one listed item; no accepted item, some, and all. -/
theorem witness_OrderTakesARecord :
    let ask (num : BitVec 16) (st : BitVec 8) (xs : List OrderItem) (s : State) := answered (after (.order 9 num st 77 xs) s)
    let one := [asked 100 510 0]
    let many := (List.range 5).map fun k => asked 100 (BitVec.ofNat 16 (600 + k)) 0
    let full := { wing with desk := { wing.desk with
      orders := (List.range 256).flatMap fun k => (working.order 12).toList.map fun o => (k, { o with number := k }) } }
    wing.running ∧ wing.Tidy ∧ one ≠ [] ∧ wing.order 32767 = none ∧ wing.addr 30 = .station 4 ∧
      (wing.station 4).kind = .pick ∧
      (wing.zone 3).state = .clear ∧ wing.desk.orders.find 0 = none ∧ working.order 12 ≠ none ∧
      (wing.station 4).laneSize < 5 ∧
      ask 32768 30 one wing = some [1, 4, 128, 0, 0, 4] ∧ ask 1 128 one wing = some [1, 4, 0, 1, 0, 4] ∧
      ask 12 30 one working = some [1, 15, 0, 12, 0, 15] ∧ ask 1 31 one wing = some [1, 17, 0, 1, 0, 17] ∧
      ask 1 127 one wing = some [1, 17, 0, 1, 0, 17] ∧ ask 1 30 one (zoned 3 .sealed wing) = some [1, 18, 0, 1, 0, 18] ∧
      ask 300 30 one full = some [1, 13, 1, 44, 0, 13] ∧ ask 1 30 many wing = some [1, 16, 0, 1, 0, 16, 16, 16, 16, 16] ∧
      ask 1 30 [asked 0 510 0, asked 1 510 16] wing = some [1, 4, 0, 1, 0, 4, 4] ∧
      ask 1 30 [asked 9 511 0, asked 1 511 15, asked 1 511 0, asked 2 49151 0, asked 3 514 0, asked 4 512 0] wing =
        some [3, 9, 0, 1, 0, 9, 0, 11, 6, 7, 7] ∧
      ask 32767 30 one wing = some [0, 0, 127, 255, 0, 0] := by
  refine ⟨by decide +kernel, wing_tidy, ?_⟩
  decide +kernel

/-- Order 1's record, its item, its job, and the MOVE to the crane at the front: bin 510 is fetched. -/
theorem test_order_fetches :
    let s := after (.order 9 1 30 77 [asked 100 510 2]) wing
    (s.item 100 = some ⟨510, 2, .requested 1⟩ ∧ (s.bin 510).map (fun r => (r.state, r.itemRefs)) = some (.out, 1)) ∧
      (s.order 1).map (fun o => (o.state, o.members)) = some (.admitted, [⟨510, [100], .fetching, 1⟩]) ∧
      (s.crane 5).state = .busy ∧ s.ports.dQueue.map (fun q => (q.telegram.dest, q.telegram.kind)) = [(10, 24)] := by
  decide +kernel

/-- An order no one knows, a WAITING one of each kind, and one past admission. -/
theorem witness_CancelTakesAnOrderBack :
    let cancel (n : BitVec 16) (s : State) := after (.cancel 9 n) s
    let waiting := { working with desk := { working.desk with
      orders := working.desk.orders.mapVals fun o => { o with state := .waiting } } }
    working.running ∧ working.Tidy ∧ working.order 13 = none ∧ (working.order 12).map (·.state) = some .presenting ∧
      waiting.running ∧ (waiting.order 12).map (·.state) = some .waiting ∧
      (waiting.order 32768).map (fun o => (o.kind, o.state)) = some (.restore, .waiting) ∧
      answered (cancel 13 working) = some [1, 14] ∧ answered (cancel 12 waiting) = some [0, 0, 0] ∧
      (cancel 12 waiting).item 1 = none ∧ (cancel 12 waiting).order 12 = none ∧
      (cancel 32768 waiting).order 32768 = none ∧
      answered (cancel 12 working) = some [0, 0, 1] := by
  refine ⟨by decide +kernel, working_tidy, ?_⟩
  decide +kernel

/-- A station without an address, a bin that is no window bin (whose count stands at its top), a CHUTE, and the window
bins of a patron order and of a restore order. -/
theorem witness_BinDoneFinishesTheWindow :
    let put (st : Fin 24) (b : BitVec 16) (s : State) := after (.binDone st b) s
    let top := working.modStation 4 fun w => { w with unmatched := 4294967295 }
    working.running ∧ working.Tidy ∧ working.stationAddress 7 = none ∧ working.stationAddress 4 ≠ none ∧
      (working.station 4).kind ≠ .chute ∧ (working.station 4).window = some ⟨510, .window, ⟨12, 0⟩⟩ ∧
      (working.order 12).isSome ∧ (working.member ⟨12, 0⟩).isSome ∧ (working.order 32768).isSome ∧
      (working.station 6).kind = .chute ∧ ((put 4 511 working).station 4).unmatched = 1 ∧
      ((put 4 511 top).station 4).unmatched = 4294967295 ∧ ((put 6 510 working).station 6).unmatched = 1 ∧
      (put 4 510 working).item 1 = none ∧ (put 4 510 working).carries.map (·.bin) = [510] ∧
      (put 5 511 working).item 5 ≠ none ∧ (put 5 511 working).carries.map (·.bin) = [511] := by
  refine ⟨by decide +kernel, working_tidy, ?_⟩
  decide +kernel

/-- An order with a gather timer, the hold-off timer running and not, and the waiting count against the watermark. -/
theorem witness_GatherAndHoldOffTimers :
    let gathering := { working with desk := { working.desk with
      orders := working.desk.orders.mapVals fun o => { o with gathered := false, gatherTimer := some 900, state := .admitted } } }
    let holding := { working with desk := { working.desk with holding := true, holdTimer := some 5 } }
    let owed (w : Nat) (h : Bool) : State := { wing with
      work := { Work.empty with hold := true }, params := { wing.params with watermark := w }
      desk := { wing.desk with holding := h } }
    gathering.running ∧ gathering.Tidy ∧ (gathering.order 12).map (·.gatherTimer) = some (some 900) ∧
      gathering.order 13 = none ∧
      ((after (.gatherTimerExpiry 12) gathering).order 12).map (·.gathered) = some true ∧
      holding.running ∧ holding.desk.holdTimer ≠ none ∧ working.desk.holdTimer = none ∧
      (after .holdRepeatExpiry holding).desk.holdTimer = some 5000 ∧
      (owed 0 false).params.watermark ≤ (owed 0 false).waitingCount ∧ (owed 0 false).holdPhase.desk.holding = true ∧
      (owed 1 true).waitingCount < (owed 1 true).params.watermark ∧ (owed 1 true).holdPhase.desk.holding = false ∧
      (owed 0 true).holdPhase = owed 0 true ∧ (owed 1 false).holdPhase = owed 1 false := by
  refine ⟨by decide +kernel, by constructor <;> decide +kernel, ?_⟩
  decide +kernel

/-! ## Witnesses: lifts -/

/-- A wing in which lift 2 has an address and is OFF, lift 3 is in ASK, lift 4 is BAR with a carry, and lift 0 has one too. -/
def lifting : State :=
  let carry (tag : Nat) (leg : Leg) (late : Bool) : Carry :=
    { tag, bin := 511, leg, aisle := 5, station := 4, ref := ⟨12, 0⟩, late, timer := some 70 }
  { wing with
    link := { wing.link with addresses := [(10, .crane 5), (20, .lift 0), (21, .lift 1), (22, .lift 2), (23, .lift 3),
      (24, .lift 4), (30, .station 4)] }
    pool := { wing.pool with
      lifts := [(0, { Lift.powerOn with word := .on 0, mask := 48, carries := [carry 65535 .up true, carry 7 .down false] }),
        (1, { Lift.powerOn with word := .tail 1 }), (3, { Lift.powerOn with word := .ask, answerTimer := some 80 }),
        (4, { Lift.powerOn with word := .bar, carries := [carry 1 .up false] })], pointer := 1 } }

theorem lifting_tidy : lifting.Tidy := by constructor <;> decide +kernel

/-- Lifts that may not join, one without an address, a zone that is not CLEAR, OFF and BAR lifts that join; lifts that may
not leave, one in ASK, and lifts in rotation: of two, and the last. -/
theorem witness_JoinAndLeave :
    let join (l : Fin 6) (s : State) := after (.join 9 l) s
    let leave (l : Fin 6) (s : State) := after (.leave 9 l) s
    let last := { lifting with pool := { lifting.pool with lifts := [(1, { Lift.powerOn with word := .tail 0 })], pointer := 0 } }
    lifting.running ∧ lifting.Tidy ∧ lifting.liftAddress 2 = some 22 ∧ (lifting.lift 2).word = .off ∧
      (lifting.lift 4).word = .bar ∧ (lifting.lift 4).carries.length = 1 ∧ lifting.liftAddress 5 = none ∧
      (lifting.lift 3).word = .ask ∧ (lifting.lift 0).word.seq = some 0 ∧ (lifting.lift 1).word.seq = some 1 ∧
      lifting.rotationSize = 2 ∧ last.rotationSize = 1 ∧ (lifting.zone 0).state = .clear ∧
      answered (join 0 lifting) = some [1, 24] ∧ answered (join 3 lifting) = some [1, 24] ∧
      answered (join 5 lifting) = some [1, 24] ∧ answered (join 2 (zoned 0 .opening lifting)) = some [1, 18] ∧
      answered (join 2 lifting) = some [0, 0, 0] ∧ answered (join 4 lifting) = some [0, 0, 1] ∧
      ((join 4 lifting).lift 4).answerTimer = some 5000 ∧ answered (leave 2 lifting) = some [1, 24] ∧
      answered (leave 4 lifting) = some [1, 24] ∧ ((leave 3 lifting).lift 3).word = .off ∧
      answered (leave 0 lifting) = some [0, 0, 2] ∧ ((leave 0 lifting).lift 1).word = .tail 0 ∧
      (leave 0 lifting).pool.pointer = 0 ∧ (leave 1 last).rotationSize = 0 := by
  refine ⟨by decide +kernel, lifting_tidy, ?_⟩
  decide +kernel

/-- A lift without an address, lifts OFF and BAR, lifts in rotation, a lift in ASK, and a timer that runs and does not. -/
theorem witness_FitnessDecidesTheJoin :
    let fit (l : Fin 6) (b : Bool) := after (.fitness l b) lifting
    lifting.running ∧ lifting.Tidy ∧ lifting.liftAddress 5 = none ∧ (lifting.lift 2).word = .off ∧
      (lifting.lift 4).word = .bar ∧
      (lifting.lift 0).word.seq = some 0 ∧ lifting.liftAddress 0 = some 20 ∧ (lifting.lift 0).answerTimer = none ∧
      (lifting.lift 3).word = .ask ∧ lifting.liftAddress 3 = some 23 ∧ (lifting.lift 3).answerTimer ≠ none ∧
      ((fit 3 true).lift 3).word = .tail 2 ∧ ((fit 3 true).lift 1).word = .on 1 ∧ ((fit 3 false).lift 3).word = .off ∧
      ((after (.answerTimerExpiry 3) lifting).lift 3).word = .off ∧ ((fit 0 false).lift 0).word = .bar ∧
      ((fit 0 true).lift 0).word = .on 0 := by
  refine ⟨by decide +kernel, lifting_tidy, ?_⟩
  decide +kernel

/-- A lift without an address, a tag of no carry, carries of each leg, late and not, a deadline that runs and does not;
and members whose bins arrive. -/
theorem witness_CarriedEndsTheCarry :
    let put (l : Fin 6) (tag : BitVec 16) := after (.carried l tag) lifting
    let cancelled := { working with desk := { working.desk with orders := working.desk.orders.mapVals fun (o : Order) =>
      { o with members := o.members.map fun (m : Member) => { m with state := if o.kind = OrderKind.patron then .cancelled else .stranded } } } }
    lifting.Tidy ∧ cancelled.Tidy ∧ lifting.running ∧ lifting.liftAddress 5 = none ∧ lifting.liftAddress 0 = some 20 ∧
      ((lifting.lift 0).carries.find? fun x => decide (x.tag = 9)) = none ∧
      ((lifting.lift 0).carries.find? fun x => decide (x.tag = 65535)).map (fun x => (x.leg, x.late)) = some (.up, true) ∧
      ((lifting.lift 0).carries.find? fun x => decide (x.tag = 7)).map (fun x => (x.leg, x.late, x.timer)) =
        some (.down, false, some 70) ∧
      ((put 0 9).lift 0).unmatched = 1 ∧ ((put 0 65535).lift 0).carries.map (·.tag) = [7] ∧
      ((put 0 7).lift 0).carries.map (·.tag) = [65535] ∧
      ((after (.carryDeadlineExpiry 0 7) lifting).lift 0).word = .bar ∧
      cancelled.running ∧ (cancelled.zone (cancelled.station 4).zone).state = .clear ∧
      cancelled.memberState ⟨12, 0⟩ = some .cancelled ∧ cancelled.memberState ⟨32768, 0⟩ = some .stranded ∧
      ((cancelled.downArrived ⟨32768, 0⟩ 511 5).crane 5).infeed = [511] := by
  refine ⟨lifting_tidy, by constructor <;> decide +kernel, ?_⟩
  decide +kernel

/-! ## Witnesses: cranes -/

/-- A wing whose crane 5 differs. -/
def craned (f : Crane → Crane) : State := working.modCrane 5 f

/-- A FETCH, a STORE and a RELOCATE of bin 510 from a point. -/
def job (kind : JobKind) (origin : Point) : Job :=
  { kind, cls := .patron, bin := 510, origin, dest := .front
    owner := match kind with
      | .relocate => .shift
      | _ => .member ⟨12, 0⟩ }

/-- A job in flight. -/
def flying (j : Job) (c : Crane) : Crane :=
  { c with state := .busy, flight := some { job := j, tag := 65535, estimate := 1, deadline := 2, late := false, timer := some 60 } }

/-- Points as carried: slot 20/120 of the left face, one outside the aisle, and the front. -/
def slotPoint : RawPoint := ⟨0, 0, 20, 120⟩
def outsidePoint : RawPoint := ⟨0, 0, 41, 200⟩
def frontPoint : RawPoint := ⟨1, 0, 0, 0⟩

/-- Each crane state, with a valid position and without, held parked and not, with a load and without. -/
theorem witness_StatusByCraneState :
    let in_ (st : CraneState) := craned fun c => { c with state := st }
    let busy := craned (flying (job .fetch .front))
    let put (p : RawPoint) (load : BitVec 16) (s : State) := ((after (.status 5 true p load) s).crane 5)
    working.running ∧ working.Tidy ∧ working.craneAddress 5 = some 10 ∧ working.craneAddress 4 = none ∧
      (working.aisle 5).position slotPoint = some (.slot .left 20 120) ∧
      (working.aisle 5).position outsidePoint = none ∧
      ((in_ .faulted).crane 5).state = .faulted ∧ ((in_ .offline).crane 5).flight = none ∧
      (busy.crane 5).flight.isSome ∧
      (put slotPoint 65535 (in_ .faulted)).place = some ⟨.front, none⟩ ∧ (put slotPoint 65535 busy).rejected = 1 ∧
      (put slotPoint 65535 (in_ .parking)).rejected = 1 ∧ (put outsidePoint 0 (in_ .ready)).state = .offline ∧
      (put outsidePoint 0 (in_ .parked)).rejected = 1 ∧
      (put slotPoint 513 (in_ .offline)).place = some ⟨.slot .left 20 120, some 513⟩ ∧
      (put slotPoint 65535 (craned fun c => { flying (job .fetch .front) c with state := .offline })).state = .busy ∧
      (put slotPoint 65535 (in_ .parked)).state = .ready ∧
      (put slotPoint 65535 (zoned 1 .settling (in_ .parked))).state = .parked ∧
      ((after (.status 5 false slotPoint 0) busy).crane 5).state = .offline ∧
      ((after (.status 5 false slotPoint 0) (in_ .faulted)).crane 5).state = .faulted := by
  refine ⟨by decide +kernel, working_tidy, ?_⟩
  decide +kernel

/-- No address; a tag of no flight, at the top of the count; and a match in each crane state that can hold a flight, with
a valid position and without. -/
theorem witness_DoneCompletesTheJob :
    let s (k : JobKind) (st : CraneState) (late : Bool) := (craned fun c => { flying (job k .front) c with
      state := st, flight := (flying (job k .front) c).flight.map fun f => { f with late } }).modBin 510 fun r =>
        { r with target := some { aisle := 5, face := .right, level := 1, column := 1 } }
    let put (p : RawPoint) (t : State) := after (.done 5 65535 p 65535) t
    (s .fetch .busy false).running ∧ (s .fetch .busy false).Tidy ∧ working.craneAddress 5 ≠ none ∧
      working.craneAddress 4 = none ∧
      (working.crane 5).flight = none ∧ ((s .fetch .busy false).crane 5).flight.map (·.tag) = some 65535 ∧
      ((after (.done 5 65534 frontPoint 65535) (s .fetch .busy false)).crane 5).unmatched = 1 ∧
      ((put frontPoint (s .relocate .busy false)).bin 510).map (fun r => (r.home.level, r.target)) = some (1, none) ∧
      ((put frontPoint (s .fetch .busy false)).crane 5).flight = none ∧
      ((put outsidePoint (s .store .busy false)).crane 5).state = .offline ∧
      ((put frontPoint (s .store .offline false)).crane 5).state = .offline ∧
      ((put frontPoint (s .store .parking false)).crane 5).state = .parking ∧
      ((put outsidePoint (s .store .parking false)).crane 5).rejected = 1 ∧
      ((put frontPoint (s .store .faulted true)).crane 5).state = .faulted ∧
      ((put outsidePoint (s .store .faulted true)).crane 5).rejected = 1 := by
  refine ⟨by decide +kernel, by constructor <;> decide +kernel, ?_⟩
  decide +kernel

/-- A deadline that runs and does not; FAULT with code 0 and 255, with a flight and without; CLEAR_FAULT; and a flight that
ends for each kind of job and owner. -/
theorem witness_FaultsAndMoveDeadlines :
    let s (k : JobKind) := craned (flying (job k .front))
    let faulted := craned fun c => { flying (job .fetch .front) c with state := .faulted, faultCode := some 9 }
    (s .fetch).Tidy ∧ faulted.Tidy ∧ (s .fetch).running ∧ (working.crane 5).flight = none ∧
      (working.crane 5).state ≠ .faulted ∧
      ((s .fetch).crane 5).flight.map (·.timer) = some (some 60) ∧ faulted.running ∧
      (faulted.crane 5).state = .faulted ∧ working.craneAddress 4 = none ∧ working.craneAddress 5 ≠ none ∧
      ((after (.moveDeadlineExpiry 5) (s .fetch)).crane 5).state = .faulted ∧
      ((after (.fault 5 0 none) working).crane 5).rejected = 1 ∧
      ((after (.fault 5 255 (some 3)) working).crane 5).unmatched = 1 ∧
      ((after (.fault 5 255 (some 3)) (s .store)).crane 5).faultCode = some 255 ∧
      answered (after (.clearFault 1 5) working) = some [1, 24] ∧
      answered (after (.clearFault 1 5) faulted) = some [0, 0, 0, 255, 255, 1, 254] ∧
      (((s .fetch).endFlight 5 .fault).memberState ⟨12, 0⟩, ((s .relocate).endFlight 5 .fault).work.up) =
        (some .stranded, [.notice (.shiftEnded 510 .stranded .fault)]) := by
  refine ⟨by constructor <;> decide +kernel, by constructor <;> decide +kernel, ?_⟩
  decide +kernel

/-- No flight, a position that is valid and not, a FAULTED crane; and each way of disposing of a job. -/
theorem witness_ParkedDisposesOfTheJob :
    let s (j : Job) := craned (flying j)
    let put (j : Job) (load : BitVec 16) := after (.parked 5 frontPoint load) (s j)
    working.running ∧ working.Tidy ∧ working.craneAddress 4 = none ∧ working.craneAddress 5 ≠ none ∧
      (working.crane 5).flight = none ∧
      ((s (job .fetch .front)).crane 5).flight.map (·.job) = some (job .fetch .front) ∧
      ((after (.parked 5 outsidePoint 1) working).crane 5).place = none ∧
      ((put (job .fetch .front) 65535).bin 510).map (·.state) = some .reserved ∧
      ((put (job .fetch .front) 510).bin 510).map (·.state) = some .stranded ∧
      ((put (job .store .front) 65535).crane 5).patronQueue = [job .store .front] ∧
      ((put (job .store .crane) 510).crane 5).patronQueue = [job .store .crane] ∧
      ((put (job .store .front) 510).crane 5).patronQueue = [job .store .crane] ∧
      ((put (job .store .crane) 65535).bin 510).map (·.state) = some .adrift ∧
      ((put (job .relocate .front) 65535).bin 510).map (·.state) = some .reserved ∧
      ((put (job .relocate .front) 510).crane 5).houseQueue.map (·.kind) = [.store] := by
  refine ⟨by decide +kernel, working_tidy, ?_⟩
  decide +kernel

/-- No address, an absent bin, one of another aisle, one whose STORE stands, one that work holds, one that is recovered, and
a full job pool; loads expected, unexpected, and to be recovered. -/
theorem witness_InfeedAndLoadsRecoverBins :
    let put (b : BitVec 16) (s : State) := after (.infeed 5 b) s
    let other := wing.modBin 513 fun r => { r with home := { r.home with aisle := 6 } }
    let queued := wing.modCrane 5 fun c => { c with state := .busy, houseQueue := [{ job .store .infeed with bin := 513 }] }
    let full := { wing with dispatch := { wing.dispatch with
      cranes := [(5, { crane with houseQueue := List.replicate 512 (job .store .crane), state := .busy })] } }
    let aboard (b : Nat) (s : State) := s.modCrane 5 fun c => { c with place := some ⟨.front, some b⟩ }
    wing.running ∧ wing.Tidy ∧ wing.craneAddress 4 = none ∧ wing.craneAddress 5 ≠ none ∧ wing.bin 49151 = none ∧
      (wing.bin 513).map (·.state) = some .adrift ∧ (wing.bin 512).map (·.state) = some .stranded ∧ wing.carries = [] ∧
      (wing.bin 511).map (·.state) = some .out ∧ wing.binHeld 511 = false ∧ full.freeCount = 0 ∧ wing.freeCount = 512 ∧
      ((put 49151 wing).crane 5).rejected = 1 ∧ ((put 513 other).crane 5).rejected = 1 ∧
      ((put 513 queued).crane 5).rejected = 0 ∧
      ((put 510 wing).crane 5).rejected = 1 ∧ ((put 513 full).crane 5).refusedRecoveries = 1 ∧
      ((put 513 wing).bin 513).map (·.state) = some .out ∧
      ((put 512 wing).crane 5).flight.map (·.job.owner) = some .recovery ∧
      ((aboard 514 wing).judgeLoad 5).work.up = [.notice (.unexpectedLoad 5 514)] ∧
      (((aboard 513 full).judgeLoad 5).crane 5).refusedRecoveries = 1 ∧
      (aboard 510 full).judgeLoad 5 = aboard 510 full := by
  refine ⟨by decide +kernel, wing_tidy, ?_⟩
  decide +kernel

/-- Each refusal of SHIFT, a RELOCATE with exactly 33 free records, FLUSH of a busy crane and of a queue, and a flushed job of
each kind. -/
theorem witness_ShiftAndFlush :
    let slot (level : BitVec 8) : RawSlot := ⟨5, 1, level, 200⟩
    let shift (b : BitVec 16) (t : RawSlot) (s : State) := answered (after (.shift 9 b t) s)
    let pool (n : Nat) := { wing with dispatch := { wing.dispatch with
      cranes := [(5, { crane with state := .offline, patronQueue := List.replicate n (job .store .crane) })] } }
    let queue := craned fun c => { c with state := .parked, patronQueue := [job .fetch .front], houseQueue := [job .relocate .front] }
    wing.running ∧ wing.Tidy ∧ (wing.bin 510).map (·.state) = some .stored ∧ (pool 479).freeCount = 33 ∧
      (pool 480).freeCount = 32 ∧ (pool 0).running ∧
      shift 49151 (slot 40) wing = some [1, 6] ∧ shift 510 (slot 41) wing = some [1, 4] ∧
      shift 511 (slot 40) wing = some [1, 7] ∧ shift 510 ⟨5, 0, 21, 1⟩ wing = some [1, 5] ∧
      shift 510 (slot 40) (pool 480) = some [1, 23] ∧ shift 510 (slot 40) (pool 479) = some [0, 0, 1, 254] ∧
      answered (after (.flush 9 5) (craned (flying (job .fetch .front)))) = some [1, 21] ∧
      queue.running ∧ (queue.crane 5).state = .parked ∧ answered (after (.flush 9 5) queue) = some [0, 0, 0, 2] ∧
      (((State.flushJob 5 (job .store .crane) (pool 1)).crane 5).patronQueue,
        (State.flushJob 5 (job .relocate .front) queue).work.up) = ([], [.notice (.shiftEnded 510 .stored .flush)]) := by
  refine ⟨by decide +kernel, wing_tidy, ?_⟩
  decide +kernel

/-- Runs on each branch, at their border, and at the ends of the ranges; and a deadline at its top. -/
theorem witness_AxisTimesAndMoveDeadlines :
    0 < 1 ∧ 100 ≤ 100 ∧ 5000 ≤ 5000 ∧ 3000 ≤ 3000 ∧ 4000 * 4000 ≤ 16000 * 1000 ∧ 15999 * 1000 < 4000 * 4000 ∧
      axisTime 16000 4000 1000 = 8000 ∧ axisTime 15999 4000 1000 = 8000 ∧ axisTime 1 5000 3000 = 37 ∧
      Params.powerOn.moveDeadline 900000 = 900000 := by decide +kernel

/-! ## Witnesses: zones -/

/-- Each state of a zone, in RUN and in QUIET, under ZONE_SHUT, the debounce timer, and SEAL_NOW. -/
theorem witness_ShutdownsByZoneState :
    let in_ (st : ZoneState) := zoned 1 st wing
    let quiet (s : State) := { s with mode := { s.mode with mode := .quiet } }
    let bounced (s : State) := s.modZone 1 fun r => { r with debounceTimer := some 3 }
    let shut (s : State) := ((after (.zoneShut 9 1) s).zone 1).state
    let sealed (s : State) := ((after (.sealNow 9 1) s).zone 1).state
    wing.running ∧ wing.Tidy ∧ ((in_ .clear).zone 1).state = .clear ∧ wing.mode.mode ≠ .quiet ∧
      (quiet (in_ .clear)).mode.mode = .quiet ∧ ((in_ .clear).zone 1).debounceTimer = none ∧
      ((bounced (in_ .clear)).zone 1).debounceTimer ≠ none ∧
      [shut (in_ .clear), shut (in_ .enabling), shut (in_ .opening), shut (in_ .settling), shut (in_ .sealed)] =
        [.stopping, .stopping, .closing, .settling, .sealed] ∧
      [shut (quiet (in_ .clear)), shut (quiet (in_ .enabling))] = [.closing, .closing] ∧
      ((after (.alarmDebounceExpiry 1) (bounced (in_ .clear))).zone 1).cause = some .alarm ∧
      ((after (.alarmDebounceExpiry 1) (bounced (in_ .sealed))).zone 1).debounceTimer = none ∧
      [sealed (in_ .clear), sealed (in_ .opening), sealed (in_ .enabling), sealed (in_ .settling), sealed (in_ .stopping),
        sealed (in_ .closing), sealed (in_ .sealed)] = [.closing, .closing, .closing, .closing, .closing, .closing, .sealed] := by
  refine ⟨by decide +kernel, wing_tidy, ?_⟩
  decide +kernel

/-- A zone not SEALED, one whose alarm line is asserted, one that is restored; and each timer's expiry in its state, in
another state, and with the feedback line present. -/
theorem witness_RestoreAndZoneTimers :
    let in_ (st : ZoneState) := zoned 1 st wing
    let quiet (s : State) := { s with mode := { s.mode with mode := .quiet } }
    let alarmed := (lined 1 (in_ .sealed)).modLine 1 fun l => { l with pin := true }
    let at_ (c : Instr) (s : State) := ((after c s).zone 1).state
    wing.running ∧ wing.Tidy ∧ ((in_ .stopping).zone 1).timer ≠ none ∧ (alarmed.line 1).selection = .first ∧
      alarmed.lineValue 1 = true ∧ (wing.line 17).selection ≠ .first ∧ ((lined 17 wing).line 17).selection = .first ∧
      answered (after (.zoneRestore 9 1) (in_ .opening)) = some [1, 24] ∧
      answered (after (.zoneRestore 9 1) alarmed) = some [1, 20] ∧
      answered (after (.zoneRestore 9 1) (in_ .sealed)) = some [0, 0, 5] ∧
      [at_ (.parkDeadlineExpiry 1) (in_ .stopping), at_ (.parkDeadlineExpiry 1) (in_ .settling),
        at_ (.parkDeadlineExpiry 1) ((in_ .stopping).modZone 1 fun r => { r with brakeSettle := 0 })] =
        [.settling, .settling, .closing] ∧
      [at_ (.brakeSettleExpiry 1) (in_ .settling), at_ (.brakeSettleExpiry 1) (in_ .closing)] = [.closing, .closing] ∧
      ((after (.shutterCloseLimitExpiry 1) (in_ .closing)).zone 1).fault = false ∧
      ((after (.shutterCloseLimitExpiry 1) (lined 17 (in_ .closing))).zone 1).fault = true ∧
      at_ (.shutterCloseLimitExpiry 1) (in_ .opening) = .opening ∧
      at_ (.shutterOpenLimitExpiry 1) (lined 25 (in_ .opening)) = .sealed ∧
      at_ (.shutterOpenLimitExpiry 1) (in_ .opening) = .clear ∧ at_ (.zoneReadyExpiry 1) (in_ .enabling) = .clear ∧
      at_ (.zoneReadyExpiry 1) (in_ .opening) = .opening ∧
      at_ (.zoneReadyExpiry 1) (quiet (in_ .enabling)) = .clear := by
  refine ⟨by decide +kernel, wing_tidy, ?_⟩
  decide +kernel

/-! ## Witnesses: lines, modes and resets -/

/-- A wire that changes while the part runs and while it does not; the alarm line of a zone that rises, with a debounce
setting and without, and falls; and a call key. -/
theorem witness_LinesTakeTheirInputs :
    let rise (s : State) := after (.lineInputChange 1 .high) s
    let up := rise (lined 1 wing)
    let direct := (lined 1 wing).modZone 1 fun r => { r with debounce := 0 }
    let raw := (lined 1 wing).modLine 1 fun l => { l with pin := true }
    let key := wing.modLine 47 fun l => { l with selection := .second, keyTimer := some 50 }
    wing.running ∧ wing.Tidy ∧ ¬ wing.blank.running ∧ wing.blank.Tidy ∧ 7 < 8 ∧
      ((lined 1 wing).line 1).selection = .first ∧
      ((lined 1 wing).line 1).keyTimer = none ∧ ((rise wing.blank).line 1).wiring = .high ∧
      ((rise wing.blank).line 1).pin = false ∧ (up.line 1).pin = true ∧ (up.zone 1).debounceTimer = some 500 ∧
      ((after (.lineInputChange 1 .low) up).zone 1).debounceTimer = none ∧ ((rise direct).zone 1).state = .stopping ∧
      (raw.zone 1).alarm = false ∧ raw.lineValue 1 = true ∧ (raw.zone 1).debounce ≠ 0 ∧ (direct.zone 1).debounce = 0 ∧
      ((up.zone 1).alarm = true ∧ up.lineValue 1 = true) ∧
      (after (.lineInputChange 1 .unwired) wing).floats = 1 ∧
      (after (.lineInputChange 9 .unwired) (lined 9 wing)).floats = 0 ∧
      (key.line 47).keyTimer ≠ none ∧ (wing.line 47).keyTimer = none ∧
      ((after (.callKeyDebounceExpiry 47) key).line 47).keyTimer = none ∧
      (after (.callKeyDebounceExpiry 47) key).ports.uQueue.length = 1 := by
  refine ⟨by decide +kernel, wing_tidy, by decide +kernel, by constructor <;> decide +kernel, ?_⟩
  decide +kernel

/-- Each mode under QUIET and WAKE, and the two timers, running and not. -/
theorem witness_ModeChanges :
    let in_ (m : Mode) (p : Option DrainPhase) := { wing with
      mode := { wing.mode with mode := m, phase := p, timer := if m = .waking ∨ p ≠ none then some 5 else none, awaited := [5] } }
    let put (c : Instr) (s : State) := ((after c s).mode.mode, answered (after c s))
    wing.running ∧ wing.Tidy ∧ (in_ .run none).mode.mode = .run ∧ (in_ .draining (some .parkWait)).mode.timer ≠ none ∧
      (in_ .waking none).mode.timer ≠ none ∧ wing.mode.timer = none ∧
      put (.quiet 1) (in_ .draining (some .parkWait)) = (.draining, some [0, 0, 1]) ∧
      put (.quiet 1) (in_ .quiet none) = (.quiet, some [0, 0, 2]) ∧
      put (.wake 1) (in_ .run none) = (.run, some [0, 0, 0]) ∧
      put (.wake 1) (in_ .draining (some .parkWait)) = (.run, some [0, 0, 0]) ∧
      (put (.wake 1) (in_ .quiet none)).1 ≠ .quiet ∧ (put (.quiet 1) (in_ .run none)).1 ≠ .run ∧
      (after .parkWaitExpiry (in_ .draining (some .parkWait))).mode.mode = .quiet ∧
      (after .wakeReadyExpiry (in_ .waking none)).mode.mode = .run ∧
      (after .parkWaitExpiry wing).mode.mode = .run ∧ (wing.changeMode .waking .command).mode.timer = some 60000 := by
  refine ⟨by decide +kernel, wing_tidy, ?_⟩
  decide +kernel

/-- RESTART, and each reset from each phase from which it begins and does not. -/
theorem witness_ResetsBegin :
    let leaving := after (.restart 1) wing
    let held := after .pinReset wing
    wing.running ∧ wing.Tidy ∧ wing.ports.uQueue.length < 64 ∧ wing.resets.phase ≠ .restarting ∧
      leaving.resets.phase = .restarting ∧ wing.resets.lineAsserted = false ∧ held.resets.lineAsserted = true ∧
      wing.blank.resets.phase = .unpowered ∧ wing.blank.resets.lineAsserted = false ∧
      answered leaving = some [0, 0] ∧ (after .commandReset leaving).resets.ending = some 10 ∧
      (after .commandReset wing).resets = wing.resets ∧ (held.resets.record.pin, held.resets.record.count) = (true, 1) ∧
      (after .pinReset wing.blank).resets.lineAsserted = true ∧ (after .resetLineRelease held).resets.ending = some 10 ∧
      (after .resetLineRelease (after .pinReset wing.blank)).resets.ending = none ∧
      (after .powerOnReset wing).resets.ending = some 10 := by
  refine ⟨by decide +kernel, wing_tidy, ?_⟩
  decide +kernel

/-- A reset period that has ended, one that waits for its line, and the blocks it settles. -/
theorem witness_ResetPeriodSettlesTheBlocks :
    let ended := after .resetLineRelease (after .pinReset working)
    working.Tidy ∧ ended.resets.phase = .resetting ∧ ended.resets.ending ≠ none ∧
      (after .pinReset working).resets.ending = none ∧ working.resets.phase ≠ .resetting ∧ 11 < 12 ∧ 23 < 24 ∧ 5 < 6 ∧
      (after .resetPeriodEnd ended).running ∧ ((after .resetPeriodEnd ended).bin 510).map (·.state) = some .adrift ∧
      (after .resetPeriodEnd ended).item 1 = none ∧ (after .resetPeriodEnd ended).desk.orders = [] := by
  refine ⟨working_tidy, ?_⟩
  decide +kernel

/-- Zones outside STOPPING and ENABLING, and a crane state of each kind. -/
theorem witness_TestsAtTheEndKeep :
    wing.Tidy ∧ (wing.zone 1).state ≠ .stopping ∧ (wing.zone 1).state ≠ .enabling ∧ (wing.crane 4).state ≠ .ready ∧
      (wing.crane 4).state ≠ .busy ∧ (wing.crane 5).state = .ready ∧
      (wing.closeEvent (State.oweControl (zoned 1 .enabling wing)).settle none).zone 1 ≠ (zoned 1 .enabling wing).zone 1 := by
  refine ⟨wing_tidy, ?_⟩
  decide +kernel

/-! ## Witnesses of the clauses on the blocks' own operations -/

/-- What a table lists at an index stands in it. -/
theorem listed {α : Type} (t : Tab α) (k : Nat) (v : α) (h : t.find k = some v) : (k, v) ∈ t := by
  induction t with
  | nil => cases h
  | cons p t ih =>
    unfold Tab.find at h
    split at h
    · rename_i e; cases h; subst e; exact .head _
    · exact .tail _ (ih h)

/-- Six bins at six slots, one item entry, nothing staged. -/
theorem witness_TablesStayCanonical_slots : wing.slotsApart := by
  intro b c r q hb hc n x hx
  have all : ∀ p ∈ wing.store.bins, ∀ o ∈ wing.store.bins, p.1 ≠ o.1 →
      p.2.target = none ∧ o.2.target = none ∧ p.2.home ≠ o.2.home := by decide +kernel
  obtain ⟨h, k, m⟩ := all _ (listed _ _ _ hb) _ (listed _ _ _ hc) n
  rw [h] at hx
  rw [k]
  obtain rfl | hx := hx
  · exact ⟨m, nofun⟩
  · cases hx

theorem witness_MinuteTimerAgesTheList_law : wing.Tidy ∧ wing.itemLaw := by
  have bins : ∀ p ∈ wing.store.bins, p.2.staged = 0 ∧
      p.2.itemRefs = wing.loans.items.countP fun e => decide (e.2.bin = p.1) := by decide +kernel
  have items : ∀ p ∈ wing.loans.items, (wing.bin p.2.bin).isSome = true ∧ p.2.state.word = .lent := by decide +kernel
  refine ⟨wing_tidy, ?_, ?_, ?_, nofun, ?_, by decide +kernel, ?_⟩
  · exact fun t e h => Option.isSome_iff_exists.1 (items _ (listed _ _ _ h)).1
  · exact fun b r h => (bins _ (listed _ _ _ h)).2
  · exact fun b r h => (bins _ (listed _ _ _ h)).1
  · intro t e h w
    rw [(items _ (listed _ _ _ h)).2] at w
    cases w
  · intro b r h
    rw [(bins _ (listed _ _ _ h)).1]
    exact Nat.zero_le _

/-- Bin 620 with a number of staged items, the first of an age. -/
def staging (staged age : Nat) : State :=
  { wing with
    store := { wing.store with bins := [(620, binAt 30 180 .stored staged 1)] }
    returns := { wing.returns with staging := [⟨9, 620, 100, age⟩] } }

/-- The orders after an attempt for bin 620: number, station and items. -/
def restored (s : State) : List (Nat × Nat × List (List Nat)) :=
  (State.restoreAttempt 620 s).desk.orders.map fun p => (p.2.number, p.2.station, p.2.members.map (·.items))

/-- A bin that is due by its staged count or by its age, or by neither; each condition of an attempt wanting in turn;
and the first restore number in use already. -/
theorem witness_MinuteTimerAgesTheList_restore :
    let s := staging 8 0
    let taken := { s with desk := { s.desk with orders := working.desk.orders.drop 1 } }
    s.running ∧ (s.bin 620).map (·.state) = some .stored ∧ (s.station 5).kind = .reshelve ∧
      s.stationAddress 5 = some 31 ∧ s.desk.orders = [] ∧ restored s = [(32768, 5, [[9]])] ∧
      restored (staging 7 239) = [] ∧ restored (staging 7 240) = [(32768, 5, [[9]])] ∧
      restored (s.modBin 620 fun r => { r with pending := true }) = [] ∧ restored (zoned 3 .sealed s) = [] ∧
      restored { s with mode := { s.mode with mode := .draining } } = [] ∧
      (restored taken).map (·.1) = [32769, 32768] ∧
      (State.restoreAttempt 620 s).desk.restoreNumber = 32769 := by decide +kernel

/-- A crane that is parked and one that is not; a drain that waits and one that is done; a park wait that goes on and
one that ends; and a wake that waits for a crane and one that does not. -/
theorem witness_ThresholdsWakeTheQuietPart_tests :
    let in_ (m : Mode) (p : Option DrainPhase) (st : CraneState) := { wing.modCrane 5 fun c => { c with state := st } with
      mode := { wing.mode with mode := m, phase := p, awaited := [5] } }
    let crane (s : State) := (s.crane 5).state
    wing.Tidy ∧ (wing.aisle 5).configured = true ∧ wing.craneAddress 5 = some 10 ∧ wing.craneAddress 4 = none ∧
      crane (State.parkCrane 5 wing) = .parking ∧ State.parkCrane 4 wing = wing ∧
      State.parkCrane 5 (in_ .run none .parked) = in_ .run none .parked ∧
      (in_ .draining (some .work) .ready).drainTest.mode =
        { wing.mode with mode := .draining, phase := some .parkWait, timer := some 7191, awaited := [5] } ∧
      working.desk.orders ≠ [] ∧ (in_ .draining (some .parkWait) .ready).drainTest = in_ .draining (some .parkWait) .ready ∧
      crane (in_ .draining (some .parkWait) .ready).parkWaitTest = .parking ∧
      (in_ .draining (some .parkWait) .ready).parkWaitTest.mode.mode = .draining ∧
      (in_ .draining (some .parkWait) .parked).parkWaitTest.mode.mode = .quiet ∧
      (in_ .waking none .offline).counted 5 = true ∧
      (in_ .waking none .offline).wakeTest = in_ .waking none .offline ∧
      (in_ .waking none .ready).wakeTest.mode.mode = .run := by
  refine ⟨wing_tidy, ?_⟩
  decide +kernel

/-- An order of exactly as many bins as the lane has places is taken and admitted; one more place taken, or the free
records one short, holds it back. -/
theorem witness_OrderTakesARecord_admission :
    let four := [asked 100 510 0, asked 101 511 0, asked 102 620 0, asked 103 512 0]
    let queued (num size lane : Nat) : State := { wing with
      desk := { wing.desk with
        stations := [(4, { (wing.station 4) with orderQueue := [num], laneSize := size, reservations := lane })]
        orders := [(0, newOrder num .patron 4 77 [(510, [100]), (511, [101])] false)] } }
    let full (n : Nat) (s : State) := { s with dispatch := { s.dispatch with
      cranes := [(5, { crane with state := .offline, houseQueue := List.replicate n (Job.mk .store .house 1 .crane .front .recovery) })] } }
    let state (s : State) := (s.order 1).map (·.state)
    (wing.station 4).laneSize = 4 ∧ (wing.zone 3).state = .clear ∧
      answered (after (.order 9 1 30 77 four) wing) = some [3, 7, 0, 1, 0, 0, 0, 0, 7] ∧
      ((after (.order 9 1 30 77 four) wing).order 1).map (·.members.length) = some 3 ∧
      (queued 1 2 0).mode.mode = .run ∧ ((queued 1 2 0).station 4).orderQueue = 1 :: [] ∧
      ((queued 1 2 0).order 1).map (·.members.length) = some 2 ∧ (queued 1 2 0).recordsTaken = 0 ∧
      state (State.admissionStep 4 (queued 1 2 0)) = some .admitted ∧
      state (State.admissionStep 4 (queued 1 2 1)) = some .waiting ∧
      state (State.admissionStep 4 (full 476 (queued 1 2 0))) = some .admitted ∧
      state (State.admissionStep 4 (full 477 (queued 1 2 0))) = some .waiting ∧
      (wing.station 4).orderQueue = [] ∧ wing.binState 510 = some .stored ∧ wing.binState 511 = some .out ∧
      ((State.admissionStep 4 (queued 1 2 0)).order 1).map (·.members.map (·.state)) = some [.fetching, .waitBin] := by
  decide +kernel

/-- A member in each stage is cancelled as the stage asks; a queued FETCH is found, and none. -/
theorem witness_CancelTakesAnOrderBack_stages :
    let s (st : MemberState) : State := { working with desk := { working.desk with
      stations := [(4, { (working.station 4) with reservations := 1 })]
      orders := working.desk.orders.mapVals fun (o : Order) =>
        { o with members := o.members.map fun (m : Member) => { m with state := st, held := 1 } } } }
    let cancel (st : MemberState) := State.cancelMember 4 ⟨12, 0⟩ (s st)
    let queued := (s .queued).modCrane 5 fun c => { c with state := .busy, patronQueue := [
      { kind := .fetch, cls := .patron, bin := 510, origin := .front, dest := .front, owner := .member ⟨12, 0⟩ }] }
    let places (t : State) := ((t.station 4).reservations, (t.station 4).lane.map (·.mark), t.pool.waitList.map (·.leg))
    let held (t : State) := (t.member ⟨12, 0⟩).map (·.held)
    (s .waitBin).Tidy ∧ ((s .waitBin).member ⟨12, 0⟩).map (·.state) = some .waitBin ∧
      [MemberState.waitBin, .queued, .fetching, .atFront, .carrying, .inLane, .atWindow].map
        (fun st => (cancel st).memberState ⟨12, 0⟩) = List.replicate 7 (some .cancelled) ∧
      cancel .returning = s .returning ∧ places (cancel .waitBin) = (0, [.window], []) ∧
      places (cancel .atFront) = (0, [.window], []) ∧ ((cancel .atFront).crane 5).flight.map (·.job.kind) = some .store ∧
      places (cancel .carrying) = (1, [.window], []) ∧ places (cancel .inLane) = (1, [.outbound], [.down]) ∧
      (cancel .atWindow).work.down.map (·.telegram.kind) = [29] ∧ held (cancel .waitBin) = some 0 ∧
      held (cancel .fetching) = some 1 ∧ (queued.binAisle 510) = 5 ∧ queued.memberClass ⟨12, 0⟩ = .patron ∧
      ((queued.cancelFetch ⟨12, 0⟩ 510).crane 5).patronQueue = [] ∧ held (queued.cancelFetch ⟨12, 0⟩ 510) = some 0 ∧
      (s .queued).cancelFetch ⟨12, 0⟩ 510 = s .queued := by
  refine ⟨by constructor <;> decide +kernel, ?_⟩
  decide +kernel

/-- Each step of a window, and of none; an order that ends and one that does not. -/
theorem witness_BinDoneFinishesTheWindow_steps :
    let s (owner : Option Nat) (wait : List Nat) (st : MemberState) : State := { working with
      desk := { working.desk with
        stations := [(4, { (working.station 4) with owner, presQueue := wait, lane := [⟨510, .lined, ⟨12, 0⟩⟩] })]
        orders := working.desk.orders.mapVals fun (o : Order) =>
          { o with state := .admitted, members := o.members.map fun (m : Member) => { m with state := st } } } }
    let past (st : MemberState) : State := { s none [12] st with
      desk := { (s none [12] st).desk with stations := [(4, { (working.station 4) with lane := [], presQueue := [12] })] } }
    let step (s : State) := ((State.windowStep 4 s).station 4).owner
    (s none [] .inLane).Tidy ∧ ((s none [] .inLane).zone ((s none [] .inLane).station 4).zone).state = .clear ∧
      ((s none [] .inLane).station 4).window = none ∧ (working.station 4).window ≠ none ∧
      State.windowStep 4 working = working ∧ State.windowStep 4 (s none [] .inLane) = s none [] .inLane ∧
      step (s none [12] .inLane) = some 12 ∧ step (s (some 12) [] .inLane) = some 12 ∧
      (State.windowStep 4 (s (some 12) [] .inLane)).memberState ⟨12, 0⟩ = some .atWindow ∧
      State.windowStep 4 (s (some 12) [] .fetching) = s (some 12) [] .fetching ∧ step (s (some 12) [] .done) = none ∧
      (past .done).orderHeld 12 = false ∧ (s none [] .done).orderHeld 12 = true ∧
      ((past .done).endTest 12).order 12 = none ∧ ((past .done).endTest 12).item 1 = none ∧
      (s none [] .done).endTest 12 = s none [] .done ∧ (past .returning).endTest 12 = past .returning := by
  refine ⟨by constructor <;> decide +kernel, ?_⟩
  decide +kernel

/-- A gather that completes, one that waits, one with no live member, and an order that does not gather. -/
theorem witness_GatherAndHoldOffTimers_test :
    let s (st : MemberState) (gathered : Bool) : State := { working with
      desk := { working.desk with orders := working.desk.orders.mapVals fun (o : Order) =>
        { o with
          gathered, gatherTimer := some 900, state := .admitted
          members := o.members.map fun (m : Member) => { m with state := st } } } }
    let seen (t : State) := (t.order 12).map fun o => (o.gathered, o.gatherTimer)
    (s .inLane false).Tidy ∧ seen ((s .inLane false).gatherTest 12) = some (true, none) ∧
      (((s .inLane false).gatherTest 12).station 4).presQueue = [12] ∧
      (s .carrying false).gatherTest 12 = s .carrying false ∧
      seen ((s .failed false).gatherTest 12) = some (false, none) ∧ (s .inLane true).gatherTest 12 = s .inLane true := by
  refine ⟨by constructor <;> decide +kernel, ?_⟩
  decide +kernel

/-- Two lifts barred together; a lift outside the rotation; carries that strand; and lifts held back by a WRITE, and none. -/
theorem witness_FitnessDecidesTheJoin_barring :
    let both := wing.barLifts [0, 1] .zone
    let held (ls : List Nat) : State := { wing with work := { Work.empty with bars := some ls } }
    let carry : Carry :=
      { tag := 7, bin := 511, leg := .down, aisle := 5, station := 4, ref := ⟨12, 0⟩, late := false, timer := some 70 }
    wing.Tidy ∧ lifting.Tidy ∧ working.Tidy ∧ wing.rotationLaw ∧ [0, 1].Nodup ∧ wing.bySeqDown [0, 1] = [1, 0] ∧
      (lifting.lift 3).word.seq = none ∧ (lifting.lift 1).word.seq = some 1 ∧
      ((lifting.removeLift 3 .bar).lift 3).word = .bar ∧ ((lifting.removeLift 0 .bar).lift 1).word = .tail 0 ∧
      (both.rotationSize, both.pool.pointer) = (0, 0) ∧
      both.work.down.map (fun q => (q.telegram.dest, q.telegram.body)) = [(20, [4, 0]), (21, [4, 0])] ∧
      both.work.up = [.notice (.liftBarred 0 .zone 0), .notice (.liftBarred 1 .zone 0)] ∧
      ((State.barCarries .unfit 0 lifting).lift 0).carries.map (fun c => (c.late, c.timer)) = [(true, none), (true, none)] ∧
      (working.member ⟨12, 0⟩).map (·.state) = some .atWindow ∧
      (State.strandCarry carry working).memberState ⟨12, 0⟩ = some .stranded ∧
      ((State.strandCarry carry working).bin 511).map (·.state) = some .stranded ∧
      (held [1, 0]).barHeld.work.up = both.work.up ∧ (held []).barHeld = { wing with work := Work.empty } := by
  refine ⟨wing_tidy, lifting_tidy, working_tidy, wing_rotation, ?_⟩
  decide +kernel

/-- An arrival at a CLEAR station, with the gather not begun, and begun; one at a station that is shut; entries that a lift
takes, that none takes, and that the second lift takes; an assignment of each leg; and the infeed bound. -/
theorem witness_CarriedEndsTheCarry_scan :
    let s : State := { working with desk := { working.desk with
      stations := [(4, { (working.station 4) with lane := [], reservations := 1, owner := none })]
      orders := working.desk.orders.mapVals fun (o : Order) => { o with
        state := .admitted, gathered := false, gatherStart := none
        members := o.members.map fun (m : Member) => { m with state := .carrying, held := 1 } } } }
    let up : WaitEntry := { bin := 510, leg := .up, aisle := 5, station := 4, ref := ⟨12, 0⟩ }
    let turned : State := { s with pool := { s.pool with pointer := 1 } }
    let full := s.modCrane 5 fun c => { c with infeed := [1, 2] }
    let arrived := s.upArrived ⟨12, 0⟩ 510 4
    let shut := (zoned 3 .sealed s).upArrived ⟨12, 0⟩ 510 4
    let tags (t : State) := [(t.lift 0).carries.map (·.tag), (t.lift 1).carries.map (·.tag)]
    s.Tidy ∧ s.rotationLaw ∧ s.laneFits 4 ∧ s.listsFit 5 ∧ full.listsFit 5 ∧ 1 ≤ (s.station 4).reservations ∧
      (s.member ⟨12, 0⟩).map (·.state) = some .carrying ∧ (s.zone (s.station 4).zone).state = .clear ∧
      ((zoned 3 .sealed s).zone 3).state = .sealed ∧
      (arrived.order 12).map (fun o => (o.gathered, o.gatherStart)) = some (true, some 0) ∧
      ((arrived.station 4).lane.map (·.mark), (arrived.station 4).reservations) = ([.window], 0) ∧
      shut.memberState ⟨12, 0⟩ = none ∧ (shut.bin 510).map (·.state) = some .stranded ∧
      s.rotationSize = 2 ∧ tags (State.scanEntry up s) = [[0], []] ∧
      ((State.scanEntry up s).pool.pointer, (State.scanEntry up turned).pool.pointer) = (1, 1) ∧
      tags (State.scanEntry up turned) = [[0], []] ∧
      State.scanEntry { up with station := 6 } s = s ∧ State.scanEntry up (zoned 1 .sealed s) = zoned 1 .sealed s ∧
      State.scanEntry { up with leg := .down } full = full ∧
      tags (State.scanEntry { up with leg := .down } s) = [[0], []] ∧
      (State.scanEntry up s).work.down.map (·.telegram.body) = [[0, 0, 1, 254, 0, 5, 1, 4]] := by
  refine ⟨by constructor <;> decide +kernel, ?_, by unfold State.laneFits; decide +kernel,
    by unfold State.listsFit; decide +kernel, by unfold State.listsFit; decide +kernel, ?_⟩
  · exact ⟨wing_rotation.numbered, wing_rotation.below, wing_rotation.tail, wing_rotation.pointer, wing_rotation.asked⟩
  · decide +kernel

/-- A FETCH of a member at a CLEAR station, at a shut one, and of a cancelled one; a STORE and a RELOCATE; and a bin that a
member waits for, and none. -/
theorem witness_DoneCompletesTheJob_effects :
    let s (st : MemberState) : State := { working with
      store := { working.store with bins := [(510, { (binAt 20 120 .stored 0 3) with
        target := some { aisle := 5, face := .right, level := 1, column := 1 } })] }
      desk := { working.desk with
        stations := [(4, { (working.station 4) with lane := [] })]
        orders := working.desk.orders.mapVals fun (o : Order) =>
          { o with members := o.members.map fun (m : Member) => { m with state := st, held := 1 } } } }
    let member (t : State) := t.memberState ⟨12, 0⟩
    let fetched (st : MemberState) := (s st).completeJob 5 (job .fetch .front)
    (s .fetching).Tidy ∧ (job .fetch .front).owner = .member ⟨12, 0⟩ ∧ (s .fetching).order 12 ≠ none ∧
      (s .fetching).memberState ⟨12, 0⟩ = some .fetching ∧ member (fetched .fetching) = some .atFront ∧
      ((fetched .fetching).crane 5).front = [510] ∧ (fetched .fetching).pool.waitList.map (·.leg) = [.up] ∧
      ((zoned 3 .sealed (s .fetching)).completeJob 5 (job .fetch .front)).pool.waitList = [] ∧
      member (fetched .cancelled) = some .cancelled ∧
      (fetched .cancelled).work.down.map (·.telegram.kind) = [24] ∧
      member ((s .returning).completeJob 5 { job .store .front with owner := .recovery }) = some .returning ∧
      ((s .returning).completeJob 5 (job .store .front)).order 12 = none ∧
      ((s .returning).completeJob 5 (job .relocate .front)).work.up =
        [.notice (.shiftDone 510 { aisle := 5, face := .right, level := 1, column := 1 })] ∧
      (s .done).offer 510 = (s .done).oweRestore (.bin 510) ∧
      member ((s .waitBin).offer 510) = some .fetching := by
  refine ⟨by constructor <;> decide +kernel, ?_⟩
  decide +kernel

/-- A load whose STORE stands, one that is lost with a record free and without, one that is not, one of no bin, and no load;
and a bin that leaves each list, and one that is on none. -/
theorem witness_InfeedAndLoadsRecoverBins_loads :
    let aboard (load : Option Nat) := wing.modCrane 5 fun c => { c with place := some ⟨.front, load⟩ }
    let listed := wing.modCrane 5 fun c => { c with state := .busy, front := [513], infeed := [513] }
    let orphaned := wing.modCrane 5 fun c => { c with
      state := .busy, houseQueue := [{ job .store .crane with bin := 511, cls := .house, owner := .recovery }] }
    let taken := (aboard (some 513)).judgeLoad 5
    wing.Tidy ∧ ((aboard (some 513)).crane 5).load = some 513 ∧ ((aboard none).crane 5).load = none ∧
      (aboard (some 513)).freeCount = 512 ∧ (wing.bin 513).map (·.state) = some .adrift ∧
      (taken.bin 513).map (·.state) = some .out ∧ taken.work.up = [.notice (.recoveryQueued 5 513 .crane)] ∧
      (taken.crane 5).flight.map (·.job.origin) = some .crane ∧ wing.bin 9 = none ∧
      ((aboard (some 9)).judgeLoad 5).work.up = [.notice (.unexpectedLoad 5 9)] ∧
      ((aboard (some 511)).judgeLoad 5).work.up = [.notice (.unexpectedLoad 5 511)] ∧
      (orphaned.crane 5).queued.length = 1 ∧ (orphaned.judgeLoad 5).freeCount = 512 ∧
      ((orphaned.judgeLoad 5).bin 511).map (·.state) = some .adrift ∧
      ((listed.leaveLists 5 513).crane 5).front = [] ∧ ((listed.leaveLists 5 513).crane 5).infeed = [] ∧
      (listed.leaveLists 5 513).work.scan = true ∧ wing.leaveLists 5 513 = wing := by
  refine ⟨wing_tidy, ?_⟩
  decide +kernel

/-- The choices of STRICT and of WEIGHTED, the credits paid and refilled; a test that may not dispatch; and requests. -/
theorem witness_AxisTimesAndMoveDeadlines_dispatch :
    let house := { job .store .front with cls := .house, bin := 511 }
    let s (mode : SchedMode) (patron houseCredit : Nat) : State :=
      { working.modCrane 5 fun c => { c with
          patronQueue := [job .fetch .front], houseQueue := [house], patronCredit := patron, houseCredit } with
        store := { working.store with aisles := [(5, { aisle with mode, patronWeight := 3, houseWeight := 2 })] } }
    let flown (t : State) := ((t.crane 5).flight.map (·.job.cls), (t.crane 5).patronCredit, (t.crane 5).houseCredit)
    let asked (t : State) := (t.crane 5).flight.map fun f => (f.job.kind, f.job.dest, f.tag, f.deadline - f.estimate * 5 / 4)
    (s .strict 0 0).Tidy ∧ (s .strict 0 0).work.testsHeld = false ∧ ((s .strict 0 0).crane 5).state = .ready ∧
      ((s .strict 0 0).crane 5).place = some ⟨.front, none⟩ ∧
      (∀ z ∈ ((s .strict 0 0).aisle 5).zones, ((s .strict 0 0).zone z).state = .clear) ∧
      flown ((s .strict 0 0).dispatchTest 5) = (some .patron, 0, 0) ∧
      flown ((s .weighted 1 1).dispatchTest 5) = (some .patron, 0, 1) ∧
      flown ((s .weighted 0 1).dispatchTest 5) = (some .house, 0, 0) ∧
      flown ((s .weighted 0 0).dispatchTest 5) = (some .patron, 2, 2) ∧
      ((s .strict 0 0).dispatchTest 5).dispatch.jobTag = 0 ∧
      (zoned 1 .sealed (s .strict 0 0)).dispatchTest 5 = zoned 1 .sealed (s .strict 0 0) ∧ wing.dispatchTest 5 = wing ∧
      asked (working.requestFetch ⟨12, 0⟩ 510) = some (.fetch, .front, 65535, 5000) ∧
      asked (working.requestStore ⟨12, 0⟩ 510 .front) = some (.store, .slot .left 20 120, 65535, 5000) := by
  refine ⟨by constructor <;> decide +kernel, ?_⟩
  decide +kernel

/-- A zone with a station and lifts that leaves CLEAR, in a WRITE and outside; a station with a lane and an owner, with
orders that end and that go on; and STOPPING with a crane that moves, and without. -/
theorem witness_ShutdownsByZoneState_leaving :
    let s := { working with pool := { working.pool with waitList := [⟨510, .down, 5, 4, ⟨12, 0⟩⟩] } }
    let two : State := { working with desk := { working.desk with
      orders := working.desk.orders.mapVals fun (o : Order) => { o with members := o.members ++ [⟨511, [], .carrying, 2⟩] } } }
    let held (t : State) : State := { t with work := { Work.empty with bars := some [5] } }
    let stopping (st : CraneState) := (zoned 1 .stopping wing).modCrane 5 fun c => { c with state := st }
    let begun := (zoned 1 .stopping wing).beginStopping 1
    s.Tidy ∧ (working.leaveClear 0).work.up.length = 2 ∧ (held working).work.bars = some [5] ∧
      ((held working).leaveClear 0).work.bars = some [5, 0, 1] ∧ (working.leaveClear 7).work.up = [] ∧
      (s.leaveClear 3).pool.waitList = [] ∧ ((s.leaveClear 3).order 12) = none ∧
      ((s.leaveClear 3).bin 510).map (·.state) = some .stranded ∧ (((zoned 3 .stopping two).leaveClear 3).station 4).presQueue = [12] ∧
      (((zoned 3 .stopping two).leaveClear 3).station 4).lane = [] ∧ (((zoned 3 .stopping two).leaveClear 3).station 4).owner = none ∧
      working.member ⟨12, 0⟩ ≠ none ∧ (working.station 4).owner = some 12 ∧
      (begun.zone 1).timer = some 12191 ∧ (begun.zone 1).awaited = [5] ∧ (begun.crane 5).state = .parking ∧
      begun.work.zoneTests = [1] ∧ State.stoppingTest 1 wing = wing ∧
      ((State.stoppingTest 1 (stopping .busy)).zone 1).state = .stopping ∧
      ((State.stoppingTest 1 (stopping .ready)).crane 5).state = .parking ∧
      ((State.stoppingTest 1 (stopping .parked)).zone 1).state = .settling := by
  refine ⟨by constructor <;> decide +kernel, ?_⟩
  decide +kernel

/-- A zone that becomes CLEAR with a station that has a member AT_FRONT; and the ready test, met, not met, and not made. -/
theorem witness_RestoreAndZoneTimers_clear :
    let s : State := { working with desk := { working.desk with
      stations := [(4, { (working.station 4) with lane := [], owner := none })]
      orders := working.desk.orders.mapVals fun (o : Order) =>
        { o with members := o.members.map fun (m : Member) => { m with state := .atFront } } } }
    let enabling (st : CraneState) := (zoned 1 .enabling wing).modCrane 5 fun c => { c with state := st }
    let quiet (s : State) := { s with mode := { s.mode with mode := .quiet } }
    s.Tidy ∧ ((zoned 3 .enabling s).becomeClear 3).pool.waitList.map (·.leg) = [.up] ∧
      ((zoned 3 .enabling s).becomeClear 3).work.up = [.notice (.zoneState 3 .clear none false)] ∧
      ((zoned 3 .enabling s).becomeClear 3).work.restore = [.pass] ∧
      (enabling .ready).driveLevel 5 = true ∧ (enabling .ready).running ∧
      ((State.readyTest 1 (enabling .ready)).zone 1).state = .clear ∧
      State.readyTest 1 (enabling .offline) = enabling .offline ∧
      ((State.readyTest 1 (enabling .faulted)).zone 1).state = .clear ∧
      State.readyTest 1 (quiet (enabling .ready)) = quiet (enabling .ready) ∧
      State.readyTest 1 { enabling .ready with resets := { wing.resets with phase := .resetting } } =
        { enabling .ready with resets := { wing.resets with phase := .resetting } } := by
  refine ⟨by constructor <;> decide +kernel, ?_⟩
  decide +kernel

/-- Each feedback line, asserted in its state and in another, and absent; and a call key that is pressed, held and let go. -/
theorem witness_LinesTakeTheirInputs_feedback :
    let seen (n : Nat) (st : ZoneState) := (lined n (zoned 1 st wing)).modLine n fun l => { l with pin := true }
    let key (pin : Bool) := wing.modLine 47 fun l => { l with selection := .second, pin, keyTimer := some 9 }
    let state (s : State) := (s.zone 1).state
    wing.Tidy ∧ (seen 17 .closing).lineValue 17 = true ∧ ((seen 17 .closing).line 17).keyTimer = none ∧
      state ((seen 17 .closing).lineChanged 17 false) = .sealed ∧ state ((seen 17 .opening).lineChanged 17 false) = .opening ∧
      state ((seen 25 .opening).lineChanged 25 false) = .enabling ∧
      ((seen 25 .opening).lineChanged 25 false).work.zoneTests.getLast? = some 1 ∧
      state ((seen 25 .closing).lineChanged 25 false) = .closing ∧
      State.feedback 1 (zoned 1 .closing wing) = zoned 1 .closing wing ∧ (key true).function 47 = .callKey ∧
      (((key true).lineChanged 47 false).line 47).keyTimer = some 50 ∧ (key true).lineChanged 47 true = key true ∧
      (((key false).lineChanged 47 true).line 47).keyTimer = none := by
  refine ⟨wing_tidy, ?_⟩
  decide +kernel

/-- A queue of 64 whose last discardable telegram stands at its head, in it or at its end, and one that holds none. -/
theorem witness_ResetsBegin_full :
    let s (q : List Queued) : State := { wing with ports := { wing.ports with uQueue := q } }
    let full (k : Nat) := s (List.replicate k kept ++ passing :: List.replicate (63 - k) kept)
    let kinds (t : State) := t.ports.uQueue.map (·.telegram.kind)
    (full 0).running ∧ (full 63).ports.uQueue.length = 64 ∧ passing.cls = .forwarded false ∧
      (∀ k ∈ [0, 30, 63], kinds (after (.restart 9) (full k)) = List.replicate 63 1 ++ [16]) ∧
      (after (.restart 9) (full 0)).counter 10 = 1 ∧
      (after (.restart 9) (s (List.replicate 64 kept))).resets.phase = .resetting ∧
      (after (.restart 9) (s (List.replicate 64 kept))).resets.ending = some 10 ∧
      (after (.restart 9) (s (List.replicate 64 kept))).counter 10 = 1 := by decide +kernel

/-- Zones in each state, a line of each kind, and a key, at the end of a reset period. -/
theorem witness_ResetPeriodSettlesTheBlocks_resumes :
    let s : State := { (lined 1 (zoned 1 .stopping (zoned 2 .enabling (zoned 3 .opening (zoned 4 .sealed wing))))) with
      resets := { wing.resets with phase := .resetting, ending := some 10 } }
    let wired := ((s.modLine 1 fun l => { l with wiring := .high }).modLine 47 fun l =>
      { l with selection := .second, wiring := .high }).modLine 46 fun l => { l with wiring := .unwired }
    let t := after .resetPeriodEnd wired
    let state (z : Nat) := (t.zone z).state
    wired.Tidy ∧ wired.work = Work.empty ∧ wired.resets.phase = .resetting ∧ wired.function 47 = .callKey ∧
      [state 0, state 1, state 2, state 3, state 4] = [.clear, .closing, .settling, .opening, .sealed] ∧
      (t.zone 2).cause = some .manual ∧ (t.zone 1).debounceTimer = some 500 ∧ (t.line 47).keyTimer = some 50 ∧
      t.floats = 1 ∧ t.mode.mode = .run ∧ (t.ports.uQueue.head?.map (·.telegram.tag)) = some 0 ∧
      t.ports.dQueue.map (fun q => (q.telegram.dest, q.telegram.kind, q.telegram.body)) = [(20, 26, [0, 0]), (21, 26, [0, 0])] := by
  refine ⟨by constructor <;> decide +kernel, ?_⟩
  decide +kernel

/-! ## Witnesses of the clauses on entries, estimates and the tests at the end of an event -/

/-- A zone that closes in an event, and an event that leaves every zone CLEAR. -/
theorem witness_DriveEnableFollowsZonesAndMode_levels :
    let closed := after (.sealNow 0 1) wing
    wing.Tidy ∧ wing.outputsFollow ∧ closed.running ∧ (closed.zone 1).state = .closing ∧
      (closed.outputs.shutters, closed.outputs.beacon) = ([1], true) ∧ (after (.day 1 100) wing).running ∧
      (∀ z, z < 8 → ((after (.day 1 100) wing).zone z).state = .clear) ∧
      (after (.day 1 100) wing).outputs.beacon = false := by
  refine ⟨wing_tidy, show wing.outputs = wing.outputLevels by decide +kernel, ?_⟩
  decide +kernel

/-- A pin that its wire, its pull or nothing drives, and an output. -/
theorem witness_LineAndPullWrite_pin :
    let out := wing.modLine 1 fun l => { l with selection := .generalOut }
    let wired (w : Wiring) := wing.modLine 1 fun l => { l with wiring := w }
    let pulled (p : Pull) : State := (wired .unwired).setPull 0 p
    wing.Tidy ∧ (wing.function 1).input = true ∧ (out.function 1).input = false ∧ out.samplePin 1 = out ∧
      (((wired .high).samplePin 1).line 1).pin = true ∧ (((wired .low).samplePin 1).line 1).pin = false ∧
      (((pulled .up).samplePin 1).line 1).pin = true ∧ (((pulled .down).samplePin 1).line 1).pin = false ∧
      ((pulled .up).samplePin 1).floats = 0 ∧ ((wired .unwired).samplePin 1).floats = 1 := by
  refine ⟨wing_tidy, ?_⟩
  decide +kernel

/-- The bytes of a setting, a bin, an item entry and a staging entry, written out from their chapters. -/
theorem witness_ReadReturnsEntries_bytes :
    (working.loans.items[4]?).map (·.1) = some 5 ∧ wing.loans.items[0]?.map (·.1) = some 9 ∧
      working.returns.staging[0]? = some ⟨5, 511, 100, 65535⟩ ∧ wing.entryBytes 4 11 = [0, 0, 0, 0] ∧
      wing.entryBytes 6 620 = [0, 5, 0, 30, 180, 0, 1, 0, 0, 0, 0, 0, 1, 0, 0, 1] ∧
      wing.entryBytes 6 9 = 1 :: List.replicate 15 0 ∧
      wing.entryBytes 11 0 = [0, 0, 0, 0, 0, 0, 9, 2, 108, 1, 1, 0, 0, 0, 90, 0, 99, 1, 0, 0] ∧
      working.entryBytes 13 0 = [0, 0, 0, 0, 0, 5, 1, 255, 0, 100, 255, 255] := by decide +kernel

/-- Items given up: one that is REQUESTED for the order, listed twice, and one that is not. -/
theorem witness_CancelTakesAnOrderBack_items :
    let gone := working.giveUpItems 12 .cancel [2, 1, 1]
    working.Tidy ∧ working.order 12 ≠ none ∧ working.requestedOf 12 [2, 1, 1] = [1] ∧ gone.item 1 = none ∧
      gone.item 2 = working.item 2 ∧ (gone.bin 510).map (·.itemRefs) = some 2 ∧
      (gone.order 12).map (·.notTaken) = some 1 ∧ gone.work.up = [.notice (.notTaken 12 77 1 .cancel)] := by
  refine ⟨working_tidy, ?_⟩
  decide +kernel

/-- An order settled, and one that is absent; a window whose owner has its member in the lane. -/
theorem witness_BinDoneFinishesTheWindow_pass :
    let s : State := { working with
      desk := { working.desk with
        stations := [(4, { (working.station 4) with owner := some 12, presQueue := [32768], lane := [⟨510, .lined, ⟨12, 0⟩⟩] })]
        orders := working.desk.orders.mapVals fun (o : Order) =>
          { o with members := o.members.map fun (m : Member) =>
            { m with state := if o.number = 12 then .inLane else .returning } } } }
    s.Tidy ∧ s.order 13 = none ∧ s.settleOrder 13 = s ∧ (s.order 12).map (·.station) = some 4 ∧
      (s.settleOrder 12).memberState ⟨12, 0⟩ = some .atWindow ∧ (s.station 4).owner = some 12 ∧
      (s.order 12).map (fun o => o.members.map fun m => (m.state, m.bin)) = some [(.inLane, 510)] ∧
      (s.order 32768).map (fun o => o.members.map (·.state)) = some [.returning] ∧
      ((s.station 4).presQueue, (s.station 4).lane.map (·.bin)) = ([32768], [510]) ∧
      State.windowStep 4 (s.windowPass 4) = s.windowPass 4 ∧ s.windowPass 4 ≠ s := by
  refine ⟨by constructor <;> decide +kernel, ?_⟩
  decide +kernel

/-- An up leg and a down leg given up, the member of each holding a record; and one whose order is absent. -/
theorem witness_JoinAndLeave_carries :
    let s : State := { working with
      pool := lifting.pool
      desk := { working.desk with
        stations := [(4, { (working.station 4) with reservations := 1 })]
        orders := working.desk.orders.mapVals fun (o : Order) =>
          { o with members := o.members.map fun (m : Member) => { m with held := 2 } } } }
    let carry (tag : Nat) (leg : Leg) (num : Nat) : Carry :=
      { tag, bin := 511, leg, aisle := 5, station := 4, ref := ⟨num, 0⟩, late := false, timer := some 70 }
    let gone (c : Carry) := State.giveUpCarry 0 c s
    let seen (t : State) := ((t.lift 0).carries.map (·.tag), (t.station 4).reservations,
      (t.member ⟨12, 0⟩).map (·.held))
    s.Tidy ∧ (s.member ⟨12, 0⟩).map (·.held) = some 2 ∧ s.member ⟨13, 0⟩ = none ∧
      seen (gone (carry 65535 .up 12)) = ([7], 0, some 0) ∧ seen (gone (carry 7 .down 12)) = ([65535], 1, some 0) ∧
      seen (gone (carry 7 .down 13)) = ([65535], 1, some 2) ∧
      (gone (carry 65535 .up 12)).work.up = [.notice (.carryGivenUp 0 65535 511)] := by
  refine ⟨by constructor <;> decide +kernel, ?_⟩
  decide +kernel

/-- A bin that leaves a lane, and a lane that it is not in. -/
theorem witness_CarriedEndsTheCarry_lane :
    working.Tidy ∧ ((working.leaveLane 4 510).station 4).lane = [] ∧
      ((working.leaveLane 4 9).station 4).lane = (working.station 4).lane ∧
      (working.leaveLane 4 510).work.admission = true ∧ (working.leaveLane 4 510).work.drain = true := by
  refine ⟨working_tidy, ?_⟩
  decide +kernel

/-- A place recorded, a report rejected at the top of the count, and a crane that keeps its state and changes it. -/
theorem witness_DoneCompletesTheJob_cranes :
    let top := craned fun c => { c with rejected := 4294967295 }
    working.Tidy ∧ top.Tidy ∧ (working.crane 5).state = .ready ∧ (working.crane 5).state ≠ .parked ∧
      ((working.recordPlace 5 .park (some 3)).crane 5).place = some ⟨.park, some 3⟩ ∧
      ((working.rejectReport 5).crane 5).rejected = 1 ∧ ((top.rejectReport 5).crane 5).rejected = 4294967295 ∧
      working.setCraneState 5 .ready = working ∧ ((working.setCraneState 5 .parked).crane 5).state = .parked ∧
      (working.setCraneState 5 .parked).work.control = true := by
  refine ⟨working_tidy, by constructor <;> decide +kernel, ?_⟩
  decide +kernel

/-- A FETCH lost by a member that fetches, one that is cancelled, and one that stands in the new state; a STORE lost. -/
theorem witness_FaultsAndMoveDeadlines_lost :
    let s (st : MemberState) : State := { working with desk := { working.desk with
      stations := [(4, { (working.station 4) with reservations := 2 })]
      orders := working.desk.orders.mapVals fun (o : Order) =>
        { o with members := o.members.map fun (m : Member) => { m with state := st, held := 1 } } } }
    let seen (t : State) := ((t.member ⟨12, 0⟩).map fun m => (m.state, m.held), (t.station 4).reservations,
      t.work.up.length)
    (s .fetching).Tidy ∧ ((s .fetching).order 12).map (fun o => o.members.map (·.bin)) = some [510] ∧
      (s .fetching).memberState ⟨12, 0⟩ = some .fetching ∧ (s .cancelled).memberState ⟨12, 0⟩ = some .cancelled ∧
      seen ((s .fetching).fetchLost ⟨12, 0⟩ .stranded) = (some (.stranded, 0), 1, 1) ∧
      seen ((s .cancelled).fetchLost ⟨12, 0⟩ .stranded) = (some (.cancelled, 0), 2, 0) ∧
      seen ((s .failed).fetchLost ⟨12, 0⟩ .failed) = (some (.failed, 0), 1, 0) ∧
      seen ((s .returning).storeLost ⟨12, 0⟩) = (some (.stranded, 1), 2, 1) := by
  refine ⟨by constructor <;> decide +kernel, ?_⟩
  decide +kernel

/-- A FETCH that goes back for a CANCELLED member, for another, and of no member; and a target given up. -/
theorem witness_ParkedDisposesOfTheJob_cancelled :
    let s : State := { working with desk := { working.desk with orders := working.desk.orders.mapVals fun (o : Order) =>
      { o with members := o.members.map fun (m : Member) => { m with state := .cancelled, held := 1 } } } }
    let queued := s.modCrane 5 fun c => { c with state := .busy, patronQueue := [job .fetch .front] }
    let aimed := working.modBin 510 fun r => { r with target := some { aisle := 5, face := .right, level := 1, column := 1 } }
    (job .fetch .front).owner = .member ⟨12, 0⟩ ∧ (∀ r, (job .relocate .front).owner ≠ .member r) ∧
      queued.memberState ⟨12, 0⟩ = some .cancelled ∧ working.memberState ⟨12, 0⟩ ≠ some .cancelled ∧
      ((queued.removeCancelled (job .fetch .front)).crane 5).patronQueue = [] ∧
      working.removeCancelled (job .fetch .front) = working ∧ queued.removeCancelled (job .relocate .front) = queued ∧
      ((aimed.releaseTarget 510).bin 510).map (·.target) = some none := by
  refine ⟨rfl, nofun, ?_⟩
  decide +kernel

/-- A mirrored face and one that is not; two fetches of an aisle and their limit; cranes that a park deadline counts, ready
and under way, and does not; a park deadline of none and of one. -/
theorem witness_AxisTimesAndMoveDeadlines_estimates :
    let mirrored := { aisle with leftMirrored := true }
    let under (st : CraneState) := craned fun c => { flying (job .fetch .crane) c with state := st }
    let lost := craned fun c => { c with place := none }
    (aisle.x (.slot .left 3 1), mirrored.x (.slot .left 3 1), mirrored.x (.slot .right 3 1)) = (1800, 121200, 1800) ∧
      aisle.y (.slot .left 3 1) = 1200 ∧ Point.front ≠ .crane ∧
      (wing.bin 510).isSome = true ∧ (wing.bin 511).isSome = true ∧
      wing.fetchFromFront 511 ≤ wing.fetchFromFront 510 ∧
      wing.gatherLimit [510, 511] 0 = wing.fetchFromFront 510 - wing.fetchFromFront 511 ∧
      (working.crane 5).place = some ⟨.front, none⟩ ∧ (working.crane 5).state = .ready ∧ (lost.crane 5).place = none ∧
      working.parkContribution 5 = some 2191 ∧ lost.parkContribution 5 = none ∧
      (under .busy).parkContribution 5 = some 2191 ∧ ((under .parking).crane 5).flight.isSome = true ∧
      working.parkContribution 4 = none ∧ working.parkDeadline [4] 7 = 7 ∧ working.parkDeadline [4, 5] 7 = 2198 := by
  decide +kernel

/-- A zone that enters CLOSING, its feedback line absent and asserted. -/
theorem witness_RestoreAndZoneTimers_closing :
    let shut := (lined 17 (zoned 1 .settling wing)).modLine 17 fun l => { l with pin := true }
    wing.Tidy ∧ (((zoned 1 .settling wing).enterClosing 1).zone 1).state = .closing ∧
      (((zoned 1 .settling wing).enterClosing 1).zone 1).timer = some (wing.now + (wing.zone 1).shutterLimit) ∧
      ((shut.enterClosing 1).zone 1).state = .sealed := by
  refine ⟨wing_tidy, ?_⟩
  decide +kernel

/-- A crane that is faulted with a job in flight, one that is FAULTED already, one taken off line; and a change to each kind
of mode. -/
theorem witness_ModeChanges_cranes :
    let busy := craned (flying (job .fetch .front))
    let faulted := craned fun c => { c with state := .faulted, faultCode := some 9 }
    let hit := State.faultCrane .parkLate 5 busy
    let enabling : State := { zoned 1 .enabling wing with mode := { wing.mode with mode := .waking } }
    working.Tidy ∧ busy.Tidy ∧ faulted.Tidy ∧ (faulted.crane 5).state = .faulted ∧ (busy.crane 5).state ≠ .faulted ∧
      (hit.crane 5).state = .faulted ∧ (hit.crane 5).flight = (busy.crane 5).flight ∧
      hit.work.up = [.notice (.craneFault 5 .parkLate none none)] ∧
      State.faultCrane .parkLate 5 faulted = faulted ∧
      ((State.craneOffline 5 busy).crane 5).place = none ∧ ((State.craneOffline 5 busy).crane 5).state = .offline ∧
      faulted.offlineRequest [5] = faulted ∧
      ((enabling.changeMode .run .command).zone 1).state = .clear ∧
      (enabling.changeMode .run .command).work.up.getLast? = some (.notice (.modeState .run .command)) ∧
      (wing.changeMode .quiet .command).mode.timer = none := by
  refine ⟨working_tidy, by constructor <;> decide +kernel, by constructor <;> decide +kernel, ?_⟩
  decide +kernel

/-- An event that owes nothing, one whose drain test is owed, and one whose first round leaves a test owed. -/
theorem witness_TestsAtTheEndKeep_rounds :
    let s : State := { wing with work := Work.empty }
    let drain : State := { s with
      mode := { s.mode with mode := .draining, phase := some .work }, work := { Work.empty with drain := true } }
    let owes (x : State) : Bool := x.work.drain || x.work.control || !x.work.zoneTests.isEmpty || x.work.modeTest ||
      x.work.scan || x.work.admission || !x.work.restore.isEmpty || x.work.waiting
    owes s = false ∧ s.settle = s.holdPhase ∧ owes drain = true ∧
      (drain.settle.mode.phase, (drain.settle.crane 5).state) = (some .parkWait, .parking) ∧
      drain.settleRound.mode.phase = some .parkWait ∧ owes drain.settleRound = false := by
  decide +kernel

/-- A broadcast request under each treatment, with every zone CLEAR and with one that is not; and an address of each role. -/
theorem witness_ArrivalForwarded_broadcast :
    let m := telegram 127 1 2 9 [0, 5]
    let as_ (x : Treatment) (s : State) : State := { s with link := { s.link with trafficDown := [(2, x)] } }
    wing.running ∧ wing.link.counters.wf ∧ m.dest = 127 ∧ (as_ .pass wing).treatDown 2 = .pass ∧
      (as_ .drop wing).treatDown 2 = .drop ∧ wing.treatDown 2 = .guard ∧ (∀ z, z < 8 → (wing.zone z).state = .clear) ∧
      ((zoned 7 .sealed wing).zone 7).state ≠ .clear ∧ ((as_ .pass wing).forwardDown m).ports.dQueue.length = 1 ∧
      ((as_ .drop wing).forwardDown m).counter 7 = 1 ∧ (wing.forwardDown m).ports.dQueue.length = 1 ∧
      ((zoned 7 .sealed wing).forwardDown m).counter 6 = 1 ∧
      ((zoned 7 .sealed wing).forwardDown m).ports.uQueue.length = 1 ∧
      [wing.addr 11, wing.addr 10, wing.addr 20, wing.addr 30, wing.addr 40] =
        [.none, .crane 5, .lift 0, .station 4, .device 3] ∧
      [wing.zonesTouched 11, wing.zonesTouched 20, wing.zonesTouched 30, wing.zonesTouched 40] = [[], [0], [3], [3]] ∧
      1 ∈ wing.zonesTouched 10 ∧ 2 ∈ wing.zonesTouched 10 ∧ wing.guardPasses 127 = true ∧
      (zoned 7 .sealed wing).guardPasses 127 = false ∧ (zoned 7 .sealed wing).guardPasses 40 = true := by decide +kernel

/-- An alarm line deselected while its alarm stands, a line that stops carrying CALL_KEY while its timer runs, and a general
and an output line. -/
theorem witness_LinesTakeTheirInputs_deselected :
    let alarmed := wing.modZone 1 fun r => { r with alarm := true, debounceTimer := some 9 }
    let key (sel : Selection) := wing.modLine 1 fun l => { l with selection := sel, pin := true, keyTimer := some 9 }
    let out := wing.modLine 40 fun l => { l with selection := .first }
    wing.Tidy ∧ alarmed.Tidy ∧ (alarmed.line 1).selection ≠ .first ∧ (alarmed.zone 1).alarm = true ∧
      ((alarmed.lineChanged 1 false).zone 1).alarm = false ∧
      ((alarmed.lineChanged 1 false).zone 1).debounceTimer = none ∧ (key .second).function 1 = .callKey ∧
      ((key .second).lineChanged 1 true).line 1 = (key .second).line 1 ∧ (key .generalIn).function 1 ≠ .callKey ∧
      (((key .generalIn).lineChanged 1 true).line 1).keyTimer = none ∧ wing.lineChanged 45 false = wing ∧
      out.function 40 = .driveEnable 8 ∧ out.lineChanged 40 false = out := by
  refine ⟨wing_tidy, by constructor <;> decide +kernel, ?_⟩
  decide +kernel

/-- A part in which a timer of each family from the `k`-th on, in the order of log entry 5, runs to the instant 70. -/
def ticking (k : Nat) : State :=
  let at_ (n : Nat) : Option Nat := if k ≤ n then some 70 else none
  let s : State := { working with
    desk := { working.desk with
      orders := working.desk.orders.mapVals fun (o : Order) =>
        { o with gatherTimer := if o.kind = .patron then at_ 1 else none }
      holdTimer := at_ 2 }
    pool := { lifting.pool with
      lifts := [(3, { Lift.powerOn with word := .ask, answerTimer := at_ 3, carries := [
        { tag := 65535, bin := 511, leg := .up, aisle := 5, station := 4, ref := ⟨12, 0⟩, late := false, timer := none },
        { tag := 7, bin := 511, leg := .down, aisle := 5, station := 4, ref := ⟨12, 0⟩, late := false, timer := at_ 4 }] })] }
    returns := { working.returns with minuteTimer := at_ 5 }
    mode := { working.mode with mode := .draining, phase := some .parkWait, timer := at_ 9 } }
  (((s.modCrane 5 fun c => { flying (job .fetch .front) c with flight := (flying (job .fetch .front) c).flight.map fun f =>
    { f with timer := at_ 0 } }).modZone 7 fun r => { r with state := .closing, debounceTimer := at_ 6, timer := at_ 7 }
    ).modLine 47 fun l => { l with keyTimer := at_ 8 })

/-- The first due timer of each family, each at its instant and not before; the timer of each zone state and of each mode;
a reset period at its end and before it; and the phases that give none. -/
theorem witness_StepOnEmptyQueueTicks_order :
    let at_ (now : Nat) (s : State) := ({ s with now }).dueCommand
    let zone (st : ZoneState) := at_ 500 (zoned 0 st { State.reset with returns := { staging := [], minuteTimer := none } })
    let mode (m : Mode) := at_ 9 { State.reset with mode := { State.reset.mode with mode := m, timer := some 9 } }
    let phase (p : Phase) := at_ 9 { ticking 0 with resets := { State.reset.resets with phase := p, ending := some 9 } }
    let resetting := { State.reset with resets := { State.reset.resets with phase := .resetting, ending := some 10 } }
    (ticking 0).running ∧
      (List.range 11).map (fun k => at_ 70 (ticking k)) =
        [some (.moveDeadlineExpiry 5), some (.gatherTimerExpiry 12), some .holdRepeatExpiry, some (.answerTimerExpiry 3),
          some (.carryDeadlineExpiry 3 7), some .minuteTimerExpiry, some (.alarmDebounceExpiry 7),
          some (.shutterCloseLimitExpiry 7), some (.callKeyDebounceExpiry 47), some .parkWaitExpiry, none] ∧
      (List.range 11).all (fun k => at_ 69 (ticking k) = none) = true ∧
      [ZoneState.stopping, .settling, .closing, .opening, .enabling, .clear, .sealed].map zone =
        [some (.parkDeadlineExpiry 0), some (.brakeSettleExpiry 0), some (.shutterCloseLimitExpiry 0),
          some (.shutterOpenLimitExpiry 0), some (.zoneReadyExpiry 0), none, none] ∧
      [Mode.draining, .waking, .run, .quiet].map mode = [some .parkWaitExpiry, some .wakeReadyExpiry, none, none] ∧
      [at_ 9 resetting, at_ 10 resetting] = [none, some .resetPeriodEnd] ∧
      [Phase.restarting, .unpowered].map phase = [none, none] := by decide +kernel

/-- Units with an address and without, one whose two entries name it, and an entry that takes an address away; which
entries name a unit. -/
theorem witness_AddressWrite_addresses :
    let twice := { wing with link := { wing.link with addresses := [(1, .crane 11), (125, .crane 11)] } }
    wing.Tidy ∧ twice.Tidy ∧ [wing.craneAddress 5, wing.craneAddress 4] = [some 10, none] ∧
      [wing.liftAddress 1, wing.liftAddress 5] = [some 21, none] ∧
      [wing.stationAddress 6, wing.stationAddress 23] = [some 32, none] ∧
      (twice.addr 1 = .crane 11 ∧ twice.addr 125 = .crane 11) ∧ (twice.craneAddress 11).isSome = true ∧
      (after (.addressWrite 1 125 [⟨3, 0, 23, 1, 0⟩]) wing).stationAddress 23 = some 125 ∧
      (after (.addressWrite 1 32 [⟨0, 1, 0, 1, 0⟩]) wing).stationAddress 6 = none ∧
      [AddrEntry.none, .crane 0, .lift 0, .station 0, .device 0].map AddrEntry.namesUnit = [false, true, true, true, false] ∧
      [AddrEntry.none, .crane 0, .lift 0, .station 0, .device 0].map AddrEntry.namesStation =
        [false, false, false, true, false] := by
  refine ⟨wing_tidy, by constructor <;> decide +kernel, ?_⟩
  decide +kernel

/-- The positions of aisle 5, of 40 levels and 200 columns, at the bounds of face, level, column and kind, and those of an
aisle that is not configured. -/
theorem witness_StatusByCraneState_positions :
    let at_ (face level column : BitVec 8) := aisle.position ⟨0, face, level, column⟩
    [at_ 0 1 1, at_ 1 40 200, at_ 1 1 200, at_ 0 40 1] =
        [some (.slot .left 1 1), some (.slot .right 40 200), some (.slot .right 1 200), some (.slot .left 40 1)] ∧
      [at_ 2 1 1, at_ 0 0 1, at_ 0 41 1, at_ 0 1 0, at_ 0 1 201, at_ 1 0 0, at_ 255 255 255] = List.replicate 7 none ∧
      [1, 2, 3, 4, 255].map (fun k => aisle.position ⟨k, 2, 0, 255⟩) =
        [some .front, some .infeed, some .park, none, none] ∧
      [0, 1, 2, 3].map (fun k => (wing.aisle 4).position ⟨k, 0, 1, 1⟩) = List.replicate 4 none := by decide +kernel

/-- The function of each line at the ends of its range, under FIRST and SECOND, written out from the table of R175; a line
at each level and polarity; and driven lines. -/
theorem witness_LinesTakeTheirInputs_functions :
    let ends_ := [0, 7, 8, 15, 16, 23, 24, 31, 32, 43, 44, 47]
    let in_ (polarity : Polarity) (pin : Bool) :=
      (wing.modLine 0 fun l => { l with selection := .generalIn, polarity, pin }).lineValue 0
    let key (pin : Bool) := wing.modLine 7 fun l => { l with selection := .second, pin }
    let out (output : Bool) := wing.modLine 0 fun l => { l with selection := .generalOut, output }
    let driven := (lined 8 (lined 15 (lined 37 (lined 43 (lined 44 wing)))))
    let shut : State := { driven with outputs := { driven.outputs with shutters := [7], beacon := true } }
    ends_.map (lineFunction · .first) =
        [.zoneAlarm 0, .zoneAlarm 7, .shutterClose 0, .shutterClose 7, .shutterClosed 0, .shutterClosed 7, .shutterOpen 0,
          .shutterOpen 7, .driveEnable 0, .driveEnable 11, .beacon, .beacon] ∧
      ends_.map (lineFunction · .second) =
        [.callKey, .callKey, .beacon, .beacon, .callKey, .callKey, .callKey, .callKey, .beacon, .beacon, .callKey,
          .callKey] ∧
      ends_.all (fun n => lineFunction n .generalIn = .generalIn ∧ lineFunction n .generalOut = .generalOut) = true ∧
      [in_ .activeHigh true, in_ .activeHigh false, in_ .activeLow true, in_ .activeLow false] =
        [true, false, false, true] ∧
      [(key true).keyPressed 7, (key false).keyPressed 7, (out true).keyPressed 0] = [true, false, false] ∧
      [(out true).lineValue 0, (out false).lineValue 0] = [true, false] ∧
      [8, 15, 37, 43, 44].map driven.lineValue = [false, false, true, false, false] ∧
      [8, 15, 44].map shut.lineValue = [false, true, true] := by decide +kernel

/-- Bodies at the bounds of their lengths, written out from the rules of chapters 1 and 5 to 7: ORDERs of 0, 1, 8 and 9
items; WRITEs of tables 0, 7, 18 and 19, and of entries whole and short; and a READ of the RESET table. -/
theorem witness_ArrivalRunsItsCommand_bodies :
    let got (kind : Nat) (body : List Byte) := takenUp (telegram 126 1 kind 9 body)
    let order (k : Nat) := got 1 ([0, 7, 30, 0, 0, 0, 77] ++ (List.replicate k [0, 0, 0, 0, 0, 5, 1, 2, 3]).flatten)
    let item : OrderItem := ⟨5, 258, 3⟩
    [order 0, order 1, order 8, order 9] =
        [.badForm, .request (.order 9 7 30 77 [item]), .request (.order 9 7 30 77 (List.replicate 8 item)), .badForm] ∧
      [got 0 [], got 8 [], got 3 [0, 0, 0, 1, 0], got 3 [0, 0, 0, 1, 0, 0], got 4 [2, 1, 3, 1, 4, 5]] =
        [.badForm, .badForm, .badForm, .request (.renew 9 65536), .request (.shift 9 513 ⟨3, 1, 4, 5⟩)] ∧
      [got 6 [1, 0, 2, 3], got 6 [18, 0, 0, 1], got 6 [1, 0, 2]] =
        [.request (.read 9 1 2 3), .request (.resetRead 9 0 1), .badForm] ∧
      [got 5 [0, 0, 0], got 5 [19, 0, 0], got 5 [7, 0, 0], got 5 (7 :: 0 :: 0 :: List.replicate 50 0), got 5 [18, 0, 0, 0]] =
        [.writeRefused .unknownTable, .writeRefused .unknownTable, .badForm, .writeRefused .unknownTable, .badForm] ∧
      [got 5 [2, 0, 4, 1, 2], got 5 [2, 0, 4], got 5 [4, 0, 0, 0, 1, 0, 0, 0, 0, 0, 2], got 5 [4, 0, 0, 0, 1, 0]] =
        [.request (.trafficWrite 9 4 [1, 2]), .badForm, .request (.paramsWrite 9 0 [65536, 2]), .badForm] ∧
      got 5 ([6, 2, 0] ++ [0, 5, 1, 40, 200, 3] ++ List.replicate 10 255) =
        .request (.binWrite 9 512 [⟨0, 5, 1, 40, 200, 3⟩]) ∧
      got 5 ([12, 0, 1, 2, 0, 28, 3]) = .request (.classWrite 9 1 [⟨2, 28, 3⟩]) := by decide +kernel

/-- A STATUS of a word that is neither READY nor NOT_READY, from the crane and from a station; a FITNESS likewise from the
lift and from the crane; and reports a byte short and whole. -/
theorem witness_ArrivalDiscardedAndCounted_ignored :
    let status (src : Nat) := telegram 126 src 43 9 [2, 1, 0, 0, 0, 255, 255]
    let fitness (src : Nat) := telegram 126 src 45 9 [2]
    [status 10, status 30, fitness 20, fitness 10].map (fun m => (parseFrame m.frame).isSome) = List.replicate 4 true ∧
      (takenDown (status 10) matches some (.ignored 1)) = true ∧ (takenDown (fitness 20) matches some (.ignored 2)) = true ∧
      wing.addr 10 = .crane 5 ∧ wing.addr 20 = .lift 0 ∧ wing.addr 30 = .station 4 ∧
      [status 10, fitness 20].all (fun m => match exec (.frameArrival .d m.frame) wing with
        | .next t => t = wing
        | _ => false) = true ∧
      [(after (.frameArrival .d (status 30).frame) wing).counter 5,
        (after (.frameArrival .d (fitness 10).frame) wing).counter 5] = [1, 1] ∧
      [(40, 7), (40, 8), (40, 9), (41, 4), (41, 5), (48, 6), (48, 5), (47, 0)].map (fun x =>
        (takenDown (telegram 126 10 x.1 9 (List.replicate x.2 0))).isNone) =
        [true, false, true, false, true, false, true, true] := by decide +kernel

/-- The check of the nine bytes 31H to 39H is 29B1H, a known answer for the polynomial and preset of R3; and the bytes
of two numbers, one too large for its width. -/
theorem witness_FramesCarryTelegramsBack_check :
    crc ((List.range 9).map fun k => BitVec.ofNat 8 (49 + k)) = 0x29B1#16 ∧
      (be 4 16909060, be 2 65536) = ([1, 2, 3, 4], [0, 0]) := by decide +kernel

/-- A shutdown in every state of the zone, in RUN and in QUIET: the state after it. -/
theorem witness_ShutdownsByZoneState_courses :
    let went (m : Mode) (st : ZoneState) :=
      let s : State := { wing with mode := { wing.mode with mode := m } }
      (((zoned 1 st s).shutdown 1 .manual).zone 1).state
    let states : List ZoneState := [.clear, .enabling, .opening, .stopping, .settling, .closing, .sealed]
    states.map (went .run) = [.stopping, .stopping, .closing, .stopping, .settling, .closing, .sealed] ∧
      states.map (went .quiet) = [.closing, .closing, .closing, .stopping, .settling, .closing, .sealed] := by
  decide +kernel

/-- Members with records held and without, of a patron order, a restore order and none in use; a bin at home and its home
point; and a lane's window. -/
theorem witness_CancelTakesAnOrderBack_records :
    let holds (n : Nat) := working.modMember ⟨12, 0⟩ fun m => { m with held := n }
    let owed (s : State) := (s.work.admission, s.work.drain, (s.member ⟨12, 0⟩).map (·.held))
    [0, 2].map (fun n => owed ((holds n).releaseHeld ⟨12, 0⟩)) = [(false, false, some 0), (true, true, some 0)] ∧
      working.releaseHeld ⟨99, 0⟩ = working ∧
      [working.memberClass ⟨12, 0⟩, working.memberClass ⟨32768, 0⟩] = [.patron, .restore] ∧
      (working.binAisle 510, working.homePoint 510) = (5, .slot .left 20 120) ∧
      (working.station 4).window = some ⟨510, .window, ⟨12, 0⟩⟩ ∧ (working.station 6).window = none ∧
      firstOnly [] [3, 1, 3, 2, 1] = [3, 1, 2] := by decide +kernel

end Sys2Proof.Machine.Tests
end

section
/-! The reports of a crane as they change its record (R61, R80), the positions of an aisle (R28), and the statement on
STATUS (R62). -/

namespace Sys2Proof.Machine

/-! ## Events -/

/-- While the part runs, a live command answers the state it makes (R24). -/
theorem live_running {s : State} (t : State) (hr : s.running) : s.live t = .next t := if_pos hr

/-- An event that has made no effect owes no test. -/
@[simp] theorem settle_beginEvent (s : State) : s.beginEvent.settle = s.beginEvent := settle_idle _ rfl

/-- A command whose event ends where it began has no effect. -/
theorem hasNoEffect_of_ends_at_begin {s : State} {c : Instr} (h : exec c s = .next (s.eventEnds s.beginEvent)) :
    HasNoEffect c s := by
  unfold HasNoEffect
  rw [h, State.eventEnds, settle_beginEvent]

/-! ## Effects on one crane -/

/-- From `s`, the record of crane `a` has become `x` and the workspace `w`; every other crane and everything else is as it
was. These are the first two clauses of `CraneBecomes`, with the order of the crane table, which the next update needs. -/
structure OnlyCrane (s : State) (a : Nat) (x : Crane) (w : Work) (u : State) : Prop where
  cranes : ∀ k, u.crane k = if k = a then x else s.crane k
  rest : u = { s with dispatch := { s.dispatch with cranes := u.dispatch.cranes }, work := w }
  ordered : u.dispatch.cranes.wf

namespace OnlyCrane

variable {s u : State} {a : Nat} {x : Crane} {w : Work}

/-- An event begins with nothing changed and an empty workspace. -/
theorem beginEvent (a : Nat) (h : s.Tidy) : OnlyCrane s a (s.crane a) Work.empty s.beginEvent where
  cranes k := by
    rw [State.beginEvent_crane]
    split
    · next hk => rw [hk]
    · rfl
  rest := rfl
  ordered := h.cranes.1

/-- The crane's own record. -/
theorem crane_eq (h : OnlyCrane s a x w u) : u.crane a = x := by rw [h.cranes, if_pos rfl]

/-- The workspace. -/
theorem work_eq (h : OnlyCrane s a x w u) : u.work = w := congrArg State.work h.rest

/-- A further change of the crane's record. -/
theorem modCrane (h : OnlyCrane s a x w u) (f : Crane → Crane) : OnlyCrane s a (f x) w (u.modCrane a f) where
  cranes k := by
    rw [State.modCrane_crane u a k f h.ordered, h.crane_eq, h.cranes]
    split <;> rfl
  rest := congrArg (fun v : State => v.modCrane a fun _ => f (u.crane a)) h.rest
  ordered := Tab.wf_set _ _ _ _ h.ordered

/-- The tests that follow a crane's change of state come to be owed. -/
theorem oweControl (h : OnlyCrane s a x w u) : OnlyCrane s a x { w with control := true } u.oweControl where
  cranes := h.cranes
  rest := by
    rw [← h.work_eq]
    exact congrArg (fun v : State => { v with work := { u.work with control := true } }) h.rest
  ordered := h.ordered

/-- A crane's state is set: tests come to be owed exactly where it changes (R61). -/
theorem setCraneState (h : OnlyCrane s a x w u) (st : CraneState) :
    OnlyCrane s a { x with state := st } { w with control := w.control || decide (x.state ≠ st) }
      (u.setCraneState a st) := by
  unfold State.setCraneState
  rw [h.crane_eq]
  split
  · next hst => simpa [← hst] using h
  · next hst => simpa [hst] using (h.modCrane fun c => { c with state := st }).oweControl

/-- A crane's position and load are recorded (R61). -/
theorem recordPlace (h : OnlyCrane s a x w u) (p : Point) (load : Option Nat) :
    OnlyCrane s a { x with place := some { point := p, load } } w (u.recordPlace a p load) :=
  h.modCrane fun c => { c with place := some { point := p, load } }

/-- A report is rejected and counted (R80). -/
theorem rejectReport (h : OnlyCrane s a x w u) :
    OnlyCrane s a { x with rejected := countUp x.rejected } w (u.rejectReport a) :=
  h.modCrane fun c => { c with rejected := countUp c.rejected }

/-- A crane goes off line (R61). -/
theorem craneOffline (h : OnlyCrane s a x w u) :
    OnlyCrane s a { x with state := .offline, place := none }
      { w with control := w.control || decide (x.state ≠ .offline) } (State.craneOffline a u) :=
  (h.modCrane fun c => { c with place := none }).setCraneState .offline

/-- An event whose own effects are on one crane makes that crane's record what they made it. -/
theorem becomes {c : Instr} {f : State → State} (h : OnlyCrane s a x w u) (he : exec c s = .next (s.eventEnds (f u))) :
    CraneBecomes s a c x w f := ⟨u, h.cranes, h.rest, he⟩

end OnlyCrane

/-! ## Positions -/

/-- The two values that carry a face (R23). -/
theorem faceOf_eq_some_iff (n : Nat) (f : Face) :
    faceOf n = some f ↔ (n = 0 ∧ f = .left) ∨ (n = 1 ∧ f = .right) := by
  unfold faceOf
  split
  case h_1 => simp [eq_comm]
  case h_2 => simp [eq_comm]
  case h_3 h0 h1 => simp [show n ≠ 0 from h0, show n ≠ 1 from h1]

/-- A slot exists within the aisle's levels and columns (R25). -/
theorem hasSlot_iff (r : Aisle) (level column : Nat) :
    r.hasSlot level column = true ↔ 1 ≤ level ∧ level ≤ r.levels ∧ 1 ≤ column ∧ column ≤ r.columns := by
  simp [Aisle.hasSlot, and_assoc]

/-- The position of a configured aisle that a carried point names, by its kind; any other kind is CRANE or no point
(R28). -/
theorem position_configured {r : Aisle} (hr : 1 ≤ r.levels) (q : RawPoint) (p : Point) :
    r.position q = some p ↔
      (q.kind.toNat = 0 ∧ ∃ f, faceOf q.face.toNat = some f ∧ r.hasSlot q.level.toNat q.column.toNat = true ∧
        p = .slot f q.level.toNat q.column.toNat) ∨
      (q.kind.toNat = 1 ∧ p = .front) ∨ (q.kind.toNat = 2 ∧ p = .infeed) ∨ (q.kind.toNat = 3 ∧ p = .park) := by
  have hc : r.configured = true := by simpa [Aisle.configured] using hr
  unfold Aisle.position
  rw [if_pos hc]
  split
  case h_1 hk => cases faceOf q.face.toNat <;> simp [hk, eq_comm (a := p)]
  case h_2 hk => simp [hk, eq_comm (a := p)]
  case h_3 hk => simp [hk, eq_comm (a := p)]
  case h_4 hk => simp [hk, eq_comm (a := p)]
  case h_5 h0 h1 h2 h3 =>
    simp [show q.kind.toNat ≠ 0 from h0, show q.kind.toNat ≠ 1 from h1, show q.kind.toNat ≠ 2 from h2,
      show q.kind.toNat ≠ 3 from h3]

/-- An aisle that is not configured has no positions (R25). -/
theorem position_unconfigured {r : Aisle} (hr : ¬ 1 ≤ r.levels) (q : RawPoint) : r.position q = none := by
  have hc : ¬ r.configured = true := by simpa [Aisle.configured] using hr
  exact if_neg hc

/-- The carried points that are positions of an aisle (R28). -/
theorem position_eq_some_iff (r : Aisle) (q : RawPoint) (p : Point) :
    let slot (f : Face) : Prop :=
      1 ≤ q.level.toNat ∧ q.level.toNat ≤ r.levels ∧ 1 ≤ q.column.toNat ∧ q.column.toNat ≤ r.columns ∧
        p = .slot f q.level.toNat q.column.toNat
    r.position q = some p ↔ 1 ≤ r.levels ∧
      ((q.kind = 0 ∧ (q.face = 0 ∧ slot .left ∨ q.face = 1 ∧ slot .right)) ∨
        (q.kind = 1 ∧ p = .front) ∨ (q.kind = 2 ∧ p = .infeed) ∨ (q.kind = 3 ∧ p = .park)) := by
  intro slot
  by_cases hr : 1 ≤ r.levels
  · have hslot (f : Face) : slot f ↔ r.hasSlot q.level.toNat q.column.toNat = true ∧
        p = .slot f q.level.toNat q.column.toNat := by
      simp only [slot, hasSlot_iff, and_assoc]
    rw [position_configured hr]
    simp [← BitVec.toNat_inj, hr, hslot, faceOf_eq_some_iff, or_and_right, exists_or, and_assoc]
  · simp [position_unconfigured hr, hr]

/-! ## STATUS -/

/-- The zone states that release a held crane (R62). -/
theorem releasesCranes_eq_false_iff (z : ZoneState) : z.releasesCranes = false ↔ z ≠ .clear ∧ z ≠ .enabling := by
  cases z <;> simp [ZoneState.releasesCranes]

/-- What holds a PARKED crane parked (R62). -/
theorem heldParked_iff (s : State) (a : Nat) :
    s.heldParked a = true ↔ (∃ z ∈ (s.aisle a).zones, (s.zone z).state ≠ .clear ∧ (s.zone z).state ≠ .enabling) ∨
      s.mode.mode = .quiet ∨ (s.mode.mode = .draining ∧ s.mode.phase = some .parkWait) := by
  simp [State.heldParked, releasesCranes_eq_false_iff, or_assoc]

section
variable {s : State} {a : Fin 12} {ready : Bool} {position : RawPoint} {load : BitVec 16} {p : Point}

/-- A STATUS of a crane without an address has no effect (R61; log entry 36). -/
theorem status_unaddressed (hr : s.running) (ha : s.craneAddress a = none) :
    HasNoEffect (.status a ready position load) s := by
  refine hasNoEffect_of_ends_at_begin ((live_running _ hr).trans ?_)
  have hb : s.beginEvent.craneAddress a = none := ha
  simp only [State.event, State.eventEnds, hb, Option.isSome_none, Bool.false_eq_true, if_false]

/-- A STATUS of a crane with an address is taken, and its event ends. -/
theorem exec_status (hr : s.running) (ha : s.craneAddress a ≠ none) :
    exec (.status a ready position load) s =
      .next (s.eventEnds (s.beginEvent.takeStatus a ready ((s.aisle a).position position) (loadOf load))) := by
  refine (live_running _ hr).trans ?_
  have hb : (s.beginEvent.craneAddress a).isSome = true := Option.isSome_iff_ne_none.2 ha
  simp only [State.event, State.eventEnds, hb, if_true, State.beginEvent_aisle]

/-- A FAULTED crane takes no STATUS. -/
theorem takeStatus_faulted {t : State} {k : Nat} (hx : (t.crane k).state = .faulted) (ready : Bool) (q : Option Point)
    (l : Option Nat) : t.takeStatus k ready q l = t := by
  cases ready
  · simp [State.takeStatus, State.statusNotReady, hx]
  · cases q <;> simp [State.takeStatus, State.statusInvalid, State.statusReady, hx]

/-- NOT_READY takes a crane that is neither OFFLINE nor FAULTED off line. -/
theorem statusNotReady_offlines {t : State} {k : Nat} (ho : (t.crane k).state ≠ .offline)
    (hf : (t.crane k).state ≠ .faulted) : t.statusNotReady k = State.craneOffline k t := by
  unfold State.statusNotReady
  split <;> simp_all

/-- READY of a BUSY or PARKING crane is rejected, whatever its position. -/
theorem takeStatus_ready_underway {t : State} {k : Nat} (hx : (t.crane k).state = .busy ∨ (t.crane k).state = .parking)
    (q : Option Point) (l : Option Nat) : t.takeStatus k true q l = t.rejectReport k := by
  rcases hx with hx | hx <;> cases q <;> simp [State.takeStatus, State.statusInvalid, State.statusReady, hx]

/-- READY without a valid position takes an OFFLINE, READY or PARKED crane off line, and is counted. -/
theorem statusInvalid_offlines {t : State} {k : Nat}
    (hx : (t.crane k).state = .offline ∨ (t.crane k).state = .ready ∨ (t.crane k).state = .parked) :
    t.statusInvalid k = (State.craneOffline k t).rejectReport k := by
  rcases hx with hx | hx | hx <;> simp [State.statusInvalid, hx]

/-- READY with a valid position makes a crane ready for work that is OFFLINE without a job in flight, READY, or PARKED and
not held parked. -/
theorem statusReady_readies {t : State} {k : Nat} (l : Option Nat)
    (hx : ((t.crane k).state = .offline ∧ (t.crane k).flight = none) ∨ (t.crane k).state = .ready ∨
      ((t.crane k).state = .parked ∧ ¬ t.heldParked k = true)) : t.statusReady k p l = t.craneReady k p l := by
  rcases hx with ⟨hx, hf⟩ | hx | ⟨hx, hh⟩
  · simp [State.statusReady, hx, hf]
  · simp [State.statusReady, hx]
  · simp [State.statusReady, hx, hh]

/-- STATUS changes nothing where the event takes it so. -/
theorem status_noEffect (hr : s.running) (ha : s.craneAddress a ≠ none)
    (h : s.beginEvent.takeStatus a ready ((s.aisle a).position position) (loadOf load) = s.beginEvent) :
    HasNoEffect (.status a ready position load) s :=
  hasNoEffect_of_ends_at_begin (by rw [exec_status hr ha, h])

/-- What STATUS makes of the crane, where it is taken by effects on that crane alone and then `f`. -/
theorem status_becomes {x : Crane} {w : Work} {u : State} {f : State → State} (hr : s.running)
    (ha : s.craneAddress a ≠ none) (hu : OnlyCrane s a x w u)
    (h : s.beginEvent.takeStatus a ready ((s.aisle a).position position) (loadOf load) = f u) :
    CraneBecomes s a (.status a ready position load) x w f :=
  hu.becomes (by rw [exec_status hr ha, h])

/-- STATUS of a FAULTED crane has no effect (R62). -/
theorem status_faulted (hr : s.running) (ha : s.craneAddress a ≠ none) (hx : (s.crane a).state = .faulted) :
    HasNoEffect (.status a ready position load) s :=
  status_noEffect hr ha (takeStatus_faulted (t := s.beginEvent) hx _ _ _)

/-- NOT_READY of an OFFLINE crane has no effect (R62). -/
theorem status_notReady_offline (hr : s.running) (ha : s.craneAddress a ≠ none) (hx : (s.crane a).state = .offline) :
    HasNoEffect (.status a false position load) s :=
  status_noEffect hr ha (by simp [State.takeStatus, State.statusNotReady, hx])

/-- READY of a BUSY or PARKING crane is rejected and counted (R62). -/
theorem status_ready_underway (hr : s.running) (ht : s.Tidy) (ha : s.craneAddress a ≠ none)
    (hx : (s.crane a).state = .busy ∨ (s.crane a).state = .parking) :
    CraneBecomes s a (.status a true position load)
      { s.crane a with rejected := countUp (s.crane a).rejected } Work.empty id :=
  status_becomes hr ha (OnlyCrane.beginEvent a.val ht).rejectReport (takeStatus_ready_underway (t := s.beginEvent) hx _ _)

/-- NOT_READY makes a crane OFFLINE (R62). -/
theorem status_notReady_offlines (hr : s.running) (ht : s.Tidy) (ha : s.craneAddress a ≠ none)
    (ho : (s.crane a).state ≠ .offline) (hf : (s.crane a).state ≠ .faulted) :
    CraneBecomes s a (.status a false position load) { s.crane a with state := .offline, place := none }
      { Work.empty with control := true } id := by
  have hu := (OnlyCrane.beginEvent a.val ht).craneOffline
  rw [decide_eq_true ho] at hu
  exact status_becomes hr ha hu (statusNotReady_offlines ho hf)

/-- READY without a valid position (R62). -/
theorem status_ready_invalid (hr : s.running) (ht : s.Tidy) (ha : s.craneAddress a ≠ none)
    (hp : (s.aisle a).position position = none)
    (hx : (s.crane a).state = .offline ∨ (s.crane a).state = .ready ∨ (s.crane a).state = .parked) :
    CraneBecomes s a (.status a true position load)
      { s.crane a with state := .offline, place := none, rejected := countUp (s.crane a).rejected }
      { Work.empty with control := decide ((s.crane a).state ≠ .offline) } id := by
  refine status_becomes hr ha (OnlyCrane.beginEvent a.val ht).craneOffline.rejectReport ?_
  rw [hp]
  exact statusInvalid_offlines hx

/-- READY with a valid position of an OFFLINE crane with a job in flight: it is BUSY (R62). -/
theorem status_ready_resumes (hr : s.running) (ht : s.Tidy) (ha : s.craneAddress a ≠ none)
    (hp : (s.aisle a).position position = some p) (hx : (s.crane a).state = .offline) (hf : (s.crane a).flight ≠ none) :
    CraneBecomes s a (.status a true position load)
      { s.crane a with state := .busy, place := some { point := p, load := loadOf load } }
      { Work.empty with control := true } id := by
  have hu := ((OnlyCrane.beginEvent a.val ht).recordPlace p (loadOf load)).setCraneState .busy
  simp only [hx] at hu
  refine status_becomes hr ha hu ?_
  simp [hp, State.takeStatus, State.statusReady, hx, Option.isSome_iff_ne_none.2 hf]

/-- READY with a valid position of a crane held parked: position and load are recorded (R62). -/
theorem status_ready_held (hr : s.running) (ht : s.Tidy) (ha : s.craneAddress a ≠ none)
    (hp : (s.aisle a).position position = some p) (hx : (s.crane a).state = .parked) (hh : s.heldParked a = true) :
    CraneBecomes s a (.status a true position load)
      { s.crane a with place := some { point := p, load := loadOf load } } Work.empty id := by
  refine status_becomes hr ha ((OnlyCrane.beginEvent a.val ht).recordPlace p (loadOf load)) ?_
  have hb : s.beginEvent.heldParked a = true := hh
  simp [hp, State.takeStatus, State.statusReady, hx, hb]

/-- READY with a valid position that makes a crane READY (R62). -/
theorem status_ready_readies (hr : s.running) (ht : s.Tidy) (ha : s.craneAddress a ≠ none)
    (hp : (s.aisle a).position position = some p)
    (hx : ((s.crane a).state = .offline ∧ (s.crane a).flight = none) ∨ (s.crane a).state = .ready ∨
      ((s.crane a).state = .parked ∧ ¬ s.heldParked a = true)) :
    CraneBecomes s a (.status a true position load)
      { s.crane a with state := .ready, place := some { point := p, load := loadOf load } }
      { Work.empty with control := decide ((s.crane a).state ≠ .ready) }
      fun u => (u.judgeLoad a).dispatchTest a := by
  refine status_becomes hr ha (((OnlyCrane.beginEvent a.val ht).recordPlace p (loadOf load)).setCraneState .ready) ?_
  rw [hp]
  exact statusReady_readies (loadOf load) hx

end

/-- Settles O47: the positions of an aisle by the kind of the carried point, and STATUS by the crane's state. -/
theorem statusByCraneState : Obligations.StatusByCraneState := by
  unfold Obligations.StatusByCraneState
  refine ⟨position_eq_some_iff, ?_⟩
  intro s a position load hr ht ready notReady x held rejected carried
  have held_iff : s.heldParked a = true ↔ held := heldParked_iff s a
  refine ⟨fun ha => ⟨status_unaddressed hr ha, status_unaddressed hr ha⟩, fun ha => ⟨?faulted, ?offline, ?notReady,
    ?underway, ?invalid, fun p hp => ⟨?resumes, ?heldParked, ?readies⟩⟩⟩
  case faulted => exact fun hx => ⟨status_faulted hr ha hx, status_faulted hr ha hx⟩
  case offline => exact status_notReady_offline hr ha
  case notReady => exact status_notReady_offlines hr ht ha
  case underway => exact status_ready_underway hr ht ha
  case invalid => exact status_ready_invalid hr ht ha
  case resumes => exact status_ready_resumes hr ht ha hp
  case heldParked => exact fun hx hh => status_ready_held hr ht ha hp hx (held_iff.2 hh)
  case readies =>
    rw [← held_iff]
    exact status_ready_readies hr ht ha hp

end Sys2Proof.Machine
end

section
/-! The Loan Table: the due day (R130), the statement on RENEW (R134) and the one on ITEM_OUT (R131). -/

namespace Sys2Proof.Machine

/-! ## The due day -/

/-- A term end that is set, not past, and passed by the first value holds the due day (R130). -/
theorem State.dueDay_of_passes_termEnd {s : State} {p : Nat} (hset : s.params.termEnd ≠ 0)
    (hnow : s.loans.today ≤ s.params.termEnd) (hpass : s.params.termEnd < s.loans.today + p) :
    s.dueDay p = min 65535 s.params.termEnd := by
  simp only [State.dueDay]
  rw [if_pos ⟨hset, hnow, hpass⟩]

/-- A term end that is not set, past, or not passed leaves the due day as it is (R130). -/
theorem State.dueDay_of_termEnd_idle {s : State} {p : Nat}
    (h : s.params.termEnd = 0 ∨ s.params.termEnd < s.loans.today ∨ s.loans.today + p ≤ s.params.termEnd) :
    s.dueDay p = min 65535 (s.loans.today + p) := by
  simp only [State.dueDay]
  rw [if_neg (by omega)]

/-- Settles O34: the due day by its two forms. -/
theorem dueDayFromTodayPeriodAndTermEnd : Obligations.DueDayFromTodayPeriodAndTermEnd :=
  fun _ _ => ⟨State.dueDay_of_passes_termEnd, State.dueDay_of_termEnd_idle⟩

/-! ## The judgement of a RENEW -/

section
variable {s : State} {t : Nat} {e : Item} {l : Loan}

theorem State.judgeRenew_zero (h0 : t = 0) : s.judgeRenew t = .inr .valueRange := if_pos h0

theorem State.judgeRenew_unknown (h0 : t ≠ 0) (hi : s.item t = none) : s.judgeRenew t = .inr .itemUnknown := by
  simp [State.judgeRenew, h0, hi]

theorem State.judgeRenew_notLent (h0 : t ≠ 0) (hi : s.item t = some e) (hw : e.state.word ≠ .lent) :
    s.judgeRenew t = .inr .wrongState := by
  simp only [State.judgeRenew, h0, hi, if_false]
  cases he : e.state with
  | lent l => simp [he, ItemState.word] at hw
  | requested n => rfl
  | inhouse l => rfl
  | returned l d => rfl

/-- A loan is judged by its category's class, its renewals and the due day of today, in this order (R134). -/
theorem State.judgeRenew_lent (h0 : t ≠ 0) (hi : s.item t = some e) (hl : e.state = .lent l) :
    s.judgeRenew t =
      if (s.lendClass e.category).cls ≠ .loanable then .inr .notLendable
      else if (s.lendClass e.category).renewLimit ≤ l.renewals then .inr .renewLimit
      else if s.dueDay (s.lendClass e.category).period ≤ l.dueDay then .inr .noExtension
      else .inl { e with state := .lent { l with
        dueDay := s.dueDay (s.lendClass e.category).period, renewals := l.renewals + 1 } } := by
  simp only [State.judgeRenew, h0, hi, hl, if_false]

/-- The ANSWER to a RENEW carries the loan of a LENT entry (R134). -/
theorem renewFields_lent (hi : s.item t = some e) (hl : e.state = .lent l) :
    renewFields t s = be 6 t ++ be 2 l.dueDay ++ be 1 l.renewals := by
  obtain ⟨bin, category, state⟩ := e
  obtain rfl : state = .lent l := hl
  simp only [renewFields, hi]

end

/-! ## RENEW -/

section
variable {s : State} {item : BitVec 48} {e : Item} {r : Reason} (tag : BitVec 16)

/-- RENEW while the part runs: the event follows the judgement (R134). -/
theorem exec_renew (item : BitVec 48) (hr : s.running) : exec (.renew tag item) s = .next (s.request fun u =>
    match u.judgeRenew item.toNat with
    | .inl e => (u.putItem item.toNat e, fun v => .done tag.toNat 3 (renewFields item.toNat v))
    | .inr r => (u, fun v => .refused tag.toNat 3 r (renewFields item.toNat v))) :=
  live_running _ hr

/-- A RENEW that a test refuses only answers (R134). -/
theorem exec_renew_refused (hr : s.running) (h : s.judgeRenew item.toNat = .inr r) :
    exec (.renew tag item) s = .next (s.onlyAnswers (.refused tag.toNat 3 r (renewFields item.toNat s))) := by
  have hb : s.beginEvent.judgeRenew item.toNat = .inr r := h
  have hf : renewFields item.toNat s.beginEvent = renewFields item.toNat s := rfl
  rw [exec_renew tag item hr]
  simp only [State.request, hb, settle_beginEvent, hf, State.onlyAnswers]

/-- A RENEW that passes every test writes the renewed entry and answers with it (R134). -/
theorem exec_renew_granted (hr : s.running) (h : s.judgeRenew item.toNat = .inl e) :
    exec (.renew tag item) s = .next (s.closeEvent (s.beginEvent.putItem item.toNat e)
      (some (.done tag.toNat 3 (renewFields item.toNat (s.beginEvent.putItem item.toNat e))))) := by
  have hb : s.beginEvent.judgeRenew item.toNat = .inl e := h
  have hs : (s.beginEvent.putItem item.toNat e).settle = s.beginEvent.putItem item.toNat e := settle_idle _ rfl
  rw [exec_renew tag item hr]
  simp only [State.request, hb, hs]

end

/-- Settles O32: RENEW by the outcome of its judgement. -/
theorem renewMovesTheDueDay : Obligations.RenewMovesTheDueDay := by
  intro s tag item hr held refused
  have fields : renewFields item.toNat s = be 6 item.toNat ++ be 2 held.1 ++ be 1 held.2 := by
    simp only [renewFields, held]
    cases s.item item.toNat with
    | none => rfl
    | some e =>
      obtain ⟨bin, category, state⟩ := e
      cases state with
      | lent l => rfl
      | requested n => rfl
      | inhouse l => rfl
      | returned l d => rfl
  have refuse {r : Reason} (h : s.judgeRenew item.toNat = .inr r) : refused r := by
    simp only [refused, ← fields]
    exact exec_renew_refused tag hr h
  refine ⟨fun h0 => refuse (State.judgeRenew_zero h0), fun h0 hi => refuse (State.judgeRenew_unknown h0 hi),
    fun e h0 hi hw => refuse (State.judgeRenew_notLent h0 hi hw), ?_⟩
  intro e l h0 hi hl c due
  have judged := State.judgeRenew_lent h0 hi hl
  refine ⟨fun hc => refuse ?notLendable, fun hc hn => refuse ?renewLimit, fun hc hn hd => refuse ?noExtension,
    fun hc hn hd => ?granted⟩
  case notLendable => rw [judged, if_pos hc]
  case renewLimit => rw [judged, if_neg (not_not.2 hc), if_pos hn]
  case noExtension => rw [judged, if_neg (not_not.2 hc), if_neg (Nat.not_le.2 hn), if_pos hd]
  case granted =>
    rw [if_neg (not_not.2 hc), if_neg (Nat.not_le.2 hn), if_neg (Nat.not_le.2 hd)] at judged
    refine ⟨_, ?_, (State.putItem_item s.beginEvent item.toNat · _), rfl⟩
    rw [exec_renew_granted tag hr judged, renewFields_lent ((State.putItem_item ..).trans (if_pos rfl)) rfl]

/-! ## Verdicts -/

/-- A VERDICT to an address: the report's tag, ACCEPT or REFUSE, the reason and the due day (R132). -/
def verdictTo (a tag : Nat) (r : Option Reason) (due : Nat) : Queued :=
  { telegram := { dest := a, src := 126, kind := 30, tag := 0
                  body := be 2 tag ++ be 1 (if r = none then 0 else 1) ++ be 1 (reasonCode r) ++ be 2 due }
    cls := .kept }

/-- A VERDICT goes to the station's address (R132). -/
theorem State.sendVerdict_eq {s : State} {st a : Nat} (ha : s.stationAddress st = some a) (tag : Nat)
    (r : Option Reason) (due : Nat) : s.sendVerdict st tag r due = s.sendDown (verdictTo a tag r due) := by
  rw [State.sendVerdict, ha]
  cases r <;> rfl

/-! ## The tests of ITEM_OUT -/

section
variable {s : State} {st tag t n : Nat} {e : Item}

/-- An order's patron is the one that it names (R131). -/
theorem State.patronOf_eq {o : Order} (h : s.order n = some o) : s.patronOf n = o.patron := by
  simp only [State.patronOf, h]

/-- The first two tests of R131: the entry is REQUESTED for the order that owns the station, and its home is the bin
at the window. -/
theorem State.requestedAt_eq_some_iff : s.requestedAt st t = some (e, n) ↔
    s.item t = some e ∧ e.state = .requested n ∧ (s.station st).owner = some n ∧
      ∃ l, (s.station st).window = some l ∧ l.bin = e.bin := by
  unfold State.requestedAt
  split
  · next e' l n' hi hw ho =>
    rw [hi, hw, ho]
    constructor
    · intro h
      split at h
      · next hreq =>
        obtain ⟨rfl, rfl⟩ : e' = e ∧ n' = n := by simpa using h
        exact ⟨rfl, hreq.1, rfl, l, rfl, hreq.2.symm⟩
      · cases h
    · rintro ⟨⟨⟩, hs, ⟨⟩, l', ⟨⟩, hb⟩
      rw [if_pos ⟨hs, hb.symm⟩]
  · next none_missing =>
    constructor
    · intro h; cases h
    · rintro ⟨hi, -, ho, l, hw, -⟩
      exact absurd ho (none_missing _ _ _ hi hw)

/-- The loan that an accepted item becomes, with the due day of R131: of today and the period where the class is
LOANABLE, today where it is INHOUSE_ONLY. -/
def State.loanToday (s : State) (category : Nat) : Loan :=
  { lendDay := s.loans.today
    dueDay := if (s.lendClass category).cls = .loanable then s.dueDay (s.lendClass category).period else s.loans.today
    renewals := 0 }

/-- An item of a class that is lent becomes LENT or INHOUSE (R131). -/
theorem State.newLoan_of_lends {c : Nat} (h : (s.lendClass c).cls ≠ .notLendable) :
    s.newLoan c = some
      (if (s.lendClass c).cls = .loanable then .lent (s.loanToday c) else .inhouse (s.loanToday c)) := by
  cases hc : (s.lendClass c).cls with
  | loanable => simp [State.newLoan, State.loanToday, hc]
  | inhouseOnly => simp [State.newLoan, State.loanToday, hc]
  | notLendable => exact absurd hc h

/-- An item of a class that is not lent becomes none (R131). -/
theorem State.newLoan_of_notLendable {c : Nat} (h : (s.lendClass c).cls = .notLendable) : s.newLoan c = none := by
  simp only [State.newLoan, h]

theorem State.takeItemOut_unfit (hk : (s.station st).kind ≠ .pick) :
    s.takeItemOut st tag t = s.sendVerdict st tag (some .stationUnfit) 0 := if_pos hk

theorem State.takeItemOut_notRequested (hk : (s.station st).kind = .pick) (hq : s.requestedAt st t = none) :
    s.takeItemOut st tag t = s.sendVerdict st tag (some .notRequested) 0 := by
  simp [State.takeItemOut, hk, hq]

theorem State.takeItemOut_notLendable (hk : (s.station st).kind = .pick) (hq : s.requestedAt st t = some (e, n))
    (hl : s.newLoan e.category = none) :
    s.takeItemOut st tag t = s.sendVerdict st tag (some .notLendable) 0 := by
  simp [State.takeItemOut, hk, hq, hl]

theorem State.takeItemOut_accepted {loan : ItemState} (hk : (s.station st).kind = .pick)
    (hq : s.requestedAt st t = some (e, n)) (hl : s.newLoan e.category = some loan) :
    s.takeItemOut st tag t = s.lend st tag t n e loan := by
  simp [State.takeItemOut, hk, hq, hl]

end

/-! ## An item lent -/

/-- The order of a number counts one more item taken, and no other does (R95). -/
theorem State.countTaken_order (s : State) (n k : Nat) :
    (s.countTaken n).order k = (s.order k).map fun o => if k = n then { o with taken := o.taken + 1 } else o := by
  rw [State.countTaken, State.modOrder_order s n k _ (by intro o; rfl)]
  cases h : s.order k with
  | none => rfl
  | some o => simp only [Option.map_some, s.order_number k o h]

/-- An item lent: the entry is written, the order counts it, NOTICE LENT and VERDICT ACCEPT are sent (R131, R132). -/
theorem State.lend_eq {s : State} {st a : Nat} {state : ItemState} {l : Loan} (ha : s.stationAddress st = some a)
    (hl : state.loan = some l) (tag t n : Nat) (e : Item) :
    s.lend st tag t n e state =
      (((s.putItem t { e with state }).countTaken n).notice (.lent n (s.patronOf n) t state.word l.dueDay)).sendDown
        (verdictTo a tag none l.dueDay) := by
  simp only [State.lend, hl]
  rw [State.sendVerdict_eq (a := a)]
  exact ha

/-! ## ITEM_OUT -/

@[simp] theorem State.beginEvent_stationAddress (s : State) (st : Nat) :
    s.beginEvent.stationAddress st = s.stationAddress st := rfl

section
variable {s : State} {st : Fin 24} {item : BitVec 48} {a : Nat} (tag : BitVec 16)

/-- ITEM_OUT of a station without an address changes nothing (R8). -/
theorem exec_itemOut_unaddressed (hr : s.running) (ha : s.stationAddress st = none) :
    exec (.itemOut st tag item) s = .next (s.closeEvent s.beginEvent none) := by
  refine (live_running _ hr).trans ?_
  have hb : ¬ (s.beginEvent.stationAddress st).isSome := by simp [ha]
  rw [State.event, if_neg hb, settle_beginEvent]

/-- ITEM_OUT of a station with an address is taken, and where that owes no test the event closes with what it
came to. -/
theorem exec_itemOut_taken {u : State} (hr : s.running) (ha : s.stationAddress st = some a)
    (h : s.beginEvent.takeItemOut st tag.toNat item.toNat = u) (hw : u.work = u.work.sends) :
    exec (.itemOut st tag item) s = .next (s.closeEvent u none) := by
  refine (live_running _ hr).trans ?_
  have hb : (s.beginEvent.stationAddress st).isSome := by simp [ha]
  rw [State.event, if_pos hb, h, settle_idle u hw]

/-- ITEM_OUT that a test refuses sends its VERDICT and changes nothing else (R131, R132). -/
theorem exec_itemOut_refused {r : Reason} (hr : s.running) (ha : s.stationAddress st = some a)
    (h : s.beginEvent.takeItemOut st tag.toNat item.toNat = s.beginEvent.sendVerdict st tag.toNat (some r) 0) :
    exec (.itemOut st tag item) s = .next (s.closeEvent
      { s with work := { Work.empty with down := [verdictTo a tag.toNat (some r) 0] } } none) :=
  exec_itemOut_taken tag hr ha (h.trans (State.sendVerdict_eq (s := s.beginEvent) ha _ _ _)) rfl

end

/-- Settles O35: ITEM_OUT by its tests in order. -/
theorem itemOutLends : Obligations.ItemOutLends := by
  refine ⟨fun s n o => State.patronOf_eq, ?_⟩
  intro s st tag item hr c t w verdict refused requested
  refine ⟨exec_itemOut_unaddressed tag hr, fun a ha => ?_⟩
  have found {e : Item} {n : Nat} : s.beginEvent.requestedAt st t = some (e, n) ↔ requested e n :=
    State.requestedAt_eq_some_iff
  have refuse {r : Reason}
      (h : s.beginEvent.takeItemOut st tag.toNat t = s.beginEvent.sendVerdict st tag.toNat (some r) 0) :
      refused a r := exec_itemOut_refused tag hr ha h
  refine ⟨fun hk => refuse (State.takeItemOut_unfit hk), fun hk hno => ?notRequested, ?_⟩
  case notRequested =>
    refine refuse (State.takeItemOut_notRequested hk ?_)
    rw [Option.eq_none_iff_forall_ne_some]
    exact fun p hp => hno ⟨p.1, p.2, found.1 hp⟩
  intro e n hk hreq cl due loan state
  refine ⟨fun hc => ?notLendable, fun hc => ?accepted⟩
  case notLendable =>
    exact refuse (State.takeItemOut_notLendable hk (found.2 hreq) (State.newLoan_of_notLendable hc))
  case accepted =>
    have hloan : state.loan = some loan := by
      simp only [state]
      split <;> rfl
    have accepts := State.takeItemOut_accepted (s := s.beginEvent) (tag := tag.toNat) hk (found.2 hreq)
      (State.newLoan_of_lends hc)
    have htake := accepts.trans (State.lend_eq (s := s.beginEvent) ha hloan tag.toNat t n e)
    exact ⟨_, exec_itemOut_taken tag hr ha htake rfl, (State.putItem_item s.beginEvent t · _),
      State.countTaken_order (s.beginEvent.putItem t { e with state }) n, rfl⟩

end Sys2Proof.Machine
end

section
/-! The Return Unit: the statement on ITEM_IN (R140, R141) and the one on INTO_BIN (R148). -/

namespace Sys2Proof.Machine

/-! ## The reports of a station -/

/-- A report of a station is taken by `body` where the station has an address, and has no effect elsewhere (R8). -/
def State.stationReport (s : State) (st : Nat) (body : State → State) : Host.Outcome State Fault Refusal :=
  s.live (s.event fun u => if (u.stationAddress st).isSome then body u else u)

theorem exec_itemIn (st : Fin 24) (tag : BitVec 16) (item : BitVec 48) (s : State) :
    exec (.itemIn st tag item) s = s.stationReport st (·.takeItemIn st tag.toNat item.toNat) := rfl

theorem exec_intoBin (st : Fin 24) (tag : BitVec 16) (item : BitVec 48) (s : State) :
    exec (.intoBin st tag item) s = s.stationReport st (·.takeIntoBin st tag.toNat item.toNat) := rfl

/-- The address of a station depends on the address table alone (R8). -/
theorem State.stationAddress_of_link {s u : State} (h : u.link = s.link) (st : Nat) :
    u.stationAddress st = s.stationAddress st := by
  simp only [State.stationAddress, h]

section
variable {s : State} {st a : Nat} {body : State → State}

/-- A report of a station without an address changes nothing (R8). -/
theorem stationReport_unaddressed (hr : s.running) (ha : s.stationAddress st = none) :
    s.stationReport st body = .next (s.closeEvent s.beginEvent none) := by
  have hb : ¬ (s.beginEvent.stationAddress st).isSome := by simp [ha]
  rw [State.stationReport, live_running _ hr, State.event, if_neg hb, settle_beginEvent]

/-- A report of a station with an address is taken, and the event ends with what it came to (R8). -/
theorem stationReport_taken {u : State} (hr : s.running) (ha : s.stationAddress st = some a)
    (h : body s.beginEvent = u) : s.stationReport st body = .next (s.eventEnds u) := by
  have hb : (s.beginEvent.stationAddress st).isSome := by simp [ha]
  rw [State.stationReport, live_running _ hr, State.event, if_pos hb, h, State.eventEnds]

/-- A report that came to sends alone owes no test, and its event closes at once. -/
theorem stationReport_sends {up : List UpMsg} {down : List Queued} (hr : s.running)
    (ha : s.stationAddress st = some a)
    (h : body s.beginEvent = { s with work := { Work.empty with up, down } }) :
    s.stationReport st body = .next (s.closeEvent { s with work := { Work.empty with up, down } } none) := by
  rw [stationReport_taken hr ha h, State.eventEnds, settle_idle _ rfl]

end

/-- The bin table after a change of one bin record, if present. -/
def State.binsAfter (s : State) (b : Nat) (f : Bin → Bin) : Tab Bin :=
  match s.bin b with
  | some r => s.store.bins.put b (f r)
  | none => s.store.bins

/-- A change of a bin record changes the bin table and nothing else. -/
theorem State.modBin_eq (s : State) (b : Nat) (f : Bin → Bin) :
    s.modBin b f = { s with store := { s.store with bins := s.binsAfter b f } } := by
  unfold State.modBin State.binsAfter
  cases s.bin b with
  | none => rfl
  | some r => rfl

/-! ## The tests of ITEM_IN -/

section
variable {s : State} {st tag t : Nat} {e : Item} {l : Loan}

theorem State.takeItemIn_unfit (hk : (s.station st).kind ≠ .chute) :
    s.takeItemIn st tag t = s.sendVerdict st tag (some .stationUnfit) 0 := if_pos hk

theorem State.takeItemIn_unknown (hk : (s.station st).kind = .chute) (hi : s.item t = none) :
    s.takeItemIn st tag t = s.returnException st tag t .itemUnknown := by
  simp [State.takeItemIn, hk, hi]

/-- An item that is asked for, or staged already, is no return (R140). -/
theorem State.takeItemIn_busy (hk : (s.station st).kind = .chute) (hi : s.item t = some e)
    (hw : e.state.word = .requested ∨ e.state.word = .returned) :
    s.takeItemIn st tag t = s.returnException st tag t .itemBusy := by
  simp only [State.takeItemIn, hk, hi, ne_eq, not_true_eq_false, if_false]
  cases he : e.state with
  | requested n => rfl
  | returned l d => rfl
  | lent l => simp [he, ItemState.word] at hw
  | inhouse l => simp [he, ItemState.word] at hw

theorem State.takeItemIn_loan (hk : (s.station st).kind = .chute) (hi : s.item t = some e)
    (hl : e.state = .lent l ∨ e.state = .inhouse l) : s.takeItemIn st tag t = s.returnLoan st tag t e l := by
  obtain hl | hl := hl
  · simp [State.takeItemIn, hk, hi, hl]
  · simp [State.takeItemIn, hk, hi, hl]

/-- The staging list, or a bin's share of it, is at its bound (R139). -/
def State.stagingFull (s : State) (b : Nat) : Prop :=
  4096 ≤ s.returns.staging.length ∨ ∃ r, s.bin b = some r ∧ 64 ≤ r.staged

theorem State.stagingFull_iff (b : Nat) : s.stagingFull b ↔
    Config.stagingCapacity ≤ s.returns.staging.length ∨ Config.stagedMax ≤ s.stagedCount b := by
  have count : (∃ r, s.bin b = some r ∧ 64 ≤ r.staged) ↔ Config.stagedMax ≤ s.stagedCount b := by
    unfold State.stagedCount
    cases s.bin b with
    | none => simp [Config.stagedMax]
    | some r => simp [Config.stagedMax]
  exact or_congr Iff.rfl count

/-- The last two tests of R140. -/
theorem State.returnLoan_full (hf : s.stagingFull e.bin) :
    s.returnLoan st tag t e l = s.sendVerdict st tag (some .stagingFull) 0 := by
  rw [State.returnLoan]
  obtain hlen | hcount := (s.stagingFull_iff e.bin).1 hf
  · rw [if_pos hlen]
  · rw [if_pos hcount, ite_self]

theorem State.returnLoan_room (hf : ¬ s.stagingFull e.bin) :
    s.returnLoan st tag t e l = s.stageItem st tag t e l := by
  obtain ⟨hlen, hcount⟩ := not_or.1 (mt (s.stagingFull_iff e.bin).2 hf)
  rw [State.returnLoan, if_neg hlen, if_neg hcount]

end

/-! ## An item staged -/

section
variable (s : State) (st tag t : Nat) (e : Item) (l : Loan)

/-- An accepted ITEM_IN before Mode Control is told: the entry is RETURNED, listed, counted at its bin and in the open
list of its restore order, and NOTICE RETURNED is sent (R141, steps 1 to 4). -/
def State.stagedItem : State :=
  ((((s.putItem t { e with state := .returned l s.loans.today }).modReturns fun r =>
    { r with staging := r.staging ++ [{ item := t, bin := e.bin, scanDay := s.loans.today, age := 0 }] }).modBin e.bin
      fun r => { r with staged := r.staged + 1 }).extendList e.bin t).notice
        (.returned st t e.bin e.state.word l.dueDay s.loans.today)

@[simp] theorem State.extendList_item (b x : Nat) : (s.extendList b t).item x = s.item x := rfl

@[simp] theorem State.extendList_bin (b x : Nat) : (s.extendList b t).bin x = s.bin x := rfl

theorem State.stagedItem_link : (s.stagedItem st t e l).link = s.link := by
  simp [State.stagedItem, State.extendList]

theorem State.stagedItem_item (k : Nat) : (s.stagedItem st t e l).item k =
    if k = t then some { e with state := .returned l s.loans.today } else s.item k := by
  simp [State.stagedItem]

theorem State.stagedItem_bin (b : Nat) : (s.stagedItem st t e l).bin b =
    if b = e.bin then (s.bin b).map fun r => { r with staged := r.staged + 1 } else s.bin b := by
  simp only [State.stagedItem, State.notice_bin, State.extendList_bin, State.modBin_bin, State.modReturns_bin,
    State.putItem_bin]
  split
  · next hb => rw [hb]
  · rfl

/-- An order with the tag added to its open item list, where it restores the bin and that list is open (R147). -/
def Order.listing (b t : Nat) (o : Order) : Order :=
  if o.kind = .restore ∧ o.listOpen = true ∧ ∃ m ∈ o.members, m.bin = b then
    { o with members := o.members.map fun m => if m.bin = b then { m with items := m.items ++ [t] } else m }
  else o

theorem State.extendList_orders (b : Nat) :
    (s.extendList b t).desk.orders = s.desk.orders.mapVals (Order.listing b t) := by
  simp only [State.extendList, State.modDesk_desk, List.any_eq_true, decide_eq_true_eq]
  rfl

theorem State.stagedItem_orders :
    (s.stagedItem st t e l).desk.orders = s.desk.orders.mapVals (Order.listing e.bin t) := by
  simp [State.stagedItem, State.extendList_orders]

/-- What staging an item changes, and that it changes nothing else (R141). -/
theorem State.stagedItem_rest : s.stagedItem st t e l = { s with
    loans := { s.loans with items := (s.stagedItem st t e l).loans.items }
    store := { s.store with bins := (s.stagedItem st t e l).store.bins }
    desk := { s.desk with orders := (s.stagedItem st t e l).desk.orders }
    returns := { s.returns with
      staging := s.returns.staging ++ [{ item := t, bin := e.bin, scanDay := s.loans.today, age := 0 }] }
    work := { s.work with
      up := s.work.up ++ [.notice (.returned st t e.bin e.state.word l.dueDay s.loans.today)] } } := by
  simp only [State.stagedItem, State.modBin_eq]
  rfl

variable {s st} in
/-- The whole of an accepted ITEM_IN: the item is staged, VERDICT ACCEPT is sent, the length of the list is handed to
Mode Control, and a creation attempt is owed (R141). -/
theorem State.stageItem_eq {a : Nat} (ha : s.stationAddress st = some a) : s.stageItem st tag t e l =
    (((s.stagedItem st t e l).sendDown (verdictTo a tag none l.dueDay)).handStaging).oweRestore (.bin e.bin) := by
  rw [← State.sendVerdict_eq ((State.stationAddress_of_link (s.stagedItem_link st t e l) st).trans ha)]
  rfl

end

/-! ## ITEM_IN -/

section
variable {s : State} {st a tag t : Nat} {r : Reason}

/-- At the beginning of an event, a VERDICT alone. -/
theorem State.beginEvent_sendVerdict (ha : s.stationAddress st = some a) :
    s.beginEvent.sendVerdict st tag (some r) 0 =
      { s with work := { Work.empty with up := [], down := [verdictTo a tag (some r) 0] } } :=
  State.sendVerdict_eq (s := s.beginEvent) ha ..

/-- At the beginning of an event, NOTICE EXCEPTION and the VERDICT (R140). -/
theorem State.beginEvent_returnException (ha : s.stationAddress st = some a) :
    s.beginEvent.returnException st tag t r =
      { s with work := { Work.empty with
        up := [.notice (.exception st t r)], down := [verdictTo a tag (some r) 0] } } :=
  State.sendVerdict_eq (s := s.beginEvent.notice (.exception st t r)) ha ..

end

/-- Settles O36: ITEM_IN by its tests in order. -/
theorem itemInStages : Obligations.ItemInStages := by
  intro s st tag item hr c t verdict refused exception
  refine ⟨stationReport_unaddressed hr, fun a ha => ?_⟩
  have refuse {r : Reason}
      (h : s.beginEvent.takeItemIn st tag.toNat t = s.beginEvent.sendVerdict st tag.toNat (some r) 0) :
      refused a r [] := stationReport_sends hr ha (h.trans (State.beginEvent_sendVerdict ha))
  have except {r : Reason}
      (h : s.beginEvent.takeItemIn st tag.toNat t = s.beginEvent.returnException st tag.toNat t r) :
      refused a r (exception r) := stationReport_sends hr ha (h.trans (State.beginEvent_returnException ha))
  refine ⟨fun hk => refuse (State.takeItemIn_unfit hk), fun hk hi => except (State.takeItemIn_unknown hk hi),
    fun e hk hi hw => except (State.takeItemIn_busy hk hi hw), ?_⟩
  intro e l hk hi hl full listed
  have isLoan := State.takeItemIn_loan (s := s.beginEvent) (tag := tag.toNat) hk hi hl
  refine ⟨fun hf => refuse (isLoan.trans (State.returnLoan_full hf)), fun hf => ?accepted⟩
  case accepted =>
    have hstage := (isLoan.trans (State.returnLoan_room hf)).trans
      (State.stageItem_eq (s := s.beginEvent) tag.toNat t e l ha)
    refine ⟨(s.beginEvent.stagedItem st t e l).sendDown (verdictTo a tag.toNat none l.dueDay),
      s.beginEvent.stagedItem_item st t e l, s.beginEvent.stagedItem_bin st t e l,
      s.beginEvent.stagedItem_orders st t e l, ?rest, ?ends⟩
    case rest =>
      exact congrArg (State.sendDown · (verdictTo a tag.toNat none l.dueDay))
        (s.beginEvent.stagedItem_rest st t e l)
    case ends => exact stationReport_taken hr ha hstage

/-! ## The tests of INTO_BIN -/

section
variable {s : State} {st tag t : Nat} {e : Item} {r : MemberRef}

/-- The second test of R148: the entry is RETURNED, its home is the bin at the window, and the member AT_WINDOW there
lists it. -/
theorem State.insertable_eq_some_iff : s.insertable st t = some (e, r) ↔
    s.item t = some e ∧ e.state.word = .returned ∧
      ∃ l m, (s.station st).window = some l ∧ l.bin = e.bin ∧ l.ref = r ∧ s.member r = some m ∧
        m.state = .atWindow ∧ t ∈ m.items := by
  unfold State.insertable
  constructor
  · intro h
    split at h
    · next e' l hi hw =>
      split at h
      · next m hm =>
        split at h
        · next hin =>
          obtain ⟨hat, hret, hbin, hlist⟩ := hin
          obtain ⟨rfl, rfl⟩ : e' = e ∧ l.ref = r := by simpa using h
          exact ⟨hi, hret, l, m, hw, hbin.symm, rfl, hm, hat, hlist⟩
        · cases h
      · cases h
    · cases h
  · rintro ⟨hi, hret, l, m, hw, hbin, rfl, hm, hat, hlist⟩
    simp [hi, hw, hm, hat, hret, hbin, hlist]

theorem State.takeIntoBin_unfit (hk : (s.station st).kind ≠ .reshelve) :
    s.takeIntoBin st tag t = s.sendVerdict st tag (some .stationUnfit) 0 := if_pos hk

theorem State.takeIntoBin_notStaged (hk : (s.station st).kind = .reshelve) (hi : s.insertable st t = none) :
    s.takeIntoBin st tag t = s.sendVerdict st tag (some .notStaged) 0 := by
  simp [State.takeIntoBin, hk, hi]

theorem State.takeIntoBin_accepted (hk : (s.station st).kind = .reshelve) (hi : s.insertable st t = some (e, r)) :
    s.takeIntoBin st tag t = s.restoreItem st tag t e r := by
  simp [State.takeIntoBin, hk, hi]

end

/-! ## An item back in its bin -/

section
variable (s : State) (st tag t : Nat) (e : Item) (r : MemberRef)

/-- An accepted INTO_BIN before Mode Control is told: the entry and its staging entry are gone, the bin's counts and
the order follow, and NOTICE RESTORED is sent (R38, R95, R148). -/
def State.restoredItem : State :=
  ((((s.removeItem t).modReturns fun x => { x with staging := x.staging.filter fun y => ¬ y.item = t }).modBin e.bin
    fun b => { b with staged := b.staged - 1 }).countTaken r.order).notice (.restored r.order t e.bin)

@[simp] theorem State.countTaken_item (n x : Nat) : (s.countTaken n).item x = s.item x := rfl

@[simp] theorem State.countTaken_bin (n x : Nat) : (s.countTaken n).bin x = s.bin x := rfl

theorem State.restoredItem_link : (s.restoredItem t e r).link = s.link := by
  simp [State.restoredItem, State.countTaken]

variable {s t e} in
/-- Removing a present entry strikes it and uncounts it at its home bin (R38). -/
theorem State.removeItem_eq (hi : s.item t = some e) :
    s.removeItem t = (s.delItem t).modBin e.bin fun b => { b with itemRefs := b.itemRefs - 1 } := by
  simp only [State.removeItem, hi]

theorem State.restoredItem_item (h : s.loans.items.wf) (k : Nat) :
    (s.restoredItem t e r).item k = if k = t then none else s.item k := by
  simp [State.restoredItem, s.removeItem_item t k h]

variable {s t e} in
theorem State.restoredItem_bin (hi : s.item t = some e) (b : Nat) : (s.restoredItem t e r).bin b =
    if b = e.bin then (s.bin b).map fun x => { x with itemRefs := x.itemRefs - 1, staged := x.staged - 1 }
    else s.bin b := by
  simp only [State.restoredItem, State.notice_bin, State.countTaken_bin, State.modBin_bin, State.modReturns_bin,
    State.removeItem_eq hi, State.delItem_bin]
  split
  · next hb => simp [hb, Function.comp_def]
  · rfl

theorem State.restoredItem_order (k : Nat) : (s.restoredItem t e r).order k =
    (s.order k).map fun o => if k = r.order then { o with taken := o.taken + 1 } else o := by
  simp [State.restoredItem, State.countTaken_order]

variable {s t e} in
/-- What putting an item back changes, and that it changes nothing else (R148). -/
theorem State.restoredItem_rest (hi : s.item t = some e) : s.restoredItem t e r = { s with
    loans := { s.loans with items := (s.restoredItem t e r).loans.items }
    store := { s.store with bins := (s.restoredItem t e r).store.bins }
    desk := { s.desk with orders := (s.restoredItem t e r).desk.orders }
    returns := { s.returns with staging := s.returns.staging.filter fun x => decide (x.item ≠ t) }
    work := { s.work with up := s.work.up ++ [.notice (.restored r.order t e.bin)] } } := by
  simp only [State.restoredItem, State.removeItem_eq hi, State.modBin_eq]
  rfl

variable {s st} in
/-- The whole of an accepted INTO_BIN: the item goes back, VERDICT ACCEPT is sent, and the length of the list is handed
to Mode Control (R148). -/
theorem State.restoreItem_eq {a : Nat} (ha : s.stationAddress st = some a) : s.restoreItem st tag t e r =
    ((s.restoredItem t e r).sendDown (verdictTo a tag none 0)).handStaging := by
  rw [← State.sendVerdict_eq ((State.stationAddress_of_link (s.restoredItem_link t e r) st).trans ha)]
  rfl

end

/-! ## INTO_BIN -/

/-- Settles O37: INTO_BIN by its tests in order. -/
theorem intoBinRestores : Obligations.IntoBinRestores := by
  intro s st tag item hr ht c t w verdict refused staged
  refine ⟨stationReport_unaddressed hr, fun a ha => ?_⟩
  have found {e : Item} {r : MemberRef} : s.beginEvent.insertable st t = some (e, r) ↔ staged e r :=
    State.insertable_eq_some_iff
  have refuse {r : Reason}
      (h : s.beginEvent.takeIntoBin st tag.toNat t = s.beginEvent.sendVerdict st tag.toNat (some r) 0) :
      refused a r := stationReport_sends hr ha (h.trans (State.beginEvent_sendVerdict ha))
  refine ⟨fun hk => refuse (State.takeIntoBin_unfit hk), fun hk hno => ?notStaged, fun e r hk hs => ?accepted⟩
  case notStaged =>
    refine refuse (State.takeIntoBin_notStaged hk ?_)
    rw [Option.eq_none_iff_forall_ne_some]
    exact fun p hp => hno ⟨p.1, p.2, found.1 hp⟩
  case accepted =>
    have hi : s.beginEvent.item t = some e := hs.1
    have hrestore := (State.takeIntoBin_accepted (s := s.beginEvent) (tag := tag.toNat) hk (found.2 hs)).trans
      (State.restoreItem_eq (s := s.beginEvent) tag.toNat t e r ha)
    refine ⟨(s.beginEvent.restoredItem t e r).sendDown (verdictTo a tag.toNat none 0),
      s.beginEvent.restoredItem_item t e r ht.items, State.restoredItem_bin r hi,
      s.beginEvent.restoredItem_order t e r, ?rest, ?ends⟩
    case rest =>
      exact congrArg (State.sendDown · (verdictTo a tag.toNat none 0)) (State.restoredItem_rest r hi)
    case ends => exact stationReport_taken hr ha hrestore

end Sys2Proof.Machine
end

section
/-! The kept output levels: what they assert (R170, R171, R180), that every command keeps them, and the statement on the
drive-enable outputs. -/

namespace Sys2Proof.Machine

/-! ## The levels that a state gives -/

theorem Aisle.configured_iff (r : Aisle) : r.configured = true ↔ 1 ≤ r.levels := decide_eq_true_iff

theorem ZoneState.drives_iff (z : ZoneState) : z.drives = true ↔ z = .clear ∨ z = .stopping ∨ z = .enabling := by
  cases z <;> simp [ZoneState.drives]

theorem Mode.ne_quiet_iff (m : Mode) : m ≠ .quiet ↔ m = .run ∨ m = .draining ∨ m = .waking := by
  cases m <;> simp

/-- The drive-enable level of an aisle by its zones and the mode (R170). -/
theorem State.driveLevel_iff (s : State) (a : Nat) : s.driveLevel a = true ↔
    (s.aisle a).configured = true ∧
      (∀ z ∈ (s.aisle a).zones,
        (s.zone z).state = .clear ∨ (s.zone z).state = .stopping ∨ (s.zone z).state = .enabling) ∧
      (s.mode.mode = .run ∨ s.mode.mode = .draining ∨ s.mode.mode = .waking) := by
  simp only [State.driveLevel, Bool.and_eq_true, List.all_eq_true, decide_eq_true_iff, ZoneState.drives_iff,
    Mode.ne_quiet_iff, and_assoc]

theorem State.shutterLevel_iff (s : State) (z : Nat) :
    s.shutterLevel z = true ↔ (s.zone z).state = .closing ∨ (s.zone z).state = .sealed := by
  unfold State.shutterLevel
  cases (s.zone z).state <;> simp

theorem State.beaconLevel_iff (s : State) : s.beaconLevel = true ↔ ∃ z, z < 8 ∧ (s.zone z).state ≠ .clear := by
  simp [State.beaconLevel, State.zoneClear, allZones]

theorem State.mem_outputLevels_drives (s : State) {a : Nat} (ha : a < 12) :
    a ∈ s.outputLevels.drives ↔ s.driveLevel a = true := by
  simp [State.outputLevels, allAisles, ha]

theorem State.mem_outputLevels_shutters (s : State) {z : Nat} (hz : z < 8) :
    z ∈ s.outputLevels.shutters ↔ s.shutterLevel z = true := by
  simp [State.outputLevels, allZones, hz]

/-! ## The levels that are kept -/

/-- The part of `State.outputsFollow` that every command keeps whatever form the tables have. After RESTART nothing is
claimed: there the levels are those given only where the zone table is in canonical form, and no command leads from
there to a running part but by way of a reset period. -/
structure State.outputsHeld (s : State) : Prop where
  running : s.running → s.outputs = s.outputLevels
  resetting : s.resets.phase = .resetting → s.outputs.drives = []

theorem State.outputsFollow.held {s : State} (h : s.outputsFollow) : s.outputsHeld where
  running hr := by simpa only [State.outputsFollow, hr] using h
  resetting hp := by simpa only [State.outputsFollow, hp] using h

namespace State.outputsHeld

variable {s t : State}

/-- The kept levels and those given are read off the phase, the outputs, the zones, the mode and the aisles only. -/
theorem congr (h : s.outputsHeld) (hp : t.resets.phase = s.resets.phase) (ho : t.outputs = s.outputs)
    (hz : t.zones = s.zones) (hm : t.mode.mode = s.mode.mode) (ha : t.store.aisles = s.store.aisles) :
    t.outputsHeld where
  running hr := by rw [ho, outputLevels_congr s t hz hm ha, h.running (hp.symm.trans hr)]
  resetting hr := by rw [ho, h.resetting (hp.symm.trans hr)]

theorem handed (h : s.outputsHeld) (k : Handed s t) : t.outputsHeld :=
  h.congr (congrArg ResetControl.phase k.resets) k.outputs k.zones (congrArg ModeControl.mode k.mode)
    (congrArg StorageMap.aisles k.store)

/-- An event keeps the levels of a running part where nothing they are read off has changed, and takes them anew
otherwise, the end of a reset period among this. -/
theorem closeEvent (h : s.outputsHeld) (t : State) (a : Option Answer) : (s.closeEvent t a).outputsHeld where
  running _ := by
    rw [closeEvent_outputs, outputLevels_congr t (s.closeEvent t a) (by simp) (by simp) (by simp), outputsAfter]
    split
    · next same =>
      obtain ⟨hz, hm, ha, hr⟩ := same
      rw [outputLevels_congr s t hz hm ha, h.running hr]
    · rfl
  resetting hp := by simp at hp

/-- The beginning of a reset period releases every drive (R170). -/
theorem beginReset (s : State) (r : ResetRecord) (ending : Option Nat) : (s.beginReset r ending).outputsHeld where
  running hr := by simp [State.running] at hr
  resetting _ := rfl

theorem suspend (s : State) : s.suspend.outputsHeld where
  running hr := by simp [State.running] at hr
  resetting hp := by simp at hp

theorem restart (tag : BitVec 16) (h : s.outputsHeld) (he : execRestart tag s = .next t) : t.outputsHeld := by
  refine live_keeps State.outputsHeld _ _ _ h ?_ he
  split
  · exact suspend _
  · exact beginReset _ _ _

theorem pinReset (h : s.outputsHeld) (he : execPinReset s = .next t) : t.outputsHeld := by
  unfold execPinReset at he
  split at he
  · exact next_keeps _ _ _ h he
  · cases hp : s.resets.phase with
    | unpowered =>
      simp only [hp] at he
      refine next_keeps _ _ _ ?_ he
      exact h.congr rfl rfl rfl rfl rfl
    | running | restarting | resetting =>
      simp only [hp] at he
      exact next_keeps _ _ _ (beginReset _ _ _) he

theorem resetLineRelease (h : s.outputsHeld) (he : execResetLineRelease s = .next t) : t.outputsHeld := by
  unfold execResetLineRelease at he
  split at he
  · refine next_keeps _ _ _ ?_ he
    exact h.congr rfl rfl rfl rfl rfl
  · exact next_keeps _ _ _ h he

theorem commandReset (h : s.outputsHeld) (he : execCommandReset s = .next t) : t.outputsHeld := by
  unfold execCommandReset at he
  split at he
  · exact next_keeps _ _ _ (beginReset _ _ _) he
  all_goals exact next_keeps _ _ _ h he

theorem resetPeriodEnd (h : s.outputsHeld) (he : execResetPeriodEnd s = .next t) : t.outputsHeld := by
  unfold execResetPeriodEnd at he
  split at he
  · refine next_keeps _ _ _ (closeEvent ?_ _ _) he
    exact h.handed (modPorts_handed _ _)
  · exact next_keeps _ _ _ h he

/-- A state without supply asserts no level, and so none is asserted when the supply returns (R192). -/
theorem powerOnReset (he : execPowerOnReset s = .next t) : t.outputsHeld := by
  refine next_keeps _ _ _ ⟨fun hr => ?_, fun _ => rfl⟩ he
  cases (hr : Phase.resetting = .running)

theorem lossOfSupply (he : execLossOfSupply s = .next t) : t.outputsHeld := by
  refine next_keeps _ _ _ ⟨fun hr => ?_, fun hp => ?_⟩ he
  · cases (hr : Phase.unpowered = .running)
  · cases (hp : Phase.unpowered = .resetting)

/-- Events and the course of resets keep the levels. -/
theorem course : Course State.outputsHeld where
  close _ t a h := h.closeEvent t a
  raise _ _ h := h.congr rfl rfl rfl rfl rfl
  up _ x h := h.handed (handUp_handed x _)
  down _ x h := h.handed (handDown_handed x _)
  ports _ f h _ := h.handed (modPorts_handed _ f)
  restart tag _ _ h := h.restart tag
  wiring _ _ _ h := h.congr rfl rfl rfl rfl rfl
  pin _ _ h := h.pinReset
  release _ _ h := h.resetLineRelease
  command _ _ h := h.commandReset
  period _ _ h := h.resetPeriodEnd
  power _ _ _ := powerOnReset
  loss _ _ _ := lossOfSupply

theorem exec {c : Instr} (h : s.outputsHeld) (he : Machine.exec c s = .next t) : t.outputsHeld :=
  exec_keeps _ course c s t h he

/-! ## What the kept levels assert -/

theorem mem_drives_iff (h : s.outputsHeld) (hr : s.running) {a : Nat} (ha : a < 12) :
    a ∈ s.outputs.drives ↔ s.driveLevel a = true := by
  rw [h.running hr, s.mem_outputLevels_drives ha]

theorem mem_shutters_iff (h : s.outputsHeld) (hr : s.running) {z : Nat} (hz : z < 8) :
    z ∈ s.outputs.shutters ↔ s.shutterLevel z = true := by
  rw [h.running hr, s.mem_outputLevels_shutters hz]

theorem beacon_eq (h : s.outputsHeld) (hr : s.running) : s.outputs.beacon = s.beaconLevel :=
  congrArg Outputs.beacon (h.running hr)

end State.outputsHeld

/-- Settles O10: every command keeps the levels that the zones, the mode and the aisles give. -/
theorem driveEnableFollowsZonesAndMode : Obligations.DriveEnableFollowsZonesAndMode := by
  refine ⟨Aisle.configured_iff, State.driveLevel_iff, fun c s t _ hs he => ?_⟩
  have held : t.outputsHeld := hs.held.exec he
  refine ⟨fun hr a ha => ?drives, fun hr z hz => ?shutters, fun hr => ?beacon, held.resetting⟩
  case drives => exact (held.mem_drives_iff hr ha).trans (t.driveLevel_iff a)
  case shutters => exact (held.mem_shutters_iff hr hz).trans (t.shutterLevel_iff z)
  case beacon => rw [held.beacon_eq hr, t.beaconLevel_iff]

end Sys2Proof.Machine
end

section
/-! The step and the queue of commands, the bounds of the send queues, and the state at reset. -/

namespace Sys2Proof.Machine

/-! ## The step -/

/-- Settles O1, by the arm of `step` for a queue that is not empty. -/
theorem stepTakesFrontCommand : Obligations.StepTakesFrontCommand := by
  intro c rest s h
  simp only [step, h]

/-- A step on an empty queue takes the due command, or lets a millisecond pass. -/
theorem step_idle {s : State} (h : s.pending = []) :
    step s = match s.dueCommand with
      | some c => exec c s
      | none => .next s.tick := by
  unfold step
  split
  · next hc => rw [h] at hc; cases hc
  · rfl

/-! ## The first due timer -/

/-- A timer's expiry command, if the timer is due. -/
def State.dueOf (s : State) (p : Option Nat × Instr) : Option Instr := if s.isDue p.1 then some p.2 else none

theorem State.isDue_iff (s : State) (t : Option Nat) : s.isDue t = true ↔ ∃ e, t = some e ∧ e ≤ s.now := by
  cases t <;> simp [State.isDue]

theorem State.dueOf_of_due {s : State} {p : Option Nat × Instr} (h : ∃ e, p.1 = some e ∧ e ≤ s.now) :
    s.dueOf p = some p.2 := if_pos ((s.isDue_iff p.1).mpr h)

theorem State.dueOf_of_not_due {s : State} {p : Option Nat × Instr} (h : ¬ ∃ e, p.1 = some e ∧ e ≤ s.now) :
    s.dueOf p = none := if_neg fun hd => h ((s.isDue_iff p.1).mp hd)

/-- The timers of a lift: the answer timer, then the carry deadlines in order of assignment. -/
def State.liftTimers (s : State) (l : Fin 6) : List (Option Nat × Instr) :=
  ((s.lift l).answerTimer, .answerTimerExpiry l) ::
    (s.lift l).carries.map fun c => (c.timer, .carryDeadlineExpiry l (BitVec.ofNat 16 c.tag))

/-- The timers of a zone: the debounce timer, then the timer of its state (R154). -/
def State.zoneTimers (s : State) (z : Fin 8) : List (Option Nat × Instr) :=
  ((s.zone z).debounceTimer, .alarmDebounceExpiry z) ::
    (zoneExpiry z (s.zone z).state).toList.map fun c => ((s.zone z).timer, c)

/-- The timer of the mode (R187, R190). -/
def State.modeTimers (s : State) : List (Option Nat × Instr) :=
  (modeExpiry s.mode.mode).toList.map fun c => (s.mode.timer, c)

/-- Every timer of the part with the command of its expiry, in the order of log entry 5. -/
def State.timers (s : State) : List (Option Nat × Instr) :=
  ((List.finRange 12).map fun (a : Fin 12) => ((s.crane a).flight.bind (·.timer), .moveDeadlineExpiry a)) ++
    (s.desk.orders.map fun p => (p.2.gatherTimer, .gatherTimerExpiry (BitVec.ofNat 16 p.2.number))) ++
    [(s.desk.holdTimer, .holdRepeatExpiry)] ++ (List.finRange 6).flatMap s.liftTimers ++
    [(s.returns.minuteTimer, .minuteTimerExpiry)] ++ (List.finRange 8).flatMap s.zoneTimers ++
    ((List.finRange 48).map fun (n : Fin 48) => ((s.line n).keyTimer, .callKeyDebounceExpiry n)) ++ s.modeTimers

theorem State.dueMove_eq (s : State) (a : Fin 12) :
    s.dueMove a = s.dueOf ((s.crane a).flight.bind (·.timer), .moveDeadlineExpiry a) := by
  unfold State.dueMove State.dueOf
  cases (s.crane a).flight <;> rfl

theorem State.findSome_carries (s : State) (l : Fin 6) (cs : List Carry) :
    (cs.find? fun c => s.isDue c.timer).map (fun c => Instr.carryDeadlineExpiry l (BitVec.ofNat 16 c.tag)) =
      (cs.map fun c => (c.timer, Instr.carryDeadlineExpiry l (BitVec.ofNat 16 c.tag))).findSome? s.dueOf := by
  induction cs with
  | nil => rfl
  | cons c cs ih => cases hc : s.isDue c.timer <;> simp [State.dueOf, hc, ih]

theorem State.dueLift_eq (s : State) (l : Fin 6) : s.dueLift l = (s.liftTimers l).findSome? s.dueOf := by
  unfold State.dueLift State.liftTimers
  rw [State.findSome_carries, List.findSome?_cons]
  cases hd : s.isDue (s.lift l).answerTimer <;> simp [State.dueOf, hd]

theorem State.dueZone_eq (s : State) (z : Fin 8) : s.dueZone z = (s.zoneTimers z).findSome? s.dueOf := by
  unfold State.dueZone State.zoneTimers
  cases hd : s.isDue (s.zone z).debounceTimer <;> cases ht : s.isDue (s.zone z).timer <;>
    cases zoneExpiry z (s.zone z).state <;> simp [State.dueOf, hd, ht]

theorem State.dueMode_eq (s : State) :
    (if s.isDue s.mode.timer then modeExpiry s.mode.mode else none) = s.modeTimers.findSome? s.dueOf := by
  unfold State.modeTimers
  cases ht : s.isDue s.mode.timer <;> cases modeExpiry s.mode.mode <;> simp [State.dueOf, ht]

theorem findSome?_flatMap {α β γ : Type} (g : α → List β) (f : β → Option γ) (l : List α) :
    (l.flatMap g).findSome? f = l.findSome? fun x => (g x).findSome? f := by
  induction l with
  | nil => rfl
  | cons x l ih =>
    rw [List.flatMap_cons, List.findSome?_append, List.findSome?_cons, ih]
    cases (g x).findSome? f <;> rfl

/-- The due expiry is that of the first timer which is due. -/
theorem State.dueExpiry_eq (s : State) : s.dueExpiry = s.timers.findSome? s.dueOf := by
  have move : s.dueMove = fun a : Fin 12 => s.dueOf ((s.crane a).flight.bind (·.timer), .moveDeadlineExpiry a) :=
    funext s.dueMove_eq
  have lift : s.dueLift = fun l => (s.liftTimers l).findSome? s.dueOf := funext s.dueLift_eq
  have zone : s.dueZone = fun z => (s.zoneTimers z).findSome? s.dueOf := funext s.dueZone_eq
  unfold State.dueExpiry State.timers
  rw [s.dueMode_eq, move, lift, zone]
  simp only [findSome?_flatMap, List.findSome?_append, List.findSome?_map, Function.comp_def, Option.orElse_eq_or,
    List.findSome?_cons, List.findSome?_nil, State.dueOf, Option.or_assoc]
  cases s.isDue s.desk.holdTimer <;> cases s.isDue s.returns.minuteTimer <;> rfl

theorem State.dueCommand_running {s : State} (hr : s.running) : s.dueCommand = s.timers.findSome? s.dueOf := by
  rw [State.dueCommand, hr, s.dueExpiry_eq]

/-- Settles O2: the arms of `step` on an empty queue, and the first due timer of the list of all timers. -/
theorem stepOnEmptyQueueTicks : Obligations.StepOnEmptyQueueTicks := by
  refine ⟨fun s h => ⟨fun hd => ?_, fun c hd => ?_⟩, fun s => ?_⟩
  · rw [step_idle h, hd]; rfl
  · rw [step_idle h, hd]
  intro moves gathers lifts own zones keys modes timers due
  have owned : ∀ z, own z = zoneExpiry z (s.zone z).state := fun z => by
    simp only [own]; cases (s.zone z).state <;> rfl
  have all : timers = s.timers := by
    have hm : modes = s.modeTimers := by
      simp only [modes, State.modeTimers]; cases s.mode.mode <;> rfl
    have hz : zones = (List.finRange 8).flatMap s.zoneTimers := by
      simp only [zones, owned]; rfl
    simp only [timers, hm, hz]; rfl
  rw [all]
  refine ⟨fun hr hn => ?_, fun hr l p r hl hp hq => ?_, fun hp => ⟨fun hd => ?_, fun hd => ?_⟩, fun hp => ?_⟩
  · rw [State.dueCommand_running hr]
    exact List.findSome?_eq_none_iff.mpr fun p hp => State.dueOf_of_not_due (hn p hp)
  · rw [State.dueCommand_running hr, hl]
    exact List.findSome?_eq_some_iff.mpr ⟨l, p, r, rfl, State.dueOf_of_due hp, fun q h => State.dueOf_of_not_due (hq q h)⟩
  · rw [State.dueCommand, hp]; exact if_pos ((s.isDue_iff _).mpr hd)
  · rw [State.dueCommand, hp]; exact if_neg fun h => hd ((s.isDue_iff _).mp h)
  · rcases hp with hp | hp <;> rw [State.dueCommand, hp]

/-! ## Every command -/

theorem exec_next (c : Instr) (s : State) : ∃ t, exec c s = .next t := by
  cases c
  case frameArrival p f => exact arrive_next p f s
  case itemWrite tag first es => exact runTaken_next (.itemWrite tag first es) s
  case transmissionBegins p =>
    show ∃ t, execTransmissionBegins p s = .next t
    unfold execTransmissionBegins; split <;> exact next_next _
  case lineInputChange n w =>
    show ∃ t, execLineInputChange n w s = .next t
    unfold execLineInputChange; split <;> exact next_next _
  case commandReset =>
    show ∃ t, execCommandReset s = .next t
    unfold execCommandReset; split <;> exact next_next _
  case pinReset =>
    show ∃ t, execPinReset s = .next t
    unfold execPinReset; repeat' split
    all_goals exact next_next _
  case resetLineRelease =>
    show ∃ t, execResetLineRelease s = .next t
    unfold execResetLineRelease; split <;> exact next_next _
  case resetPeriodEnd =>
    show ∃ t, execResetPeriodEnd s = .next t
    unfold execResetPeriodEnd; split <;> exact next_next _
  all_goals first | exact live_next _ _ | exact write_next _ _ _ _ _ _ | exact next_next _

theorem resumeEvent_pending (s : State) : s.resumeEvent.pending = s.pending := by
  rw [State.resumeEvent, State.event, closeEvent_pending]
  rfl

/-- A property that is read off a record which hand-overs, closings of events and the course of resets leave alone, such
as the commands that wait, is kept by every command. -/
theorem pending_course (p : List Instr) : Course fun s => s.pending = p where
  close s t a h := (closeEvent_pending s t a).trans h
  raise _ _ h := h
  up s x h := (handUp_handed x s).pending.trans h
  down s x h := (handDown_handed x s).pending.trans h
  ports _ _ h _ := h
  wiring _ _ _ h := h
  restart tag s t h he := by
    refine live_keeps (fun s => s.pending = p) _ _ _ h ?_ he
    have answered : (s.answerRestart tag).pending = p := by
      rw [State.answerRestart, State.request, closeEvent_pending, h]
    split
    · exact (State.suspend_pending _).trans answered
    · exact (State.beginReset_pending _ _ _).trans ((State.suspend_pending _).trans answered)
  pin s t h he := by
    unfold execPinReset at he
    split at he
    · cases he; exact h
    · split at he <;> cases he <;> exact h
  release s t h he := by
    unfold execResetLineRelease at he
    split at he <;> cases he <;> exact h
  command s t h he := by
    unfold execCommandReset at he
    split at he <;> cases he <;> exact h
  period s t h he := by
    unfold execResetPeriodEnd at he
    split at he
    · exact next_keeps (fun s : State => s.pending = p) s.resumeEvent t ((resumeEvent_pending s).trans h) he
    · cases he; exact h
  power s t h he := by
    refine next_keeps (fun s : State => s.pending = p) _ _ ?_ he
    exact h
  loss s t h he := by
    refine next_keeps (fun s : State => s.pending = p) _ _ ?_ he
    exact h

/-- Settles O3: every arm of `exec` answers a next state, and none writes the queue of waiting commands. -/
theorem everyCommandAnswersNext : Obligations.EveryCommandAnswersNext := by
  intro c s
  obtain ⟨t, ht⟩ := exec_next c s
  exact ⟨t, ht, exec_keeps _ (pending_course s.pending) c s t rfl ht⟩

/-- Settles O4: the commands that need a running part are those whose meaning is `live`, and the arrival of a frame. -/
theorem nothingTakenOutsideRunning : Obligations.NothingTakenOutsideRunning := by
  intro c s hs hn
  cases c
  case frameArrival p f => exact if_neg hs
  case itemWrite tag first es =>
    show execItemWrite tag first es s = .next s
    unfold execItemWrite; split <;> exact live_not _ _ hs
  case transmissionBegins | lineInputChange | powerOnReset | pinReset | resetLineRelease | commandReset | resetPeriodEnd
      | lossOfSupply => cases hn
  all_goals exact live_not _ _ hs

/-! ## The bounds of the send queues -/

theorem suspend_bounded {s : State} (h : s.queuesBounded) : s.suspend.queuesBounded := ⟨h.1, Nat.zero_le _⟩

theorem emptied_bounded {s : State} (hu : s.ports.uQueue = []) (hd : s.ports.dQueue = []) : s.queuesBounded := by
  unfold State.queuesBounded
  rw [hu, hd]
  exact ⟨Nat.zero_le _, Nat.zero_le _⟩

theorem beginReset_bounded (s : State) (r : ResetRecord) (e : Option Nat) : (s.beginReset r e).queuesBounded :=
  emptied_bounded rfl rfl

theorem raise_bounded {s : State} (i : Nat) (h : s.queuesBounded) : (s.raise i).queuesBounded := h

/-- Events and the course of resets keep the bounds of both queues (R7, R24). -/
theorem queuesBounded_course : Course State.queuesBounded where
  close s t a h := closeEvent_bounded s t a h
  raise _ i h := raise_bounded i h
  up s x h := handUp_bounded x s h
  down s x h := handDown_bounded x s h
  ports s f h hf := ⟨(hf s.ports).1.trans h.1, (hf s.ports).2.trans h.2⟩
  wiring _ _ _ h := h
  restart tag s t h he := by
    refine live_keeps State.queuesBounded _ _ _ h ?_ he
    split
    · exact suspend_bounded (closeEvent_bounded _ _ _ h)
    · exact beginReset_bounded _ _ _
  pin s t h he := by
    unfold execPinReset at he
    split at he
    · cases he; exact h
    · split at he <;> cases he
      · exact h
      all_goals exact beginReset_bounded _ _ _
  release s t h he := by
    unfold execResetLineRelease at he
    split at he <;> cases he <;> exact h
  command s t h he := by
    unfold execCommandReset at he
    split at he <;> cases he
    · exact beginReset_bounded _ _ _
    all_goals exact h
  period s t h he := by
    unfold execResetPeriodEnd at he
    split at he
    · injection he with he; subst he
      rw [State.resumeEvent, State.event]
      exact closeEvent_bounded _ _ _ (emptied_bounded rfl rfl)
    · cases he; exact h
  power s t _ he := next_keeps State.queuesBounded _ _ (emptied_bounded rfl rfl) he
  loss s t _ he := next_keeps State.queuesBounded _ _ (emptied_bounded rfl rfl) he

/-- What every command keeps, whatever commands wait and whatever the timebase reads, every step keeps. -/
theorem step_keeps {P : State → Prop} (hpend : ∀ s q, P s → P { s with pending := q }) (htick : ∀ s, P s → P s.tick)
    (hexec : ∀ c s t, P s → exec c s = .next t → P t) {s t : State} (hs : P s) (h : step s = .next t) : P t := by
  unfold step at h
  split at h
  · next rest _ => exact hexec _ _ _ (hpend s rest hs) h
  · split at h
    · exact hexec _ _ _ hs h
    · exact next_keeps P _ _ (htick s hs) h

/-- Settles O5: hand-overs keep the bounds, and nothing else lengthens a queue. -/
theorem queuesStayBounded : Obligations.QueuesStayBounded := fun _ _ hs h =>
  step_keeps (fun _ _ hb => hb) (fun _ hb => hb) (fun c s t => exec_keeps _ queuesBounded_course c s t) hs h

/-! ## At reset -/

/-- Settles O9, by the fields of the state at reset. -/
theorem invariantsHoldAtReset : Obligations.InvariantsHoldAtReset := by
  refine ⟨⟨by decide, by decide⟩, rfl, by constructor <;> decide, ?rotation, ?slots, ?items, ?lists, ?lanes, rfl,
    ?fields⟩
  case rotation =>
    refine ⟨?_, ?_, ?_, .inr ⟨rfl, rfl⟩, ?_⟩
    · intro q hq; cases hq
    · intro l q _ hq; cases hq
    · intro l q _; constructor
      · intro h; cases h
      · intro h; cases h.1
    · intro l _ h; cases h
  case slots => intro b c r q h; cases h
  case items =>
    constructor
    · intro t e h; cases h
    · intro b r h; cases h
    · intro b r h; cases h
    · intro x h; cases h
    · intro t e h; cases h
    · exact ⟨by decide, fun b r h => by cases h⟩
  case lists => exact fun a => ⟨by simp [State.reset, State.crane, State.aisle, Tab.get, Crane.idle, Aisle.unconfigured], Nat.le_refl 0⟩
  case lanes => exact fun st => (by decide : 0 + 0 ≤ 2)
  case fields =>
    intro s
    exact ⟨fun i => ⟨rfl, rfl, rfl, rfl, rfl⟩, rfl, fun a => ⟨rfl, rfl⟩, fun a => rfl, fun a => rfl, fun a => rfl,
      fun a => rfl, fun a => rfl, fun a => rfl, rfl, rfl, rfl, rfl, rfl, rfl, rfl, rfl, rfl, rfl, rfl, rfl, rfl, rfl,
      by decide, rfl⟩

/-! ## The WRITEs -/

theorem touches_iff (first n lo hi : Nat) : touches first n lo hi = true ↔ first ≤ hi ∧ lo < first + n := by
  simp [touches]

/-- The follow-on tests of PARAMS (R16, R104, R145, R185). -/
theorem State.paramsFollow_eq (u : State) (n k : Nat) : u.paramsFollow n k =
    let a := if n = 0 ∧ 0 < k then u.oweHold else u
    let b := if n ≤ 7 ∧ 6 < n + k then a.restorePass else a
    if n ≤ 9 ∧ 8 < n + k then b.thresholdTest else b := by
  have hold : (touches n k 0 0 = true) = (n = 0 ∧ 0 < k) := by
    rw [touches_iff]; exact propext ⟨fun h => by omega, fun h => by omega⟩
  simp only [State.paramsFollow, hold, touches_iff]

/-- A WRITE to a running part is one event. -/
theorem write_taken {α : Type} {s : State} (hr : s.running) (tag first : BitVec 16) (size : Nat)
    (apply : Nat → α → State → Judged) (es : List α) :
    let w := writeEntries size apply es first.toNat s.beginEvent
    s.write tag size apply first.toNat es = .next (s.requestEnds w.state (w.answer tag.toNat)) := live_running _ hr

/-- A WRITE that may shut zones is one event, which bars the lifts held back at its end. -/
theorem writeBarring_taken {α : Type} {s : State} (hr : s.running) (tag first : BitVec 16) (size : Nat)
    (apply : Nat → α → State → Judged) (es : List α) :
    let w := writeEntries size apply es first.toNat s.beginEvent.holdBars
    s.writeBarring tag size apply first.toNat es = .next (s.requestEnds w.state.barHeld (w.answer tag.toNat)) :=
  live_running _ hr

/-- The ANSWER to a WRITE that has applied nothing when it is refused (R18, R23). -/
theorem answer_noneApplied (s : State) (tag : BitVec 16) (r : Reason) :
    Written.answer { state := s, applied := 0, clamps := [], refusal := some r } tag.toNat = noneApplied tag r := by
  simp [Written.answer, Written.verdict, Written.fields, noneApplied, clampRoom, be, flagCode, kindWrite]

/-- A WRITE that no block takes only answers. -/
theorem writeRefused_onlyAnswers {s : State} (hr : s.running) (tag : BitVec 16) (r : Reason) :
    s.writeRefused tag r = .next (s.onlyAnswers (noneApplied tag r)) := by
  rw [State.writeRefused, live_running _ hr, State.request, settle_beginEvent, State.onlyAnswers]
  simp only [answer_noneApplied]

/-- Settles O20: every WRITE is `write` or `writeBarring`, but for PARAMS, which follows its entries up, and ITEM, which
asks for first index 0. -/
theorem writesAreTakenWhole : Obligations.WritesAreTakenWhole := by
  intro s tag first hr
  have taken {α : Type} (size : Nat) (apply : Nat → α → State → Judged) (es : List α) :=
    write_taken hr tag first size apply es
  refine ⟨taken _ _, taken _ _, taken _ _, fun es => live_running _ hr, taken _ _, taken _ _, taken _ _, taken _ _,
    fun es => ?item, taken _ _, taken _ _, writeBarring_taken hr tag first _ _, writeBarring_taken hr tag first _ _,
    fun _ => rfl, fun u n k => State.paramsFollow_eq u n k⟩
  case item =>
    have unfolded : exec (.itemWrite tag first es) s =
      if first.toNat ≠ 0 then s.writeRefused tag .indexRange else s.write tag 65536 judgeItemEntry 0 es := rfl
    split
    · next h0 =>
      subst h0
      exact write_taken hr tag 0 _ _ es
    · next h0 =>
      have : first.toNat ≠ 0 := fun h => h0 (BitVec.eq_of_toNat_eq h)
      rw [unfolded, if_pos this, writeRefused_onlyAnswers hr]

end Sys2Proof.Machine
end

section
/-! What every command keeps: a law of the bins, the item entries, the staging list and the rotation that the updates of
the blocks keep is kept by everything the blocks make of these updates. The rules that a law must obey stand in `Neutral`;
`Kept` carries a law through an event together with the canonical form of the tables. -/

namespace Sys2Proof.Machine

/-! ## Laws -/

/-- From `s` to `t` nothing has changed that a law of the bins, the entries, the staging list or the rotation reads; answer
timers may have stopped. -/
structure Alike (s t : State) : Prop where
  bins : t.store.bins = s.store.bins
  items : t.loans.items = s.loans.items
  staging : t.returns.staging = s.returns.staging
  words : ∀ l, (t.lift l).word = (s.lift l).word
  asking : ∀ l, (t.lift l).answerTimer.isSome = true → (s.lift l).answerTimer.isSome = true
  pointer : t.pool.pointer = s.pool.pointer

/-- A bin claims a slot, as its home slot or its target slot (R32). -/
def Bin.claims (r : Bin) (x : Slot) : Prop := r.home = x ∨ r.target = some x

/-- A bin's record has become `q`: its counts are as they were, and it claims no slot that another bin may claim. -/
structure Rebinned (s : State) (r q : Bin) : Prop where
  staged : q.staged = r.staged
  itemRefs : q.itemRefs = r.itemRefs
  claims : ∀ x, q.claims x → r.claims x ∨ s.slotClaimed x = false

/-- A law that the tests and the courses of orders, carries, zones and modes keep: it reads what `Alike` lists, and
outlives a change of a bin, the removal of an entry that is not RETURNED, and the pointer's step past a lift in rotation. -/
structure Neutral (K : State → Prop) : Prop where
  alike : ∀ {s t : State}, K s → Alike s t → K t
  bin : ∀ {s : State} (b : Nat) (f : Bin → Bin), s.Tidy → K s → (∀ r, s.bin b = some r → Rebinned s r (f r)) →
    K (s.modBin b f)
  uncount : ∀ {s : State} {t : Nat} {e : Item}, s.Tidy → K s → s.item t = some e → e.state.word ≠ .returned →
    K (s.removeItem t)
  pass : ∀ {s : State} {l : Nat}, s.Tidy → K s → l < 6 → (s.lift l).word.member = true →
    K (s.modPool fun p => { p with pointer := (s.lift l).word.nextPointer })

/-- A neutral law holds of a state whose tables are canonical. -/
structure Kept (K : State → Prop) (s : State) : Prop where
  neutral : Neutral K
  tidy : s.Tidy
  law : K s

theorem Alike.refl (s : State) : Alike s s := ⟨rfl, rfl, rfl, fun _ => rfl, fun _ h => h, rfl⟩

/-- Nothing has changed in the Lift Pool. -/
theorem Alike.of_pool {s t : State} (hb : t.store.bins = s.store.bins) (hi : t.loans.items = s.loans.items)
    (hs : t.returns.staging = s.returns.staging) (hp : t.pool = s.pool) : Alike s t where
  bins := hb
  items := hi
  staging := hs
  words l := by simp only [State.lift, hp]
  asking l h := by simpa only [State.lift, hp] using h
  pointer := by rw [hp]

namespace Kept

variable {K : State → Prop} {s : State}

/-! ## Updates that no law reads -/

theorem alike {t : State} (h : Kept K s) (ht : t.Tidy) (ha : Alike s t) : Kept K t :=
  ⟨h.neutral, ht, h.neutral.alike h.law ha⟩

/-- An update outside the bins, the entries, the staging list and the Lift Pool. -/
theorem update {t : State} (h : Kept K s) (ht : t.Tidy) (hb : t.store.bins = s.store.bins := by rfl)
    (hi : t.loans.items = s.loans.items := by rfl) (hs : t.returns.staging = s.returns.staging := by rfl)
    (hp : t.pool = s.pool := by rfl) : Kept K t :=
  h.alike ht (.of_pool hb hi hs hp)

theorem work (h : Kept K s) (f : Work → Work) : Kept K (s.modWork f) := h.update { h.tidy with }

theorem modMode (h : Kept K s) (f : ModeControl → ModeControl) : Kept K (s.modMode f) := h.update { h.tidy with }

theorem modParams (h : Kept K s) (f : Params → Params) : Kept K (s.modParams f) := h.update { h.tidy with }

theorem modPorts (h : Kept K s) (f : Ports → Ports) : Kept K (s.modPorts f) := h.update { h.tidy with }

theorem modResets (h : Kept K s) (f : ResetControl → ResetControl) : Kept K (s.modResets f) := h.update { h.tidy with }

theorem setCounter (h : Kept K s) (i v : Nat) : Kept K (s.setCounter i v) :=
  h.update { h.tidy with counters := Tab.canonical_set _ _ _ _ h.tidy.counters }

theorem raise (h : Kept K s) (i : Nat) : Kept K (s.raise i) := h.setCounter i _

theorem raiseIf (h : Kept K s) (b : Bool) (i : Nat) : Kept K (s.raiseIf b i) := by
  unfold State.raiseIf
  split
  · exact h.raise i
  · exact h

theorem setAddr (h : Kept K s) (a : Nat) (e : AddrEntry) : Kept K (s.setAddr a e) :=
  h.update { h.tidy with addresses := Tab.canonical_set _ _ _ _ h.tidy.addresses }

theorem setAisle (h : Kept K s) (a : Nat) (r : Aisle) : Kept K (s.setAisle a r) :=
  h.update { h.tidy with aisles := Tab.canonical_set _ _ _ _ h.tidy.aisles }

theorem modCrane (h : Kept K s) (a : Nat) (f : Crane → Crane) : Kept K (s.modCrane a f) :=
  h.update { h.tidy with cranes := Tab.canonical_set _ _ _ _ h.tidy.cranes }

theorem modStation (h : Kept K s) (st : Nat) (f : Station → Station) : Kept K (s.modStation st f) :=
  h.update { h.tidy with stations := Tab.canonical_set _ _ _ _ h.tidy.stations }

theorem modZone (h : Kept K s) (z : Nat) (f : Zone → Zone) : Kept K (s.modZone z f) :=
  h.update { h.tidy with zones := Tab.canonical_set _ _ _ _ h.tidy.zones }

theorem modLine (h : Kept K s) (n : Nat) (f : Line → Line) : Kept K (s.modLine n f) :=
  h.update { h.tidy with lines := Tab.canonical_set _ _ _ _ h.tidy.lines }

theorem setPull (h : Kept K s) (g : Nat) (p : Pull) : Kept K (s.setPull g p) :=
  h.update { h.tidy with pulls := Tab.canonical_set _ _ _ _ h.tidy.pulls }

theorem setLendClass (h : Kept K s) (c : Nat) (r : ClassRecord) : Kept K (s.setLendClass c r) :=
  h.update { h.tidy with classes := Tab.canonical_set _ _ _ _ h.tidy.classes }

/-- A change of the Order Unit that keeps the stations. -/
theorem modDesk (h : Kept K s) (f : OrderUnit → OrderUnit)
    (ho : s.desk.orders.wf → (f s.desk).orders.wf := by exact fun h => h)
    (hs : (f s.desk).stations = s.desk.stations := by rfl) : Kept K (s.modDesk f) := by
  refine h.update { h.tidy with stations := ?_, orders := ho h.tidy.orders }
  rw [State.modDesk_desk, hs]
  exact h.tidy.stations

theorem modOrder (h : Kept K s) (num : Nat) (f : Order → Order) : Kept K (s.modOrder num f) :=
  h.modDesk _ fun ho => Tab.wf_mapVals s.desk.orders (fun o => if o.number = num then f o else o) ho

theorem dropOrder (h : Kept K s) (num : Nat) : Kept K (s.dropOrder num) := h.modDesk _ fun ho => Tab.wf_filter _ _ ho

theorem modMember (h : Kept K s) (r : MemberRef) (f : Member → Member) : Kept K (s.modMember r f) := h.modOrder _ _

/-- A change of the job-tag counter. -/
theorem setJobTag (h : Kept K s) (n : Nat) : Kept K (s.modDispatch fun d => { d with jobTag := n }) :=
  h.update { h.tidy with }

/-- A change of a lift's record that keeps its word and starts no answer timer. -/
theorem liftWork (h : Kept K s) (l : Nat) (f : Lift → Lift) (hw : ∀ r, (f r).word = r.word := by intro _; rfl)
    (ht : ∀ r, (f r).answerTimer.isSome = true → r.answerTimer.isSome = true := by exact fun _ h => h) :
    Kept K (s.modLift l f) := by
  refine h.alike { h.tidy with lifts := Tab.canonical_set _ _ _ _ h.tidy.lifts } ⟨rfl, rfl, rfl, fun k => ?_, fun k => ?_, rfl⟩
  · rw [s.modLift_lift l k f h.tidy.lifts.1]
    split
    · next hk => rw [hw, hk]
    · rfl
  · rw [s.modLift_lift l k f h.tidy.lifts.1]
    split
    · next hk => rw [hk]; exact ht _
    · exact fun h => h

/-- A change of the carry wait list or of the carry-tag counter. -/
theorem modPool (h : Kept K s) (f : LiftPool → LiftPool) (hl : (f s.pool).lifts = s.pool.lifts := by rfl)
    (hp : (f s.pool).pointer = s.pool.pointer := by rfl) : Kept K (s.modPool f) := by
  have same : ∀ l, (s.modPool f).lift l = s.lift l := fun l => by simp only [State.lift, State.modPool_pool, hl]
  refine h.alike { h.tidy with lifts := ?_ } ⟨rfl, rfl, rfl, fun l => by rw [same], fun l => by rw [same]; exact id, hp⟩
  rw [State.modPool_pool, hl]
  exact h.tidy.lifts

/-! ## Bins and entries -/

theorem tidy_modBin (ht : s.Tidy) (b : Nat) (f : Bin → Bin) : (s.modBin b f).Tidy := by
  unfold State.modBin
  split
  · exact { ht with bins := Tab.wf_put _ _ _ ht.bins }
  · exact ht

theorem rebin (h : Kept K s) (b : Nat) (f : Bin → Bin) (hf : ∀ r, s.bin b = some r → Rebinned s r (f r)) :
    Kept K (s.modBin b f) := ⟨h.neutral, tidy_modBin h.tidy b f, h.neutral.bin b f h.tidy h.law hf⟩

/-- A change of a bin's record that keeps its counts and claims no further slot. -/
theorem binWork (h : Kept K s) (b : Nat) (f : Bin → Bin) (hs : ∀ r, (f r).staged = r.staged := by intro _; rfl)
    (hi : ∀ r, (f r).itemRefs = r.itemRefs := by intro _; rfl)
    (hc : ∀ r x, (f r).claims x → r.claims x := by exact fun _ _ h => h) : Kept K (s.modBin b f) :=
  h.rebin b f fun r _ => ⟨hs r, hi r, fun x hx => .inl (hc r x hx)⟩

theorem setBinState (h : Kept K s) (b : Nat) (st : BinState) : Kept K (s.setBinState b st) := h.binWork b _

theorem releaseTarget (h : Kept K s) (b : Nat) : Kept K (s.releaseTarget b) :=
  h.binWork b _ (hc := fun _ _ hx => hx.elim .inl fun hn => by cases hn)

theorem tidy_removeItem (ht : s.Tidy) (t : Nat) : (s.removeItem t).Tidy := by
  unfold State.removeItem
  split
  · exact tidy_modBin (s := s.delItem t) { ht with items := Tab.wf_del _ _ ht.items } _ _
  · exact ht

/-- The removal of an entry that is not RETURNED. -/
theorem removeItem (h : Kept K s) {t : Nat} {e : Item} (he : s.item t = some e) (hw : e.state.word ≠ .returned) :
    Kept K (s.removeItem t) := ⟨h.neutral, tidy_removeItem h.tidy t, h.neutral.uncount h.tidy h.law he hw⟩

/-! ## Runs, sends and owed tests -/

theorem forEach {α : Type} (h : Kept K s) (xs : List α) (f : α → State → State) (hf : ∀ x s, Kept K s → Kept K (f x s)) :
    Kept K (Machine.forEach xs f s) := forEach_induct (Kept K) f hf xs s h

theorem repeatTimes (h : Kept K s) (n : Nat) (f : State → State) (hf : ∀ s, Kept K s → Kept K (f s)) :
    Kept K (Machine.repeatTimes f n s) := repeatTimes_induct (Kept K) f hf n s h

theorem notice (h : Kept K s) (n : Notice) : Kept K (s.notice n) := h.work _
theorem holdoff (h : Kept K s) (ms : Nat) : Kept K (s.holdoff ms) := h.work _
theorem sendDown (h : Kept K s) (q : Queued) : Kept K (s.sendDown q) := h.work _

theorem sendUnit (h : Kept K s) (a : Option Nat) (k : Nat) (b : List Byte) (c : QueueClass) :
    Kept K (s.sendUnit a k b c) := by
  unfold State.sendUnit
  split
  · exact h.sendDown _
  · exact h

theorem sendMember (h : Kept K s) (l : Nat) : Kept K (s.sendMember l) := h.sendUnit _ _ _ _
theorem sendVerdict (h : Kept K s) (st tag : Nat) (r : Option Reason) (due : Nat) : Kept K (s.sendVerdict st tag r due) :=
  h.sendUnit _ _ _ _
theorem oweControl (h : Kept K s) : Kept K s.oweControl := h.work _
theorem oweZone (h : Kept K s) (z : Nat) : Kept K (s.oweZone z) := h.work _
theorem oweMode (h : Kept K s) : Kept K s.oweMode := h.work _
theorem oweDrives (h : Kept K s) (xs : List Nat) : Kept K (s.oweDrives xs) := h.work _
theorem oweDrain (h : Kept K s) : Kept K s.oweDrain := h.work _
theorem oweScan (h : Kept K s) : Kept K s.oweScan := h.work _
theorem oweAdmission (h : Kept K s) : Kept K s.oweAdmission := h.work _
theorem oweRestore (h : Kept K s) (t : RestoreTest) : Kept K (s.oweRestore t) := h.work _
theorem oweWaiting (h : Kept K s) : Kept K s.oweWaiting := h.work _
theorem oweHold (h : Kept K s) : Kept K s.oweHold := h.work _
theorem recordsFreed (h : Kept K s) : Kept K s.recordsFreed := h.oweAdmission.oweDrain

/-! ## Crane jobs -/

theorem setMember (h : Kept K s) (r : MemberRef) (st : MemberState) : Kept K (s.setMember r st) := h.modMember r _
theorem useHeld (h : Kept K s) (r : MemberRef) : Kept K (s.useHeld r) := h.modMember r _

theorem releaseHeld (h : Kept K s) (r : MemberRef) : Kept K (s.releaseHeld r) := by
  unfold State.releaseHeld
  split
  · split
    · exact h
    · exact (h.modMember r _).recordsFreed
  · exact h

theorem refill (h : Kept K s) (a : Nat) : Kept K (s.refill a) := by
  unfold State.refill
  exact h.modCrane a _

/-- The choice of a class changes the credits of the aisle at most. -/
theorem chooseClass (h : Kept K s) (a : Nat) {k : JobClass} {t : State} (ht : s.chooseClass a = some (k, t)) :
    Kept K t := by
  unfold State.chooseClass at ht
  split at ht
  · simp only [Option.map_eq_some_iff, Prod.mk.injEq] at ht
    obtain ⟨_, _, _, rfl⟩ := ht
    exact h
  · split at ht
    · cases ht
      exact h.modCrane a _
    · split at ht
      · simp only [Option.map_eq_some_iff, Prod.mk.injEq] at ht
        obtain ⟨_, _, _, rfl⟩ := ht
        exact (h.refill a).modCrane a _
      · cases ht

theorem tellDispatched (h : Kept K s) (j : Job) : Kept K (s.tellDispatched j) := by
  unfold State.tellDispatched
  split
  · split
    · exact h.setMember _ _
    · exact h
  · exact h

theorem dispatchJob (h : Kept K s) (a : Nat) (j : Job) (p : Point) : Kept K (s.dispatchJob a j p) :=
  (((((h.setJobTag _).modCrane a _).oweControl).setBinState _ _).tellDispatched j).sendUnit _ _ _ _

theorem dispatchTest (h : Kept K s) (a : Nat) : Kept K (s.dispatchTest a) := by
  unfold State.dispatchTest
  split
  · split
    · next hc =>
      split
      · exact ((h.chooseClass a hc).modCrane a _).dispatchJob a _ _
      · exact h
    · exact h
  · exact h

theorem appendJob (h : Kept K s) (a : Nat) (j : Job) : Kept K (s.appendJob a j) := (h.modCrane a _).dispatchTest a
theorem requeue (h : Kept K s) (a : Nat) (j : Job) : Kept K (s.requeue a j) := h.modCrane a _

theorem requestFetch (h : Kept K s) (r : MemberRef) (b : Nat) : Kept K (s.requestFetch r b) :=
  (((h.useHeld r).setMember r _).setBinState b _).appendJob _ _

theorem requestStore (h : Kept K s) (r : MemberRef) (b : Nat) (p : Point) : Kept K (s.requestStore r b p) :=
  (h.useHeld r).appendJob _ _

theorem requestRecovery (h : Kept K s) (a b : Nat) (p : Point) (leave : State → State) (hl : Kept K (leave s)) :
    Kept K (s.requestRecovery a b p leave) := by
  unfold State.requestRecovery
  split
  · exact ((hl.setBinState b _).notice _).appendJob a _
  · exact h.modCrane a _

theorem joinFront (h : Kept K s) (a b : Nat) : Kept K (s.joinFront a b) := h.modCrane a _
theorem joinInfeed (h : Kept K s) (a b : Nat) : Kept K (s.joinInfeed a b) := h.modCrane a _

theorem leaveFront (h : Kept K s) (a b : Nat) : Kept K (s.leaveFront a b) := by
  unfold State.leaveFront
  split
  · exact (h.modCrane a _).dispatchTest a
  · exact h

theorem leaveInfeed (h : Kept K s) (a b : Nat) : Kept K (s.leaveInfeed a b) := by
  unfold State.leaveInfeed
  split
  · exact (h.modCrane a _).oweScan
  · exact h

theorem leaveLists (h : Kept K s) (a b : Nat) : Kept K (s.leaveLists a b) := (h.leaveFront a b).leaveInfeed a b

theorem leaveAllLists (h : Kept K s) (b : Nat) : Kept K (Machine.forEach allAisles (fun a s => s.leaveLists a b) s) :=
  h.forEach _ _ fun a _ h => h.leaveLists a b

theorem offer (h : Kept K s) (b : Nat) : Kept K (s.offer b) := by
  unfold State.offer
  split
  · exact h.requestFetch _ _
  · exact h.oweRestore _

theorem becomeStored (h : Kept K s) (b : Nat) : Kept K (s.becomeStored b) := ((h.setBinState b _).leaveAllLists b).offer b

/-! ## Orders -/

theorem giveUpItem (h : Kept K s) (num : Nat) (cause : NotTakenCause) (t : Nat) :
    Kept K (State.giveUpItem num cause t s) := by
  unfold State.giveUpItem
  split
  · next e _ he _ =>
    split
    · next hr => exact ((h.removeItem he (by rw [hr]; exact nofun)).modOrder num _).notice _
    · exact h
  · exact h

theorem giveUpItems (h : Kept K s) (num : Nat) (cause : NotTakenCause) (ts : List Nat) :
    Kept K (s.giveUpItems num cause ts) := h.forEach _ _ fun t _ h => h.giveUpItem num cause t

theorem releaseReservation (h : Kept K s) (st : Nat) : Kept K (s.releaseReservation st) :=
  (h.modStation st _).oweAdmission

theorem joinLane (h : Kept K s) (st : Nat) (b : LaneBin) : Kept K (s.joinLane st b) := h.modStation st _
theorem leaveLane (h : Kept K s) (st b : Nat) : Kept K (s.leaveLane st b) := (h.modStation st _).oweAdmission.oweDrain
theorem markLane (h : Kept K s) (st b : Nat) (m : LaneMark) : Kept K (s.markLane st b m) := h.modStation st _
theorem joinWaitList (h : Kept K s) (e : WaitEntry) : Kept K (s.joinWaitList e) := (h.modPool _).oweScan
theorem dropWaiting (h : Kept K s) (p : WaitEntry → Bool) : Kept K (s.dropWaiting p) := h.modPool _
theorem toUpLeg (h : Kept K s) (r : MemberRef) (b st : Nat) : Kept K (s.toUpLeg r b st) := h.joinWaitList _
theorem toDownLeg (h : Kept K s) (r : MemberRef) (b st : Nat) : Kept K (s.toDownLeg r b st) := h.joinWaitList _
theorem completeGather (h : Kept K s) (num st : Nat) : Kept K (s.completeGather num st) :=
  (h.modOrder num _).modStation st _

theorem gatherTest (h : Kept K s) (num : Nat) : Kept K (s.gatherTest num) := by
  unfold State.gatherTest
  split
  · split
    · dsimp only
      split
      · exact h.modOrder num _
      · split
        · exact h.completeGather num _
        · exact h
    · exact h
  · exact h

theorem present (h : Kept K s) (st : Nat) (r : MemberRef) (b : Nat) : Kept K (s.present st r b) :=
  (((h.markLane st b _).setMember r _).modOrder _ _).sendUnit _ _ _ _

theorem windowStep (h : Kept K s) (st : Nat) : Kept K (State.windowStep st s) := by
  unfold State.windowStep
  dsimp only
  split
  · exact h
  · split
    · split
      · exact h
      · exact (h.modStation st _).modOrder _ _
    · split
      · exact h.modStation st _
      · split
        · exact h.present st _ _
        · split
          · exact h
          · exact h.modStation st _

theorem windowPass (h : Kept K s) (st : Nat) : Kept K (s.windowPass st) := h.repeatTimes _ _ fun _ h => h.windowStep st

theorem clearPending (h : Kept K s) (o : Order) : Kept K (s.clearPending o) := by
  unfold State.clearPending
  split
  · exact h.forEach _ _ fun b _ h => (h.binWork b _).oweRestore _
  · exact h

theorem freeRecord (h : Kept K s) (num : Nat) : Kept K (s.freeRecord num) := (h.dropOrder num).oweDrain.oweRestore _

theorem endOrder (h : Kept K s) (o : Order) : Kept K (s.endOrder o) := by
  unfold State.endOrder
  dsimp only
  refine freeRecord ?_ _
  have left := (((h.giveUpItems o.number .orderEnd o.tags).forEach o.refs (fun r s => s.releaseHeld r)
    fun r _ h => h.releaseHeld r).modStation o.station fun w =>
      { w with owner := if w.owner = some o.number then none else w.owner
               presQueue := w.presQueue.filter fun n => ¬ n = o.number }).clearPending o
  split
  · exact left.notice _
  · exact left

theorem endTest (h : Kept K s) (num : Nat) : Kept K (s.endTest num) := by
  unfold State.endTest
  split
  · split
    · exact (h.endOrder _).windowPass _
    · exact h
  · exact h

theorem settleOrder (h : Kept K s) (num : Nat) : Kept K (s.settleOrder num) := by
  unfold State.settleOrder
  split
  · exact ((h.gatherTest num).windowPass _).endTest num
  · exact h

theorem loseMember (h : Kept K s) (r : MemberRef) (st : MemberState) : Kept K (s.loseMember r st) := by
  unfold State.loseMember
  split
  · split
    · exact h
    · exact (h.setMember r st).notice _
  · exact h

theorem fetchLost (h : Kept K s) (r : MemberRef) (st : MemberState) : Kept K (s.fetchLost r st) := by
  unfold State.fetchLost
  dsimp only
  split
  · exact ((h.loseMember r st).releaseHeld r).settleOrder _
  · exact (((h.loseMember r st).releaseReservation _).releaseHeld r).settleOrder _

theorem storeLost (h : Kept K s) (r : MemberRef) : Kept K (s.storeLost r) := (h.loseMember r _).settleOrder _

theorem binHome (h : Kept K s) (r : MemberRef) : Kept K (s.binHome r) := by
  unfold State.binHome
  split
  · exact (h.setMember r _).settleOrder _
  · exact h.settleOrder _

theorem fetchDone (h : Kept K s) (r : MemberRef) (b : Nat) : Kept K (s.fetchDone r b) := by
  unfold State.fetchDone
  dsimp only
  split
  · exact h.requestStore r b _
  · split
    · exact (h.setMember r _).toUpLeg r b _
    · exact h.setMember r _

theorem startGather (h : Kept K s) (num : Nat) : Kept K (s.startGather num) := by
  unfold State.startGather
  split
  · split
    · exact h.modOrder num _
    · exact h
  · exact h

theorem rejoin (h : Kept K s) (num st : Nat) : Kept K (s.rejoin num st) := by
  unfold State.rejoin
  split
  · dsimp only
    split
    · exact h.modStation st _
    · exact h
  · exact h

theorem upArrived (h : Kept K s) (r : MemberRef) (b st : Nat) : Kept K (s.upArrived r b st) := by
  unfold State.upArrived
  split
  · split
    · exact (h.joinLane st _).toDownLeg r b st
    · exact ((((h.joinLane st _).setMember r _).startGather _).rejoin _ _).settleOrder _
  · exact ((((h.setBinState b _).loseMember r _).releaseReservation st).releaseHeld r).settleOrder _

theorem downArrived (h : Kept K s) (r : MemberRef) (b a : Nat) : Kept K (s.downArrived r b a) := by
  unfold State.downArrived
  dsimp only
  split
  · exact ((h.setMember r _).joinInfeed a b).requestStore r b _
  · exact (h.joinInfeed a b).requestStore r b _

theorem removeFetch (h : Kept K s) (r : MemberRef) (b : Nat) : Kept K (s.removeFetch r b).1 := by
  unfold State.removeFetch
  dsimp only
  generalize oldestJob (Job.fetchOf r) ((s.crane (s.binAisle b)).queue (s.memberClass r)) = found
  cases found with
  | none => exact h
  | some found =>
    obtain ⟨j, rest⟩ := found
    dsimp only
    exact ((h.modCrane (s.binAisle b) fun c => c.setQueue (s.memberClass r) rest).recordsFreed).becomeStored b

theorem cancelFetch (h : Kept K s) (r : MemberRef) (b : Nat) : Kept K (s.cancelFetch r b) := by
  unfold State.cancelFetch
  dsimp only
  split
  · exact (h.removeFetch r b).releaseHeld r
  · exact h.removeFetch r b

theorem cancelStage (h : Kept K s) (st : Nat) (r : MemberRef) (m : Member) : Kept K (s.cancelStage st r m) := by
  unfold State.cancelStage
  split
  · exact (h.releaseReservation st).releaseHeld r
  · exact (h.releaseReservation st).cancelFetch r _
  · exact (h.releaseReservation st).cancelFetch r _
  · exact ((h.dropWaiting _).releaseReservation st).requestStore r _ _
  · exact h
  · exact (h.markLane st _ _).toDownLeg r _ st
  · exact h.sendUnit _ _ _ _
  all_goals exact h

theorem cancelMember (h : Kept K s) (st : Nat) (r : MemberRef) : Kept K (State.cancelMember st r s) := by
  unfold State.cancelMember
  split
  · split
    · exact ((h.setMember r _).cancelStage st r _).giveUpItems _ _ _
    · exact h
  · exact h

theorem strandLaneBin (h : Kept K s) (l : LaneBin) : Kept K (State.strandLaneBin l s) :=
  ((h.setBinState _ _).loseMember _ _).releaseHeld _

theorem oustOwner (h : Kept K s) (st : Nat) (owner : Option Nat) : Kept K (s.oustOwner st owner) := by
  unfold State.oustOwner
  split
  · exact h
  · split
    · split
      · exact h.modStation st _
      · exact h
    · exact h

theorem stationShut (h : Kept K s) (st : Nat) : Kept K (State.stationShut st s) := by
  unfold State.stationShut
  dsimp only
  have left := ((h.dropWaiting fun e => decide (e.station = st)).modStation st
    fun w => { w with lane := [], owner := none }).oweDrain
  refine forEach (oustOwner (forEach ?_ _ _ fun l _ h => h.strandLaneBin l) _ _) _ _ fun n _ h => h.settleOrder n
  split
  · exact left
  · exact left.oweAdmission

theorem stationOpen (h : Kept K s) (st : Nat) : Kept K (State.stationOpen st s) :=
  (h.forEach _ _ fun f _ h => h.toUpLeg f.1 f.2 st).windowPass st

theorem admitMember (h : Kept K s) (r : MemberRef) : Kept K (State.admitMember r s) := by
  unfold State.admitMember
  split
  · split
    · exact h.requestFetch r _
    · exact h
  · exact h

theorem admitHead (h : Kept K s) (st : Nat) (o : Order) (rest : List Nat) : Kept K (s.admitHead st o rest) :=
  ((((h.modStation st _).modOrder _ _).modDesk _).oweWaiting).forEach _ _ fun r _ h => h.admitMember r

theorem admissionStep (h : Kept K s) (st : Nat) : Kept K (State.admissionStep st s) := by
  unfold State.admissionStep
  split
  · exact h
  · split
    · split
      · exact h.admitHead st _ _
      · exact h
    · exact h

theorem admissionPass (h : Kept K s) : Kept K s.admissionPass :=
  h.forEach _ _ fun st _ h => h.repeatTimes _ _ fun _ h => h.admissionStep st

theorem placeOrder (h : Kept K s) (i : Nat) (o : Order) : Kept K (s.placeOrder i o) :=
  ((h.modDesk _ fun ho => Tab.wf_put _ _ _ ho).modStation _ _).oweWaiting

theorem countTaken (h : Kept K s) (num : Nat) : Kept K (s.countTaken num) := h.modOrder num _
theorem countNotTaken (h : Kept K s) (num n : Nat) : Kept K (s.countNotTaken num n) := h.modOrder num _

/-! ## Carries -/

theorem tellWords (h : Kept K s) (before : State) : Kept K (s.tellWords before) :=
  h.forEach _ _ fun l _ h => h.sendMember l

theorem strandCarry (h : Kept K s) (c : Carry) : Kept K (State.strandCarry c s) :=
  ((h.setBinState _ _).loseMember _ _).settleOrder _

theorem giveUpCarry (h : Kept K s) (l : Nat) (c : Carry) : Kept K (State.giveUpCarry l c s) := by
  unfold State.giveUpCarry
  dsimp only
  refine oweDrain (oweScan (settleOrder (notice (releaseHeld ?_ _) _) _))
  split
  · exact (h.liftWork l _).releaseReservation _
  · exact h.liftWork l _

/-- The lift that is found for a carry is in rotation. -/
theorem eligible_member {e : WaitEntry} {l : Nat} (he : s.searchOrder.find? (s.eligible e) = some l) :
    l < 6 ∧ (s.lift l).word.member = true := by
  have fits := List.find?_some he
  simp only [State.eligible, Bool.and_eq_true] at fits
  refine ⟨?_, fits.1.1.1.1⟩
  have found := List.mem_of_find?_eq_some he
  simp only [State.searchOrder, List.mem_filterMap] at found
  obtain ⟨i, _, hi⟩ := found
  simpa [allLifts] using List.mem_of_find?_eq_some hi

theorem pass (h : Kept K s) {l : Nat} (hl : l < 6) (hm : (s.lift l).word.member = true) :
    Kept K (s.modPool fun p => { p with pointer := (s.lift l).word.nextPointer }) :=
  ⟨h.neutral, { h.tidy with }, h.neutral.pass h.tidy h.law hl hm⟩

theorem assign (h : Kept K s) (e : WaitEntry) {l : Nat} (hl : l < 6) (hm : (s.lift l).word.member = true) :
    Kept K (s.assign e l) := by
  unfold State.assign
  dsimp only
  have passed := ((h.dropWaiting fun x => decide (x.ref = e.ref)).pass hl hm).modPool
    fun p => { p with carryTag := tagUp s.pool.carryTag }
  have sent (c : Carry) := (passed.liftWork l fun r => { r with carries := r.carries ++ [c] }).sendUnit
    (s.liftAddress l)
  split
  · split
    · exact ((sent _ _ _ _).leaveFront _ _).setMember _ _
    · exact (sent _ _ _ _).leaveFront _ _
  · exact (sent _ _ _ _).leaveLane _ _

theorem scanEntry (h : Kept K s) (e : WaitEntry) : Kept K (State.scanEntry e s) := by
  unfold State.scanEntry
  split
  · next he => exact h.assign e (eligible_member he).1 (eligible_member he).2
  · exact h

theorem scan (h : Kept K s) : Kept K s.scan := h.forEach _ _ fun e _ h => h.scanEntry e

/-! ## The Return Unit -/

theorem createRestore (h : Kept K s) (b st i : Nat) : Kept K (s.createRestore b st i) :=
  (((h.modDesk _).binWork b _).placeOrder i _).admissionPass

theorem restoreAttempt (h : Kept K s) (b : Nat) : Kept K (State.restoreAttempt b s) := by
  unfold State.restoreAttempt
  split
  · split
    · split
      · exact h.createRestore b _ _
      · exact h
    · exact h
  · exact h

theorem restorePass (h : Kept K s) : Kept K s.restorePass := h.forEach _ _ fun b _ h => h.restoreAttempt b

theorem restoreTest (h : Kept K s) (t : RestoreTest) : Kept K (State.restoreTest t s) := by
  cases t with
  | bin b => exact h.restoreAttempt b
  | pass => exact h.restorePass

theorem extendList (h : Kept K s) (b t : Nat) : Kept K (s.extendList b t) :=
  h.modDesk _ fun ho => by
    dsimp only
    exact Tab.wf_mapVals _ _ ho

/-! ## Requests of cranes -/

theorem setCraneState (h : Kept K s) (a : Nat) (st : CraneState) : Kept K (s.setCraneState a st) := by
  unfold State.setCraneState
  split
  · exact h
  · exact (h.modCrane a _).oweControl

theorem parkCrane (h : Kept K s) (a : Nat) : Kept K (State.parkCrane a s) := by
  unfold State.parkCrane
  split
  · split
    · exact (h.setCraneState a _).sendUnit _ _ _ _
    · exact (h.setCraneState a _).sendUnit _ _ _ _
    · exact h
  · exact h

theorem parkRequest (h : Kept K s) (xs : List Nat) : Kept K (s.parkRequest xs) := h.forEach _ _ fun a _ h => h.parkCrane a

theorem faultCrane (h : Kept K s) (cause : FaultCause) (a : Nat) : Kept K (State.faultCrane cause a s) := by
  unfold State.faultCrane
  split
  · exact h
  · exact ((h.modCrane a _).setCraneState a _).notice _

theorem faultRequest (h : Kept K s) (xs : List Nat) (cause : FaultCause) : Kept K (s.faultRequest xs cause) :=
  h.forEach _ _ fun a _ h => h.faultCrane cause a

theorem craneOffline (h : Kept K s) (a : Nat) : Kept K (State.craneOffline a s) := (h.modCrane a _).setCraneState a _

theorem offlineRequest (h : Kept K s) (xs : List Nat) : Kept K (s.offlineRequest xs) :=
  h.forEach _ _ fun a _ h => h.craneOffline a

/-! ## Zones that do not leave CLEAR -/

theorem zoneTo (h : Kept K s) (z : Nat) (f : Zone → Zone) : Kept K (s.zoneTo z f) :=
  ((h.modZone z f).oweDrives _).notice _

theorem admitNow (h : Kept K s) : Kept K s.admitNow := (h.work _).admissionPass

theorem dispatchTests (h : Kept K s) (xs : List Nat) : Kept K (Machine.forEach xs (fun a s => s.dispatchTest a) s) :=
  h.forEach _ _ fun a _ h => h.dispatchTest a

theorem becomeClear (h : Kept K s) (z : Nat) : Kept K (s.becomeClear z) :=
  ((((h.zoneTo z _).dispatchTests _).forEach _ _ fun st _ h => h.stationOpen st).admitNow.oweScan).oweRestore _

theorem enterEnabling (h : Kept K s) (z : Nat) : Kept K (s.enterEnabling z) := (h.zoneTo z _).oweZone z

theorem feedback (h : Kept K s) (z : Nat) : Kept K (State.feedback z s) := by
  unfold State.feedback
  split
  · split
    · exact h.zoneTo z _
    · exact h
  · split
    · exact h.enterEnabling z
    · exact h
  · exact h

theorem enterClosing (h : Kept K s) (z : Nat) : Kept K (s.enterClosing z) := (h.zoneTo z _).feedback z

theorem enterSettling (h : Kept K s) (z : Nat) : Kept K (s.enterSettling z) := by
  unfold State.enterSettling
  dsimp only
  split
  · exact (h.zoneTo z _).enterClosing z
  · exact h.zoneTo z _

theorem beginStopping (h : Kept K s) (z : Nat) : Kept K (s.beginStopping z) :=
  ((h.modZone z _).parkRequest _).oweZone z

theorem enterStopping (h : Kept K s) (z : Nat) : Kept K (s.enterStopping z) := (h.zoneTo z _).beginStopping z
theorem giveCause (h : Kept K s) (z : Nat) (c : ZoneCause) : Kept K (s.giveCause z c) := h.modZone z _
theorem enterOpening (h : Kept K s) (z : Nat) : Kept K (s.enterOpening z) := (h.zoneTo z _).feedback z

theorem stoppingTest (h : Kept K s) (z : Nat) : Kept K (State.stoppingTest z s) := by
  unfold State.stoppingTest
  split
  · dsimp only
    split
    · exact h.parkRequest _
    · exact (h.parkRequest _).enterSettling z
  · exact h

theorem readyTest (h : Kept K s) (z : Nat) : Kept K (State.readyTest z s) := by
  unfold State.readyTest
  split
  · split
    · exact h.becomeClear z
    · exact h
  · exact h

theorem zoneTests (h : Kept K s) (z : Nat) : Kept K (State.zoneTests z s) := (h.stoppingTest z).readyTest z

/-! ## Modes and the tests at the end of an event -/

theorem changeMode (h : Kept K s) (m : Mode) (cause : ModeCause) : Kept K (s.changeMode m cause) := by
  unfold State.changeMode
  dsimp only
  refine notice ?_ _
  have set : Kept K (if m = .waking then (s.modMode fun c =>
      { c with mode := m, phase := if m = .draining then some .work else none, awaited := []
               timer := if m = .waking then s.after s.params.wakeReadyLimit else none }).oweMode
    else s.modMode fun c =>
      { c with mode := m, phase := if m = .draining then some .work else none, awaited := []
               timer := if m = .waking then s.after s.params.wakeReadyLimit else none }) := by
    split
    · exact (h.modMode _).oweMode
    · exact h.modMode _
  have ready := set.forEach allZones State.readyTest fun z _ h => h.readyTest z
  split
  · split
    · exact ((ready.dispatchTests _).admissionPass).restorePass
    · exact (ready.admissionPass).restorePass
  · split
    · exact ready.dispatchTests _
    · exact ready

theorem drainTest (h : Kept K s) : Kept K s.drainTest := by
  unfold State.drainTest
  split
  · exact (((h.modMode _).parkRequest _).modMode _).oweMode
  · exact h

theorem parkWaitTest (h : Kept K s) : Kept K s.parkWaitTest := by
  unfold State.parkWaitTest
  split
  · dsimp only
    split
    · exact h.parkRequest _
    · exact (h.parkRequest _).changeMode _ _
  · exact h

theorem wakeTest (h : Kept K s) : Kept K s.wakeTest := by
  unfold State.wakeTest
  split
  · split
    · exact h.changeMode _ _
    · exact h
  · exact h

theorem thresholdTest (h : Kept K s) : Kept K s.thresholdTest := by
  unfold State.thresholdTest
  split
  · split
    · exact h.changeMode _ _
    · split
      · exact h.changeMode _ _
      · exact h
  · exact h

theorem handStaging (h : Kept K s) : Kept K s.handStaging := (h.modMode _).thresholdTest
theorem handWaiting (h : Kept K s) : Kept K s.handWaiting := (h.modMode _).thresholdTest

theorem controlRound (h : Kept K s) : Kept K s.controlRound := by
  unfold State.controlRound
  dsimp only
  have tested := (h.work fun w => { w with control := false, zoneTests := [], modeTest := false }).forEach
    s.work.zonesOwed State.zoneTests fun z _ h => h.zoneTests z
  split
  · exact tested.parkWaitTest.wakeTest
  · exact tested

theorem holdTest (h : Kept K s) : Kept K s.holdTest := by
  unfold State.holdTest
  split
  · split
    · exact h
    · exact (h.holdoff _).modDesk _
  · split
    · exact (h.holdoff _).modDesk _
    · exact h

/-- A phase of a round makes its test, if it is owed. -/
theorem owed (h : Kept K s) (b : Bool) (f : State → State) (hf : Kept K (f s)) : Kept K (if b then f s else s) := by
  split
  · exact hf
  · exact h

theorem settleRound (h : Kept K s) : Kept K s.settleRound := by
  have drained : Kept K s.drainPhase := h.owed _ (fun s => (s.modWork fun w => { w with drain := false }).drainTest)
    (h.work _).drainTest
  have looped := drained.repeatTimes 24 State.controlRound fun _ h => h.controlRound
  have scanned : Kept K s.drainPhase.controlLoop.scanPhase :=
    looped.owed _ (fun s => (s.modWork fun w => { w with scan := false }).scan) (looped.work _).scan
  have admitted : Kept K s.drainPhase.controlLoop.scanPhase.admissionPhase :=
    scanned.owed _ (fun s => (s.modWork fun w => { w with admission := false }).admissionPass) (scanned.work _).admissionPass
  have restored : Kept K s.drainPhase.controlLoop.scanPhase.admissionPhase.restorePhase :=
    (admitted.work _).forEach _ _ fun t _ h => h.restoreTest t
  exact restored.owed _ (fun s => (s.modWork fun w => { w with waiting := false }).handWaiting) (restored.work _).handWaiting

theorem settle (h : Kept K s) : Kept K s.settle := by
  have rounds := h.repeatTimes 4 State.settleRound fun _ h => h.settleRound
  unfold State.settle State.holdPhase
  exact rounds.owed _ State.holdTest rounds.holdTest

end Kept

end Sys2Proof.Machine
end

section
/-! What every command keeps, command by command: `Lawful` adds to the rules of `Neutral` those of the updates that only
commands make, and `Outlasts` the closing of events, the hand-overs and the course of resets. `exec_outlasts` puts them
together. -/

namespace Sys2Proof.Machine

/-- A lift whose answer timer is stopped as its word becomes OFF (R109). -/
def Lift.unasked (r : Lift) : Lift := { r with word := .off, answerTimer := none }

/-- The fields of an entry as it becomes RETURNED, with its place in the staging list and in its bin's count (R141). -/
def State.staged (s : State) (t : Nat) (e : Item) (l : Loan) : State :=
  ((s.putItem t { e with state := .returned l s.loans.today }).modReturns fun r =>
    { r with staging := r.staging ++ [{ item := t, bin := e.bin, scanDay := s.loans.today, age := 0 }] }).modBin e.bin
      fun r => { r with staged := r.staged + 1 }

/-- A RETURNED entry gone, from the staging list and from its bin's counts too (R148). -/
def State.unstaged (s : State) (t : Nat) (e : Item) : State :=
  ((s.removeItem t).modReturns fun r => { r with staging := r.staging.filter fun x => ¬ x.item = t }).modBin e.bin
    fun b => { b with staged := b.staged - 1 }

/-- A neutral law that every update of a command keeps too. -/
structure Lawful (K : State → Prop) : Prop extends Neutral K where
  leave : ∀ {s : State} {l : Nat}, Kept K s → l < 6 →
    K ((s.removeLift l .off).modLift l fun r => { r with answerTimer := none })
  bar : ∀ {s : State} (ls : List Nat) (cause : BarCause), Kept K s → (∀ l ∈ ls, l < 6) → K (s.barLifts ls cause)
  enter : ∀ {s : State} {l : Nat}, Kept K s → l < 6 → (s.lift l).word = .ask → K (s.enterRotation l)
  ask : ∀ {s : State} {l : Nat} (x : Lift → Option Nat), Kept K s → l < 6 → (s.lift l).word.member = false →
    K (s.modLift l fun r => { r with word := .ask, answerTimer := x r })
  fail : ∀ {s : State} {l : Nat}, Kept K s → l < 6 → (s.lift l).word = .ask ∨ (s.lift l).answerTimer.isSome = true →
    K (s.modLift l Lift.unasked)
  create : ∀ {s : State} {b : Nat} {home : Slot} (st : BinState), Kept K s → s.bin b = none → s.slotClaimed home = false →
    K (s.putBin b { home, state := st, target := none, staged := 0, pending := false, itemRefs := 0 })
  remove : ∀ {s : State} {b : Nat} {r : Bin}, Kept K s → s.bin b = some r → r.itemRefs = 0 → K (s.delBin b)
  count : ∀ {s : State} {t : Nat} {e : Item}, Kept K s → s.item t = none → (s.bin e.bin).isSome = true →
    e.state.word ≠ .returned → K (s.createItem t e)
  reword : ∀ {s : State} {t : Nat} {e : Item} (st : ItemState), Kept K s → s.item t = some e → e.state.word ≠ .returned →
    st.word ≠ .returned → K (s.putItem t { e with state := st })
  stage : ∀ {s : State} {t : Nat} {e : Item} (l : Loan), Kept K s → s.item t = some e → e.state.word ≠ .returned →
    s.returns.staging.length < Config.stagingCapacity → s.stagedCount e.bin < Config.stagedMax → K (s.staged t e l)
  unstage : ∀ {s : State} {t : Nat} {e : Item}, Kept K s → s.item t = some e → e.state.word = .returned →
    K (s.unstaged t e)
  older : ∀ {s : State} (x : Option Nat), Kept K s →
    K (s.modReturns fun r => { staging := r.staging.map StageEntry.older, minuteTimer := x })
  settled : ∀ {s : State}, Kept K s → K s.settleBlocks
  blank : ∀ {s : State}, Kept K s → K s.blank

/-- A law holds together with what the words of the lifts are. -/
theorem Neutral.and_words {K : State → Prop} (h : Neutral K) (w : Nat → Word) :
    Neutral fun s => K s ∧ ∀ l, (s.lift l).word = w l where
  alike hs ha := ⟨h.alike hs.1 ha, fun l => (ha.words l).trans (hs.2 l)⟩
  bin b f ht hs hf := ⟨h.bin b f ht hs.1 hf, fun l => by rw [State.modBin_lift]; exact hs.2 l⟩
  uncount ht hs he hw := ⟨h.uncount ht hs.1 he hw, fun l => by rw [State.removeItem_lift]; exact hs.2 l⟩
  pass ht hs hl hm := ⟨h.pass ht hs.1 hl hm, hs.2⟩

/-- The truth is a neutral law. -/
theorem Neutral.trivial : Neutral fun _ => True where
  alike _ _ := ⟨⟩
  bin _ _ _ _ _ := ⟨⟩
  uncount _ _ _ _ := ⟨⟩
  pass _ _ _ _ := ⟨⟩

namespace Kept

variable {K : State → Prop} {s : State}

/-- The words of the lifts outlast what keeps every neutral law. -/
theorem words_of {f : State → State} (h : Kept K s) (hf : ∀ {L : State → Prop}, Kept L s → Kept L (f s)) (l : Nat) :
    ((f s).lift l).word = (s.lift l).word :=
  (hf ⟨h.neutral.and_words fun l => (s.lift l).word, h.tidy, h.law, fun _ => rfl⟩).law.2 l

/-! ## Lifts -/

theorem tidy_setLift (ht : s.Tidy) (l : Nat) (f : Lift → Lift) : (s.modLift l f).Tidy :=
  { ht with lifts := Tab.canonical_set _ _ _ _ ht.lifts }

theorem tidy_forEachLift (ht : s.Tidy) (ls : List Nat) (f : Nat → Lift → Lift) :
    (Machine.forEach ls (fun k s => s.modLift k (f k)) s).Tidy :=
  forEach_induct State.Tidy _ (fun k _ h => tidy_setLift h k (f k)) ls s ht

theorem tidy_setPointer (ht : s.Tidy) (n : Nat) : (s.modPool fun p => { p with pointer := n }).Tidy := { ht with }

theorem tidy_removeLift (ht : s.Tidy) (l : Nat) (w : Word) : (s.removeLift l w).Tidy := by
  unfold State.removeLift
  split
  · exact tidy_setLift ht l _
  · exact tidy_setPointer (tidy_forEachLift (tidy_setLift ht l _) allLifts _) _

theorem tidy_enterRotation (ht : s.Tidy) (l : Nat) : (s.enterRotation l).Tidy := by
  unfold State.enterRotation
  exact tidy_setLift (tidy_setLift (tidy_forEachLift ht allLifts _) l _) l _

/-- A barred lift's carries are stranded: the law goes on from where the rotation has been left. -/
theorem barCarries (h : Kept K s) (cause : BarCause) (l : Nat) : Kept K (State.barCarries cause l s) := by
  unfold State.barCarries
  dsimp only
  exact ((h.liftWork l _ (ht := fun _ hn => by cases hn)).forEach _ _ fun c _ h => h.strandCarry c).notice _

/-- Barring keeps the tables canonical, whatever the rotation's law (the law of the truth is neutral). -/
theorem tidy_barLifts (ht : s.Tidy) (ls : List Nat) (cause : BarCause) : (s.barLifts ls cause).Tidy := by
  have removed : (Machine.forEach (s.bySeqDown ls) (fun l s => s.removeLift l .bar) s).Tidy :=
    forEach_induct State.Tidy _ (fun l _ h => tidy_removeLift h l .bar) _ _ ht
  have told : Kept (fun _ => True) (State.tellWords (Machine.forEach (s.bySeqDown ls) (fun l s => s.removeLift l .bar) s) s) :=
    tellWords ⟨Neutral.trivial, removed, ⟨⟩⟩ s
  exact (told.forEach ls (State.barCarries cause) fun l _ h => h.barCarries cause l).oweDrain.tidy

variable (hK : Lawful K)
include hK

theorem barLifts (h : Kept K s) (ls : List Nat) (cause : BarCause) (hl : ∀ l ∈ ls, l < 6) : Kept K (s.barLifts ls cause) :=
  ⟨h.neutral, tidy_barLifts h.tidy ls cause, hK.bar ls cause h hl⟩

omit hK in
theorem mem_allLifts_filter {p : Nat → Bool} {l : Nat} (h : l ∈ allLifts.filter p) : l < 6 := by
  simpa [allLifts] using (List.mem_filter.mp h).1

theorem liftsShut (h : Kept K s) (z : Nat) : Kept K (s.liftsShut z) := by
  unfold State.liftsShut
  dsimp only
  split
  · split
    · exact h
    · exact h.barLifts hK _ _ fun _ => mem_allLifts_filter
  · exact h.work _

theorem barHeld (h : Kept K s) : Kept K s.barHeld := by
  unfold State.barHeld
  split
  · exact h
  · dsimp only
    split
    · exact h.work _
    · exact (h.work _).barLifts hK _ _ fun _ => mem_allLifts_filter

theorem askLift (h : Kept K s) {l : Nat} (hl : l < 6) (hj : s.judgeJoin l = none) : Kept K (s.askLift l) := by
  unfold State.askLift
  dsimp only
  have given := h.forEach (s.lift l).givenUp (State.giveUpCarry l) fun c _ h => h.giveUpCarry l c
  have word := h.words_of (f := Machine.forEach (s.lift l).givenUp (State.giveUpCarry l))
    (fun h => h.forEach _ _ fun c _ h => h.giveUpCarry l c) l
  have out : (s.lift l).word.member = false := by
    unfold State.judgeJoin at hj
    by_contra hm
    rw [if_pos (.inr (.inl (by simpa using hm)))] at hj
    cases hj
  refine oweScan (sendMember ⟨h.neutral, tidy_setLift given.tidy l _, ?_⟩ l)
  exact hK.ask _ given hl (by rw [word]; exact out)

theorem releaseLift (h : Kept K s) {l : Nat} (hl : l < 6) : Kept K (s.releaseLift l) :=
  tellWords ⟨h.neutral, tidy_setLift (tidy_removeLift h.tidy l .off) l _, hK.leave h hl⟩ s

theorem admitLift (h : Kept K s) {l : Nat} (hl : l < 6) (hw : (s.lift l).word = .ask) : Kept K (s.admitLift l) :=
  oweScan (tellWords ⟨h.neutral, tidy_enterRotation h.tidy l, hK.enter h hl hw⟩ s)

theorem failJoin (h : Kept K s) {l : Nat} (hl : l < 6) (cause : JoinCause)
    (hw : (s.lift l).word = .ask ∨ (s.lift l).answerTimer.isSome = true) : Kept K (s.failJoin l cause) :=
  notice (sendMember ⟨h.neutral, tidy_setLift h.tidy l Lift.unasked, hK.fail h hl hw⟩ l) _

theorem takeFitness (h : Kept K s) {l : Nat} (hl : l < 6) (fit : Bool) : Kept K (s.takeFitness l fit) := by
  have alone : ∀ k ∈ [l], k < 6 := by simpa using hl
  unfold State.takeFitness
  split
  · next hw => exact h.admitLift hK hl hw
  · next hw => exact h.failJoin hK hl _ (.inl hw)
  · exact h.barLifts hK _ _ alone
  · exact h.barLifts hK _ _ alone
  all_goals exact h

omit hK in
theorem endCarry (h : Kept K s) (l : Nat) (c : Carry) : Kept K (s.endCarry l c) := by
  have ended := h.liftWork l fun r => { r with carries := r.carries.filter fun d => ¬ d.tag = c.tag }
  have out : Kept K (if c.late then State.setBinState (s.modLift l fun r => { r with
      carries := r.carries.filter fun d => ¬ d.tag = c.tag }) c.bin .out
    else s.modLift l fun r => { r with carries := r.carries.filter fun d => ¬ d.tag = c.tag }) := by
    split
    · exact ended.setBinState _ _
    · exact ended
  have arrived {t : State} (ht : Kept K t) : Kept K (match c.leg with
      | .up => t.upArrived c.ref c.bin c.station
      | .down => t.downArrived c.ref c.bin c.aisle) := by
    split
    · exact ht.upArrived _ _ _
    · exact ht.downArrived _ _ _
  unfold State.endCarry
  dsimp only
  refine oweDrain (oweScan ?_)
  split
  · next hlate =>
    rw [if_pos hlate] at out
    exact (arrived out).notice _
  · next hlate =>
    rw [if_neg hlate] at out
    exact arrived out

omit hK in
theorem takeCarried (h : Kept K s) (l tag : Nat) : Kept K (s.takeCarried l tag) := by
  unfold State.takeCarried
  split
  · exact h.endCarry l _
  · exact h.liftWork l _

theorem missCarry (h : Kept K s) {l : Nat} (hl : l < 6) (c : Carry) : Kept K (s.missCarry l c) :=
  (h.notice _).barLifts hK _ _ (by simpa using hl)

/-! ## Zones and lines -/

theorem leaveClear (h : Kept K s) (z : Nat) : Kept K (s.leaveClear z) :=
  (h.forEach _ _ fun st _ h => h.stationShut st).liftsShut hK z

theorem closeFromClear (h : Kept K s) (z : Nat) : Kept K (s.closeFromClear z) := ((h.zoneTo z _).leaveClear hK z).feedback z
theorem stopFromClear (h : Kept K s) (z : Nat) : Kept K (s.stopFromClear z) :=
  ((h.zoneTo z _).leaveClear hK z).beginStopping z

theorem shutdown (h : Kept K s) (z : Nat) (c : ZoneCause) : Kept K (s.shutdown z c) := by
  unfold State.shutdown
  split
  · split
    · exact (h.giveCause z c).closeFromClear hK z
    · exact (h.giveCause z c).stopFromClear hK z
  · split
    · exact (h.giveCause z c).enterClosing z
    · exact (h.giveCause z c).enterStopping z
  · exact (h.giveCause z c).enterClosing z
  all_goals exact h

theorem handAlarm (h : Kept K s) (z : Nat) : Kept K (State.handAlarm z s) := by
  unfold State.handAlarm
  dsimp only
  split
  · exact h
  · split
    · split
      · exact (h.modZone z _).shutdown hK z _
      · exact h.modZone z _
    · exact h.modZone z _

omit hK in
theorem settleKey (h : Kept K s) (n : Nat) (before : Bool) : Kept K (s.settleKey n before) := by
  unfold State.settleKey
  split
  · split
    · exact h
    · exact h.modLine n _
  · split
    · exact h.modLine n _
    · exact h

theorem lineChanged (h : Kept K s) (n : Nat) (before : Bool) : Kept K (s.lineChanged n before) := by
  unfold State.lineChanged
  dsimp only
  split
  · exact (h.settleKey n before).handAlarm hK n
  · split
    · exact (h.settleKey n before).feedback _
    · split
      · exact (h.settleKey n before).feedback _
      · exact h.settleKey n before

omit hK in
theorem samplePin (h : Kept K s) (n : Nat) : Kept K (s.samplePin n) := by
  unfold State.samplePin
  split
  · split
    · exact h.modLine n _
    · exact h.modLine n _
    · exact h.modLine n _
    · exact h.modLine n _
    · have sampled := h.modLine n fun r => { r with pin := Config.floatingPin s.floats }
      exact sampled.update { sampled.tidy with }
  · exact h

theorem takeLine (h : Kept K s) (n : Nat) : Kept K (s.takeLine n) := (h.samplePin n).lineChanged hK n _

omit hK in
theorem setWiring (h : Kept K s) (n : Nat) (w : Wiring) : Kept K (s.setWiring n w) := h.modLine n _

theorem sealZone (h : Kept K s) (z : Nat) : Kept K (s.seal z) := by
  unfold State.seal
  split
  · exact (h.giveCause z _).closeFromClear hK z
  · exact ((h.faultRequest _ _).modZone z _).enterClosing z
  · exact h.enterClosing z
  · exact (h.giveCause z _).enterClosing z
  · exact (h.giveCause z _).enterClosing z
  all_goals exact h

omit hK

theorem shutterFault (h : Kept K s) (z : Nat) (d : ShutterDirection) : Kept K (s.shutterFault z d) :=
  (h.notice _).zoneTo z _

theorem faultUnready (h : Kept K s) (z : Nat) : Kept K (s.faultUnready z) := by
  unfold State.faultUnready
  dsimp only
  split
  · exact h.offlineRequest _
  · exact h.faultRequest _ _

/-! ## Reports of cranes -/

theorem rejectReport (h : Kept K s) (a : Nat) : Kept K (s.rejectReport a) := h.modCrane a _
theorem unmatchedReport (h : Kept K s) (a : Nat) : Kept K (s.unmatchedReport a) := h.modCrane a _
theorem recordPlace (h : Kept K s) (a : Nat) (p : Point) (load : Option Nat) : Kept K (s.recordPlace a p load) :=
  h.modCrane a _

theorem tellStoreLost (h : Kept K s) (j : Job) : Kept K (s.tellStoreLost j) := by
  unfold State.tellStoreLost
  split
  · exact h.storeLost _
  all_goals exact h

theorem tellFetchLost (h : Kept K s) (j : Job) (st : MemberState) : Kept K (s.tellFetchLost j st) := by
  unfold State.tellFetchLost
  split
  · exact h.fetchLost _ st
  all_goals exact h

theorem endOrphan (h : Kept K s) (a : Nat) (j : Job) : Kept K (State.endOrphan a j s) :=
  (((h.modCrane a _).recordsFreed).setBinState _ _).tellStoreLost j

theorem judgeLoad (h : Kept K s) (a : Nat) : Kept K (s.judgeLoad a) := by
  unfold State.judgeLoad
  dsimp only
  split
  · exact h.forEach _ _ fun j _ h => h.endOrphan a j
  · split
    · exact h
    · split
      · exact h.requestRecovery _ _ _ _ (h.leaveAllLists _)
      · exact h.notice _

theorem craneReady (h : Kept K s) (a : Nat) (p : Point) (load : Option Nat) : Kept K (s.craneReady a p load) :=
  (((h.recordPlace a p load).setCraneState a _).judgeLoad a).dispatchTest a

theorem craneAfterDone (h : Kept K s) (a : Nat) (f : Flight) (p : Option Point) (load : Option Nat) :
    Kept K (s.craneAfterDone a f p load) := by
  have placed : Kept K (match p with
      | some p => s.recordPlace a p load
      | none => s.rejectReport a) := by
    split
    · exact h.recordPlace a _ load
    · exact h.rejectReport a
  unfold State.craneAfterDone
  split
  · exact h.craneReady a _ load
  · exact (h.craneOffline a).rejectReport a
  · exact h.recordPlace a _ load
  · exact h.rejectReport a
  · dsimp only
    split
    · exact placed.notice _
    · exact placed
  all_goals exact h

theorem disposeParked (h : Kept K s) (a : Nat) (j : Job) (own : Bool) : Kept K (s.disposeParked a j own) := by
  have freed := h.modCrane a fun c => { c with flight := none }
  unfold State.disposeParked
  dsimp only
  split
  · have back := (freed.setBinState j.bin .reserved).requeue a j
    unfold State.removeCancelled
    split
    · split
      · exact (back.cancelFetch _ _).settleOrder _
      · exact back
    all_goals exact back
  · exact ((freed.recordsFreed).setBinState _ _).tellFetchLost j _
  · split
    · exact freed.requeue a j
    · exact (freed.requeue a _).leaveLists a _
  · split
    · exact ((freed.recordsFreed).setBinState _ _).tellStoreLost j
    · exact freed.requeue a j
  · exact (freed.setBinState _ _).requeue a j
  · exact (((freed.releaseTarget _).setBinState _ _).requeue a _).notice _

theorem takeParked (h : Kept K s) (a : Nat) (p : Option Point) (load : Option Nat) : Kept K (s.takeParked a p load) := by
  have placed : Kept K (match p with
      | some p => s.recordPlace a p load
      | none => (s.modCrane a fun c => { c with place := none }).rejectReport a) := by
    split
    · exact h.recordPlace a _ load
    · exact (h.modCrane a _).rejectReport a
  unfold State.takeParked
  dsimp only
  split
  · split
    · exact placed.disposeParked a _ _
    · exact placed
  · split
    · exact (placed.disposeParked a _ _).setCraneState a _
    · exact placed.setCraneState a _

theorem takeStatus (h : Kept K s) (a : Nat) (ready : Bool) (p : Option Point) (load : Option Nat) :
    Kept K (s.takeStatus a ready p load) := by
  unfold State.takeStatus
  split
  · split
    · unfold State.statusReady
      split
      · split
        · exact (h.recordPlace a _ load).setCraneState a _
        · exact h.craneReady a _ load
      · exact h.craneReady a _ load
      · exact h.rejectReport a
      · exact h.rejectReport a
      · split
        · exact h.recordPlace a _ load
        · exact h.craneReady a _ load
      · exact h
    · unfold State.statusInvalid
      split
      · exact (h.craneOffline a).rejectReport a
      · exact (h.craneOffline a).rejectReport a
      · exact (h.craneOffline a).rejectReport a
      · exact h.rejectReport a
      · exact h.rejectReport a
      · exact h
  · unfold State.statusNotReady
    split
    · exact h
    · exact h
    all_goals exact h.craneOffline a

theorem takeInfeed (h : Kept K s) (a b : Nat) : Kept K (s.takeInfeed a b) := by
  unfold State.takeInfeed
  split
  · exact h.rejectReport a
  · split
    · exact h.rejectReport a
    · split
      · exact h
      · split
        · exact h.requestRecovery a b _ _ h
        · exact h.rejectReport a

theorem endFlight (h : Kept K s) (a : Nat) (cause : ShiftCause) : Kept K (s.endFlight a cause) := by
  unfold State.endFlight
  split
  · next f _ =>
    have ended := ((h.modCrane a fun c => { c with flight := none }).recordsFreed).setBinState f.job.bin .stranded
    unfold State.endFailed
    dsimp only
    split
    · exact ended.tellFetchLost _ _
    · exact ended.tellStoreLost _
    · exact (ended.releaseTarget _).notice _
  · exact h

theorem takeFault (h : Kept K s) (a code : Nat) (named : Bool) : Kept K (s.takeFault a code named) := by
  have faulted := (h.modCrane a fun c => { c with faultCode := some code }).setCraneState a .faulted
  unfold State.takeFault
  split
  · exact h.rejectReport a
  · dsimp only
    split
    · exact ((faulted.unmatchedReport a).endFlight a _).notice _
    · exact (faulted.endFlight a _).notice _

theorem missDeadline (h : Kept K s) (a : Nat) (f : Flight) : Kept K (s.missDeadline a f) :=
  ((h.modCrane a _).setCraneState a _).notice _

theorem flushJob (h : Kept K s) (a : Nat) (j : Job) : Kept K (State.flushJob a j s) := by
  have freed := (h.modCrane a fun c => c.setQueue j.cls ((c.queue j.cls).erase j)).recordsFreed
  unfold State.flushJob
  dsimp only
  split
  · exact (freed.becomeStored _).tellFetchLost j _
  · exact (freed.setBinState _ _).tellStoreLost j
  · exact ((freed.releaseTarget _).becomeStored _).notice _

/-! ## Slots that bins come to claim -/

theorem slotClaimed_iff (x : Slot) : s.slotClaimed x = true ↔ ∃ p ∈ s.store.bins, p.2.claims x := by
  simp [State.slotClaimed, Bin.claims]

/-- A bin whose home slot becomes its target slot claims no further slot (R68). -/
theorem moveHome (h : Kept K s) (b : Nat) : Kept K (s.moveHome b) := by
  refine h.binWork b _ (hc := fun r x hx => ?_)
  rcases hx with hx | hx
  · cases ht : r.target with
    | none => exact .inl (by simpa [ht] using hx)
    | some y => exact .inr (by rw [ht]; simpa [ht] using hx)
  · cases hx

theorem completeJob (h : Kept K s) (a : Nat) (j : Job) : Kept K (s.completeJob a j) := by
  unfold State.completeJob
  split
  · dsimp only
    split
    · exact (h.joinFront a _).fetchDone _ _
    all_goals exact h.joinFront a _
  · dsimp only
    split
    · exact (h.becomeStored _).binHome _
    all_goals exact h.becomeStored _
  · exact ((h.moveHome _).becomeStored _).notice _

theorem takeDone (h : Kept K s) (a tag : Nat) (p : Option Point) (load : Option Nat) : Kept K (s.takeDone a tag p load) := by
  unfold State.takeDone
  split
  · split
    · exact (((h.modCrane a _).completeJob a _).recordsFreed).craneAfterDone a _ p load
    · exact h.unmatchedReport a
  · exact h.unmatchedReport a

/-- A bin that is to be shifted claims a slot that none claims (R33). -/
theorem queueRelocate (h : Kept K s) {b : Nat} {x : RawSlot} {t : Slot} (hj : s.judgeShift b x = .inl t) :
    Kept K (s.queueRelocate b t) := by
  have free : s.slotClaimed t = false := by
    unfold State.judgeShift at hj
    split at hj
    · cases hj
    · split at hj
      · cases hj
      · split at hj
        · cases hj
        · split at hj
          · cases hj
          · next hc =>
            split at hj
            · cases hj
            · cases hj
              simpa using hc
  refine (h.rebin b (fun r => { r with state := .reserved, target := some t }) fun r _ => ⟨rfl, rfl, fun y hy => ?_⟩).appendJob _ _
  rcases hy with hy | hy
  · exact .inl (.inl hy)
  · cases hy
    exact .inr free

/-! ## Orders and loans -/

theorem removeWaiting (h : Kept K s) (o : Order) : Kept K (s.removeWaiting o) :=
  (((((h.giveUpItems _ _ _).clearPending o).modStation _ _).freeRecord _).oweAdmission).oweWaiting

theorem finishWindow (h : Kept K s) (st : Nat) (l : LaneBin) : Kept K (s.finishWindow st l) := by
  have settled : Kept K ((s.markLane st l.bin .outbound).settleItems l.ref) := by
    have marked := h.markLane st l.bin .outbound
    unfold State.settleItems
    split
    · split
      · exact marked.giveUpItems _ _ _
      · exact marked.countNotTaken _ _
    · exact marked
  unfold State.finishWindow
  dsimp only
  split
  · exact ((settled.setMember _ _).toDownLeg _ _ _).settleOrder _
  · exact (settled.toDownLeg _ _ _).settleOrder _

theorem takeBinDone (h : Kept K s) (st b : Nat) : Kept K (s.takeBinDone st b) := by
  unfold State.takeBinDone
  split
  · split
    · exact h.finishWindow st _
    · exact h.modStation st _
  · exact h.modStation st _

theorem expireGather (h : Kept K s) (o : Order) : Kept K (s.expireGather o) :=
  ((h.completeGather _ _).notice _).settleOrder _

theorem tidy_putItem (ht : s.Tidy) (t : Nat) (e : Item) : (s.putItem t e).Tidy :=
  { ht with items := Tab.wf_put _ _ _ ht.items }

theorem tidy_modReturns (ht : s.Tidy) (f : ReturnUnit → ReturnUnit) : (s.modReturns f).Tidy := { ht with }

theorem tidy_createItem (ht : s.Tidy) (t : Nat) (e : Item) : (s.createItem t e).Tidy :=
  tidy_modBin (tidy_putItem ht t e) _ _

theorem returnException (h : Kept K s) (st tag t : Nat) (r : Reason) : Kept K (s.returnException st tag t r) :=
  (h.notice _).sendVerdict _ _ _ _

include hK

/-- An item that is judged acceptable has a bin and no entry yet (R86). -/
theorem takeItem (h : Kept K s) (number : Nat) (earlier : List Nat) (i : OrderItem) :
    Kept K (if (s.judgeItem earlier i).isNone then
      s.createItem i.item.toNat { bin := i.bin.toNat, category := i.category.toNat, state := .requested number }
    else s) := by
  split
  · next hj =>
    unfold State.judgeItem at hj
    split at hj
    · cases hj
    · split at hj
      · cases hj
      · split at hj
        · cases hj
        · next hb =>
          split at hj
          · cases hj
          · next hi =>
            have home : (s.bin i.bin.toNat).isSome = true := by
              unfold State.judgeItemBin at hb
              cases hs : s.bin i.bin.toNat with
              | none => simp [State.binState, hs] at hb
              | some r => rfl
            exact ⟨h.neutral, tidy_createItem h.tidy _ _,
              hK.count h (by simpa using hi) home (by exact nofun)⟩
  · exact h

theorem takeItems (h : Kept K s) (number : Nat) (items : List OrderItem) (earlier : List Nat) :
    Kept K (State.takeItems number items earlier s).1 := by
  induction items generalizing earlier s with
  | nil => exact h
  | cons i is ih => exact ih (h.takeItem hK number earlier i) _

theorem takeOrder (h : Kept K s) (tag number address patron : Nat) (items : List OrderItem) :
    Kept K (s.takeOrder tag number address patron items).1 := by
  unfold State.takeOrder
  split
  · exact h
  · dsimp only
    split
    · exact h
    · exact ((h.takeItems hK number items []).placeOrder _ _).oweAdmission

theorem reword (h : Kept K s) {t : Nat} {e : Item} (st : ItemState) (he : s.item t = some e)
    (hw : e.state.word ≠ .returned) (hs : st.word ≠ .returned) : Kept K (s.putItem t { e with state := st }) :=
  ⟨h.neutral, tidy_putItem h.tidy t _, hK.reword st h he hw hs⟩

theorem takeItemOut (h : Kept K s) (st tag t : Nat) : Kept K (s.takeItemOut st tag t) := by
  unfold State.takeItemOut
  split
  · exact h.sendVerdict _ _ _ _
  · split
    · exact h.sendVerdict _ _ _ _
    · next e num hq =>
      split
      · exact h.sendVerdict _ _ _ _
      · next loan hl =>
        obtain ⟨hi, hr, _⟩ := State.requestedAt_eq_some_iff.mp hq
        have lent : loan.word ≠ .returned := by
          unfold State.newLoan at hl
          dsimp only at hl
          split at hl <;> cases hl <;> exact nofun
        exact (((h.reword hK loan hi (by rw [hr]; exact nofun) lent).countTaken num).notice _).sendVerdict _ _ _ _

theorem stageItem (h : Kept K s) (st tag t : Nat) {e : Item} (l : Loan) (he : s.item t = some e)
    (hw : e.state.word ≠ .returned) (hf : s.returns.staging.length < Config.stagingCapacity)
    (hb : s.stagedCount e.bin < Config.stagedMax) : Kept K (s.stageItem st tag t e l) := by
  have staged : Kept K (s.staged t e l) :=
    ⟨h.neutral, tidy_modBin (tidy_modReturns (tidy_putItem h.tidy t _) _) _ _, hK.stage l h he hw hf hb⟩
  exact ((((staged.extendList e.bin t).notice _).sendVerdict _ _ _ _).handStaging).oweRestore _

theorem takeItemIn (h : Kept K s) (st tag t : Nat) : Kept K (s.takeItemIn st tag t) := by
  have loaned {e : Item} (l : Loan) (he : s.item t = some e) (hw : e.state.word ≠ .returned) :
      Kept K (s.returnLoan st tag t e l) := by
    unfold State.returnLoan
    split
    · exact h.sendVerdict _ _ _ _
    · next hf =>
      split
      · exact h.sendVerdict _ _ _ _
      · next hb => exact h.stageItem hK st tag t l he hw (by omega) (by omega)
  unfold State.takeItemIn
  split
  · exact h.sendVerdict _ _ _ _
  · split
    · exact h.returnException _ _ _ _
    · next he =>
      split
      · exact h.returnException _ _ _ _
      · exact h.returnException _ _ _ _
      · next hl => exact loaned _ he (by rw [hl]; exact nofun)
      · next hl => exact loaned _ he (by rw [hl]; exact nofun)

theorem takeIntoBin (h : Kept K s) (st tag t : Nat) : Kept K (s.takeIntoBin st tag t) := by
  unfold State.takeIntoBin
  split
  · exact h.sendVerdict _ _ _ _
  · split
    · next e r hi =>
      obtain ⟨item, returned⟩ : s.item t = some e ∧ e.state.word = .returned := by
        unfold State.insertable at hi
        split at hi
        · split at hi
          · split at hi
            · next hc => cases hi; exact ⟨by assumption, hc.2.1⟩
            · cases hi
          · cases hi
        · cases hi
      have unstaged : Kept K (s.unstaged t e) :=
        ⟨h.neutral, tidy_modBin (tidy_modReturns (tidy_removeItem h.tidy t) _) _ _, hK.unstage h item returned⟩
      exact (((unstaged.countTaken _).notice _).sendVerdict _ _ _ _).handStaging
    · exact h.sendVerdict _ _ _ _

theorem minutePassed (h : Kept K s) : Kept K s.minutePassed :=
  have older : Kept K (s.modReturns fun r =>
      { staging := r.staging.map StageEntry.older, minuteTimer := s.after Config.minute }) :=
    ⟨h.neutral, tidy_modReturns h.tidy _, hK.older _ h⟩
  older.oweRestore _

end Kept
end Sys2Proof.Machine
end

section
/-! What every command keeps: the WRITEs, the course of resets, and every command together. -/

namespace Sys2Proof.Machine

/-- What a reset makes of the tables below Zone Control, before it takes the cranes, stations and lifts one by one. -/
def State.settledTables (s : State) : State :=
  { s with
    ports := { s.ports with uQueue := [], dQueue := [], noticeSeq := 0 }
    store := { s.store with bins := s.store.bins.map fun p => (p.1, p.2.afterReset (retainedItems s.loans.items) p.1) }
    dispatch := { s.dispatch with jobTag := 0 }
    desk := { s.desk with orders := [], restoreNumber := 32768, holding := false, holdTimer := none, admissions := 0 }
    pool := { s.pool with pointer := 0, carryTag := 0, waitList := [] }
    loans := { s.loans with items := retainedItems s.loans.items }
    returns := { s.returns with minuteTimer := s.after Config.minute }
    mode := { s.mode with phase := none, timer := none, awaited := [], lastStaging := s.returns.staging.length, lastWaiting := 0 }
    resets := { s.resets with ending := none } }

theorem State.settleBlocks_eq (s : State) : s.settleBlocks =
    forEach allLifts (fun l s => s.sendMember l)
      (forEach allLifts (fun l s => s.modLift l Lift.afterReset)
        (forEach allStations (fun st s => s.modStation st Station.afterReset)
          (forEach allAisles (fun a s => s.modCrane a (Crane.afterReset (s.aisle a))) s.settledTables))) := rfl

/-- Bins keep their places in the table at a reset. -/
theorem wf_afterReset {t : Tab Bin} (f : Nat → Bin → Bin) (h : t.wf) : Tab.wf (t.map fun p => (p.1, f p.1 p.2)) := by
  rw [Tab.wf, List.pairwise_map]
  exact h

theorem tidy_settledTables {s : State} (h : s.Tidy) : s.settledTables.Tidy :=
  { h with
    bins := wf_afterReset (fun b r => r.afterReset (retainedItems s.loans.items) b) h.bins
    orders := .nil
    items := Tab.wf_filter _ _ h.items }

theorem tidy_settleBlocks {s : State} (h : s.Tidy) : s.settleBlocks.Tidy := by
  rw [State.settleBlocks_eq]
  have cranes : Kept (fun _ => True) _ := Kept.forEach ⟨Neutral.trivial, tidy_settledTables h, ⟨⟩⟩ allAisles
    (fun a s => s.modCrane a (Crane.afterReset (s.aisle a))) fun a _ h => h.modCrane a _
  have stations := cranes.forEach allStations (fun st s => s.modStation st Station.afterReset) fun st _ h =>
    h.modStation st _
  have lifts := Kept.tidy_forEachLift stations.tidy allLifts fun _ => Lift.afterReset
  exact (Kept.forEach (K := fun _ => True) ⟨Neutral.trivial, lifts, ⟨⟩⟩ allLifts _ fun l _ h => h.sendMember l).tidy

theorem tidy_blank {s : State} (h : s.Tidy) : s.blank.Tidy where
  addresses := ⟨.nil, by simp [State.blank, State.reset]⟩
  trafficDown := ⟨.nil, by simp [State.blank, State.reset]⟩
  trafficUp := ⟨.nil, by simp [State.blank, State.reset]⟩
  counters := ⟨.nil, by simp [State.blank, State.reset]⟩
  aisles := ⟨.nil, by simp [State.blank, State.reset]⟩
  bins := .nil
  cranes := ⟨.nil, by simp [State.blank, State.reset]⟩
  stations := ⟨.nil, by simp [State.blank, State.reset]⟩
  orders := .nil
  lifts := ⟨.nil, by simp [State.blank, State.reset]⟩
  items := .nil
  classes := ⟨.nil, by simp [State.blank, State.reset]⟩
  zones := ⟨.nil, by simp [State.blank, State.reset]⟩
  lines := Tab.canonical_mapSet _ _ _ h.lines.1
  pulls := ⟨.nil, by simp [State.blank]⟩

namespace Kept

variable {K : State → Prop} {s t : State}

/-! ## WRITE -/

/-- The entries of a WRITE keep what the application of each keeps. -/
theorem writeEntries {α : Type} {apply : Nat → α → State → Judged}
    (ha : ∀ i e s t cs, Kept K s → apply i e s = .inl (t, cs) → Kept K t) (size : Nat) (es : List α) (i : Nat)
    (h : Kept K s) : Kept K (Machine.writeEntries size apply es i s).state := by
  induction es generalizing i s with
  | nil => exact h
  | cons e es ih =>
    unfold Machine.writeEntries
    split
    · exact h
    · split
      · exact h
      · next he => exact ih _ (ha _ _ _ _ _ h he)

theorem judgeAddress {a : Nat} {e : AddressEntry} {cs : List Clamp} (h : Kept K s)
    (hj : Machine.judgeAddress a e s = .inl (t, cs)) : Kept K t := by
  have applied (v : AddrEntry) : Kept K (s.applyAddress a v) := by
    unfold State.applyAddress
    dsimp only
    split
    · exact (h.setAddr a v).oweRestore _
    · exact h.setAddr a v
  unfold Machine.judgeAddress at hj
  split at hj
  · cases hj
  · split at hj
    · cases hj
    · split at hj
      · cases hj
      · split at hj
        · cases hj; exact applied _
        · split at hj <;> cases hj
          exact applied _

theorem setTraffic (h : Kept K s) (i : Nat) (v : Treatment) : Kept K (s.setTraffic i v) := by
  unfold State.setTraffic
  split
  · exact h.update { h.tidy with trafficDown := Tab.canonical_set _ _ _ _ h.tidy.trafficDown }
  · exact h.update { h.tidy with trafficUp := Tab.canonical_set _ _ _ _ h.tidy.trafficUp }

theorem judgeTraffic {i v : Nat} {cs : List Clamp} (h : Kept K s) (hj : Machine.judgeTraffic i v s = .inl (t, cs)) :
    Kept K t := by
  unfold Machine.judgeTraffic at hj
  split at hj <;> cases hj
  exact h.setTraffic i _

theorem judgeCounter {i v : Nat} {cs : List Clamp} (h : Kept K s) (hj : Machine.judgeCounter i v s = .inl (t, cs)) :
    Kept K t := by
  unfold Machine.judgeCounter at hj
  split at hj <;> cases hj
  exact h.setCounter i 0

theorem judgeParam {i v : Nat} {cs : List Clamp} (h : Kept K s) (hj : Machine.judgeParam i v s = .inl (t, cs)) :
    Kept K t := by
  unfold Machine.judgeParam at hj
  split at hj
  case h_12 =>
    split at hj <;> cases hj
    exact h.modParams _
  all_goals
    cases hj
    try exact h.modParams _

theorem paramsFollow (h : Kept K s) (n k : Nat) : Kept K (s.paramsFollow n k) := by
  have held : Kept K (if touches n k 0 0 then s.oweHold else s) := h.owed _ State.oweHold h.oweHold
  have passed := held.owed (touches n k 6 7) State.restorePass held.restorePass
  exact passed.owed _ State.thresholdTest passed.thresholdTest

theorem judgeAisle {a : Nat} {e : AisleEntry} {cs : List Clamp} (h : Kept K s)
    (hj : Machine.judgeAisle a e s = .inl (t, cs)) : Kept K t := by
  unfold Machine.judgeAisle at hj
  split at hj
  · cases hj
  · split at hj <;> cases hj
    have stored := (h.setAisle a (aisleRecord e)).refill a
    unfold State.applyAisle
    dsimp only
    split
    · exact stored
    · exact stored.oweDrives _

theorem judgeStation {st : Nat} {e : StationEntry} {cs : List Clamp} (h : Kept K s)
    (hj : Machine.judgeStation st e s = .inl (t, cs)) : Kept K t := by
  unfold Machine.judgeStation at hj
  split at hj
  · cases hj
  · dsimp only at hj
    split at hj
    · cases hj
    · split at hj <;> cases hj
      exact (h.modStation st _).oweRestore _

theorem judgeLift {l : Nat} {e : LiftEntry} {cs : List Clamp} (h : Kept K s)
    (hj : Machine.judgeLift l e s = .inl (t, cs)) : Kept K t := by
  unfold Machine.judgeLift at hj
  dsimp only at hj
  split at hj
  · cases hj
  · split at hj <;> cases hj
    exact (h.liftWork l _).oweScan

theorem judgeClass {c : Nat} {e : ClassEntry} {cs : List Clamp} (h : Kept K s)
    (hj : Machine.judgeClass c e s = .inl (t, cs)) : Kept K t := by
  unfold Machine.judgeClass at hj
  split at hj <;> cases hj
  exact h.setLendClass c _

theorem judgeZone {z : Nat} {e : ZoneEntry} {cs : List Clamp} (h : Kept K s)
    (hj : Machine.judgeZone z e s = .inl (t, cs)) : Kept K t := by
  unfold Machine.judgeZone at hj
  cases hj
  exact h.modZone z _

theorem tidy_putBin (ht : s.Tidy) (b : Nat) (r : Bin) : (s.putBin b r).Tidy :=
  { ht with bins := Tab.wf_put _ _ _ ht.bins }

theorem tidy_delBin (ht : s.Tidy) (b : Nat) : (s.delBin b).Tidy := { ht with bins := Tab.wf_del _ _ ht.bins }

/-- A present bin that is written over keeps its home slot or takes one that none claims (R34, R39). -/
theorem rewriteBin (h : Kept K s) {b : Nat} {r : Bin} (p : BinState) {home : Slot} (st : BinState)
    (hb : s.bin b = some r) (hh : ¬ (home ≠ r.home ∧ s.slotClaimed home = true)) : Kept K (s.rewriteBin b p home st) := by
  have written : Kept K (s.modBin b fun r => { r with home, state := st }) := by
    refine h.rebin b _ fun q hq => ⟨rfl, rfl, fun x hx => ?_⟩
    obtain rfl : r = q := by simpa [hb] using hq
    rcases hx with hx | hx
    · by_cases same : home = r.home
      · exact .inl (.inl (same.symm.trans hx))
      · exact .inr (hx ▸ by simpa using fun hc => hh ⟨same, hc⟩)
    · exact .inl (.inr hx)
  unfold State.rewriteBin
  dsimp only
  split
  · exact written.becomeStored b
  · exact written

variable (hK : Lawful K)
include hK

theorem judgeBin {b : Nat} {e : BinEntry} {cs : List Clamp} (h : Kept K s)
    (hj : Machine.judgeBin b e s = .inl (t, cs)) : Kept K t := by
  unfold Machine.judgeBin at hj
  split at hj
  · split at hj
    · next home st _ _ =>
      unfold judgeBinPresent at hj
      split at hj
      · next hb =>
        split at hj
        · cases hj
        · next hc =>
          cases hj
          have created : Kept K (s.putBin b
              { home, state := st, target := none, staged := 0, pending := false, itemRefs := 0 }) :=
            ⟨h.neutral, tidy_putBin h.tidy b _, hK.create st h hb (by simpa using hc)⟩
          unfold State.createBin
          dsimp only
          split
          · exact created.leaveAllLists b
          · exact created
      · next hb =>
        split at hj
        · cases hj
        · split at hj
          · cases hj
          · next hc => cases hj; exact h.rewriteBin _ _ hb hc
    · cases hj
  · unfold judgeBinAbsent at hj
    split at hj
    · cases hj; exact h
    · next hb =>
      split at hj
      · cases hj
      · split at hj
        · cases hj
        · next hr =>
          cases hj
          exact ⟨h.neutral, tidy_delBin h.tidy b, hK.remove h hb (by simpa using hr)⟩
  · cases hj

omit hK in
/-- A seeded item is a loan (R135). -/
theorem seedOf_loan {e : ItemEntry} {r : Item} (hs : seedOf e = some r) : r.state.word ≠ .returned := by
  unfold seedOf at hs
  dsimp only at hs
  split at hs
  · cases hs
  · split at hs <;> cases hs <;> exact nofun

theorem judgeItemEntry {i : Nat} {e : ItemEntry} {cs : List Clamp} (h : Kept K s)
    (hj : Machine.judgeItemEntry i e s = .inl (t, cs)) : Kept K t := by
  unfold Machine.judgeItemEntry at hj
  split at hj
  · split at hj
    · next hs =>
      unfold judgeSeed at hj
      split at hj
      · cases hj
      · next hb =>
        split at hj
        · cases hj
        · next hi =>
          split at hj <;> cases hj
          exact ⟨h.neutral, tidy_createItem h.tidy _ _,
            hK.count h (by simpa using hi) (by simpa [Option.isSome_iff_ne_none] using hb) (seedOf_loan hs)⟩
    · cases hj
  · unfold judgeWriteOff at hj
    split at hj
    · cases hj; exact h
    · next he =>
      split at hj
      · next hl => cases hj; exact h.removeItem he (by rw [hl]; exact nofun)
      · next hl => cases hj; exact h.removeItem he (by rw [hl]; exact nofun)
      · cases hj
      · cases hj
  · cases hj

theorem judgeLine {n : Nat} {e : LineEntry} {cs : List Clamp} (h : Kept K s)
    (hj : Machine.judgeLine n e s = .inl (t, cs)) : Kept K t := by
  unfold Machine.judgeLine at hj
  split at hj
  · split at hj <;> cases hj
    next sel pol out _ _ _ _ =>
    have stored := h.modLine n fun r => { r with selection := sel, polarity := pol, output := out }
    unfold State.applyLine
    dsimp only
    split
    · exact stored.lineChanged hK n _
    · exact (stored.samplePin n).lineChanged hK n _
  · cases hj

theorem judgePull {g v : Nat} {cs : List Clamp} (h : Kept K s) (hj : Machine.judgePull g v s = .inl (t, cs)) :
    Kept K t := by
  unfold Machine.judgePull at hj
  split at hj
  · cases hj
  · split at hj
    · cases hj; exact h
    · split at hj <;> cases hj
      refine (h.setPull g _).forEach _ _ fun n s h => ?_
      unfold State.repull
      split
      · exact h.takeLine hK n
      · exact h

/-! ## The course of resets -/

omit hK

theorem untimed (h : Kept K s) : Kept K s.untimed := by
  have lift : ∀ l, s.untimed.lift l = (s.lift l).untimed := fun l =>
    Tab.get_mapSet s.pool.lifts Lift.powerOn Lift.untimed l h.tidy.lifts.1 rfl
  refine h.alike { h.tidy with
    cranes := Tab.canonical_mapSet _ _ _ h.tidy.cranes.1
    orders := Tab.wf_mapVals s.desk.orders (fun o => { o with gatherTimer := none }) h.tidy.orders
    lifts := Tab.canonical_mapSet _ _ _ h.tidy.lifts.1
    zones := Tab.canonical_mapSet _ _ _ h.tidy.zones.1
    lines := Tab.canonical_mapSet _ _ _ h.tidy.lines.1 }
    ⟨rfl, rfl, rfl, fun l => by rw [lift]; rfl, fun l ha => ?_, rfl⟩
  rw [lift] at ha
  cases ha

theorem beginReset (h : Kept K s) (r : ResetRecord) (e : Option Nat) : Kept K (s.beginReset r e) :=
  have empty := (h.untimed.modPorts Ports.emptied).modResets fun c => { c with phase := .resetting, ending := e, record := r }
  empty.update { empty.tidy with }

theorem suspend (h : Kept K s) : Kept K s.suspend := by
  unfold State.suspend
  exact (h.untimed.modPorts _).modResets _


theorem resumeZone (h : Kept K s) (z : Nat) : Kept K (State.resumeZone z s) := by
  unfold State.resumeZone
  split
  · exact h
  · exact h
  · exact h.enterClosing z
  · exact h.enterClosing z
  · exact (h.modZone z _).feedback z
  · exact (h.modZone z _).feedback z
  · exact ((h.giveCause z _).enterStopping z).stoppingTest z

theorem resume (hK : Lawful K) (h : Kept K s) : Kept K s.resume := by
  have settled : Kept K s.settleBlocks := ⟨h.neutral, tidy_settleBlocks h.tidy, hK.settled h⟩
  have sampled := settled.forEach allLines (fun n s => s.samplePin n) fun n _ h => h.samplePin n
  have keyed := sampled.forEach allLines State.resumeKey fun n _ h => h.settleKey n false
  have alarmed (n : Notice) := (keyed.notice n).forEach allZones State.resumeAlarm fun z _ h => h.modZone z _
  exact ((alarmed _).forEach allZones State.resumeZone fun z _ h => h.resumeZone z).changeMode _ _

theorem takeRead (h : Kept K s) (tag table first count : Nat) : Kept K (s.takeRead tag table first count).1 := by
  unfold State.takeRead
  split
  · exact h
  · dsimp only
    split
    · exact h.modResets _
    · exact h

theorem handUp (h : Kept K s) (x : Queued) : Kept K (State.handUp x s) := (h.modPorts _).raiseIf _ _
theorem handDown (h : Kept K s) (x : Queued) : Kept K (State.handDown x s) := (h.modPorts _).raiseIf _ _

theorem handMsg (h : Kept K s) (m : UpMsg) : Kept K (State.handMsg m s) := by
  cases m with
  | notice n =>
    unfold State.handMsg
    exact (h.handUp _).modPorts _
  | holdoff ms => exact h.handUp _

/-- An event that closes keeps what its effects kept. -/
theorem closeEvent (h : Kept K t) (s : State) (a : Option Answer) : Kept K (s.closeEvent t a) := by
  have left : Kept K (s.eventLeaves t) := h.update { h.tidy with }
  have answered : Kept K ((s.eventLeaves t).handAnswer a) := by
    cases a with
    | none => exact left
    | some a => exact left.handUp _
  unfold State.closeEvent
  exact (answered.forEach _ _ fun m _ h => h.handMsg m).forEach _ _ fun x _ h => h.handDown x

theorem beginEvent (h : Kept K s) : Kept K s.beginEvent := h.work _

end Kept

/-! ## Every command -/

/-- A RENEW that is granted rewrites the loan of a LENT entry (R134). -/
theorem State.judgeRenew_renewed {s : State} {t : Nat} {e : Item} (h : s.judgeRenew t = .inl e) :
    ∃ f l m, s.item t = some f ∧ f.state = .lent l ∧ e = { f with state := .lent m } := by
  unfold State.judgeRenew at h
  split at h
  · cases h
  · split at h
    · cases h
    · next f hi =>
      split at h
      · next l hl =>
        dsimp only at h
        split_ifs at h
        exact ⟨f, l, _, hi, hl, (Sum.inl.inj h).symm⟩
      all_goals cases h

/-- `P` outlives events whose effects keep the law `K`, the hand-overs, and the course of resets. -/
structure Outlasts (K P : State → Prop) : Prop where
  lawful : Lawful K
  kept : ∀ {s : State}, P s → Kept K s
  close : ∀ {s u : State} (a : Option Answer), P s → Kept K u → P (s.closeEvent u a)
  raise : ∀ {s : State} (i : Nat), P s → P (s.raise i)
  up : ∀ {s : State} (x : Queued), P s → P (State.handUp x s)
  down : ∀ {s : State} (x : Queued), P s → P (State.handDown x s)
  ports : ∀ {s : State} (f : Ports → Ports), P s → P (s.modPorts f)
  resets : ∀ {s : State} (f : ResetControl → ResetControl), P s → (f s.resets).phase = s.resets.phase → P (s.modResets f)
  wiring : ∀ {s : State} (n : Nat) (w : Wiring), P s → P (s.setWiring n w)
  suspend : ∀ {s : State}, P s → s.running → P s.suspend
  beginReset : ∀ {s : State} (r : ResetRecord) (e : Option Nat), P s → P (s.beginReset r e)
  blank : ∀ {s : State}, P s → P s.blank
  power : ∀ {s : State} (f : ResetControl → ResetControl), P s → (f s.blank.resets).phase = .resetting →
    P (s.blank.modResets f)

namespace Outlasts

variable {K P : State → Prop} {s t : State}

/-- A command taken as an event. -/
theorem event (hP : Outlasts K P) (h : P s) {body : State → State} (hb : ∀ {u}, Kept K u → Kept K (body u))
    (he : s.live (s.event body) = .next t) : P t :=
  live_keeps P _ _ _ h (hP.close none h (hb (hP.kept h).beginEvent).settle) he

/-- A command taken as an event that answers a request. -/
theorem request (hP : Outlasts K P) (h : P s) {body : State → State × (State → Answer)}
    (hb : ∀ {u}, Kept K u → Kept K (body u).1) (he : s.live (s.request body) = .next t) : P t :=
  live_keeps P _ _ _ h (hP.close _ h (hb (hP.kept h).beginEvent).settle) he

theorem write (hP : Outlasts K P) (h : P s) {α : Type} {tag : BitVec 16} {size first : Nat}
    {apply : Nat → α → State → Judged} {es : List α}
    (ha : ∀ i e s t cs, Kept K s → apply i e s = .inl (t, cs) → Kept K t)
    (he : s.write tag size apply first es = .next t) : P t :=
  hP.request h (fun hu => hu.writeEntries ha size es first) he

theorem writeBarring (hP : Outlasts K P) (h : P s) {α : Type} {tag : BitVec 16} {size first : Nat}
    {apply : Nat → α → State → Judged} {es : List α}
    (ha : ∀ i e s t cs, Kept K s → apply i e s = .inl (t, cs) → Kept K t)
    (he : s.writeBarring tag size apply first es = .next t) : P t :=
  hP.request h (fun hu => ((hu.work _).writeEntries ha size es first).barHeld hP.lawful) he

/-- RESTART answers, and the part waits, or the command reset begins at once (R191). -/
theorem restart (hP : Outlasts K P) (h : P s) {tag : BitVec 16} (he : execRestart tag s = .next t) : P t := by
  have answered : P (s.answerRestart tag) := hP.close _ h (hP.kept h).beginEvent.settle
  have runs : (s.answerRestart tag).running := by
    rw [State.answerRestart, State.request, State.running, closeEvent_resets]
  refine live_keeps P _ _ _ h ?_ he
  split
  · exact hP.suspend answered runs
  · exact hP.beginReset _ _ (hP.suspend answered runs)

/-- A command that a telegram carries. -/
theorem taken (hP : Outlasts K P) (c : Instr) (h : P s) (he : runTaken c s = .next t) : P t := by
  have hK := hP.lawful
  cases c
  case order => exact hP.request h (fun hu => hu.takeOrder hK _ _ _ _ _) he
  case cancel =>
    refine hP.request h (fun hu => ?_) he
    split
    · exact hu
    · split
      · exact hu.removeWaiting _
      · exact (hu.forEach _ _ fun r _ h => h.cancelMember _ r).settleOrder _
  case renew =>
    refine hP.request h (fun {u} hu => ?_) he
    split
    · next e hj =>
      obtain ⟨f, l, m, hi, hl, rfl⟩ := State.judgeRenew_renewed hj
      exact hu.reword hK (.lent m) hi (by rw [hl]; exact nofun) nofun
    · exact hu
  case shift =>
    refine hP.request h (fun hu => ?_) he
    split
    · next hj => exact hu.queueRelocate hj
    · exact hu
  case addressWrite => exact hP.write h (fun _ _ _ _ _ h hj => h.judgeAddress hj) he
  case trafficWrite => exact hP.write h (fun _ _ _ _ _ h hj => h.judgeTraffic hj) he
  case countersWrite => exact hP.write h (fun _ _ _ _ _ h hj => h.judgeCounter hj) he
  case paramsWrite =>
    exact hP.request h (fun hu => (hu.writeEntries (fun _ _ _ _ _ h hj => h.judgeParam hj) _ _ _).paramsFollow _ _) he
  case aisleWrite => exact hP.write h (fun _ _ _ _ _ h hj => h.judgeAisle hj) he
  case binWrite => exact hP.write h (fun _ _ _ _ _ h hj => h.judgeBin hK hj) he
  case stationWrite => exact hP.write h (fun _ _ _ _ _ h hj => h.judgeStation hj) he
  case liftWrite => exact hP.write h (fun _ _ _ _ _ h hj => h.judgeLift hj) he
  case itemWrite tag first es =>
    replace he : execItemWrite tag first es s = .next t := he
    unfold execItemWrite at he
    split at he
    · exact hP.request h id he
    · exact hP.write h (fun _ _ _ _ _ h hj => h.judgeItemEntry hK hj) he
  case classWrite => exact hP.write h (fun _ _ _ _ _ h hj => h.judgeClass hj) he
  case zoneWrite => exact hP.write h (fun _ _ _ _ _ h hj => h.judgeZone hj) he
  case lineWrite => exact hP.writeBarring h (fun _ _ _ _ _ h hj => h.judgeLine hK hj) he
  case pullWrite => exact hP.writeBarring h (fun _ _ _ _ _ h hj => h.judgePull hK hj) he
  case read => exact hP.request h (fun hu => hu.takeRead _ _ _ _) he
  case resetRead => exact hP.request h (fun hu => hu.takeRead _ _ _ _) he
  case quiet =>
    refine hP.request h (fun hu => ?_) he
    split
    · exact (hu.changeMode _ _).oweDrain
    all_goals exact hu
  case wake =>
    refine hP.request h (fun hu => ?_) he
    dsimp only
    split
    · exact hu.changeMode _ _
    · exact hu.changeMode _ _
    all_goals exact hu
  case restart => exact hP.restart h he
  case join tag l =>
    refine hP.request h (fun hu => ?_) he
    split
    · exact hu
    · next hj => exact hu.askLift hK l.isLt hj
  case leave tag l =>
    refine hP.request h (fun hu => ?_) he
    split
    · exact hu
    · exact hu.releaseLift hK l.isLt
  case zoneShut => exact hP.request h (fun hu => hu.shutdown hK _ _) he
  case zoneRestore =>
    refine hP.request h (fun hu => ?_) he
    split
    · exact hu
    · split
      · exact hu
      · exact hu.enterOpening _
  case sealNow => exact hP.request h (fun hu => hu.sealZone hK _) he
  case clearFault =>
    refine hP.request h (fun hu => ?_) he
    split
    · exact ((hu.modCrane _ _).setCraneState _ _).endFlight _ _
    · exact hu
  case flush =>
    refine hP.request h (fun hu => ?_) he
    dsimp only
    split
    · exact hu
    · exact (((hu.work _).forEach _ _ fun j _ h => h.flushJob _ j).work _).dispatchTest _
  case day =>
    refine hP.request h (fun hu => ?_) he
    split
    · exact hu
    · exact hu.update { hu.tidy with }
  case done =>
    refine hP.event h (fun hu => ?_) he
    split
    · exact hu.takeDone _ _ _ _
    · exact hu
  case fault =>
    refine hP.event h (fun hu => ?_) he
    split
    · exact hu.takeFault _ _ _
    · exact hu
  case parked =>
    refine hP.event h (fun hu => ?_) he
    split
    · exact hu.takeParked _ _ _
    · exact hu
  case status =>
    refine hP.event h (fun hu => ?_) he
    split
    · exact hu.takeStatus _ _ _ _
    · exact hu
  case infeed =>
    refine hP.event h (fun hu => ?_) he
    split
    · exact hu.takeInfeed _ _
    · exact hu
  case fitness l fit =>
    refine hP.event h (fun hu => ?_) he
    split
    · exact hu.takeFitness hK l.isLt _
    · exact hu
  case carried =>
    refine hP.event h (fun hu => ?_) he
    split
    · exact hu.takeCarried _ _
    · exact hu
  case itemOut =>
    refine hP.event h (fun hu => ?_) he
    split
    · exact hu.takeItemOut hK _ _ _
    · exact hu
  case binDone =>
    refine hP.event h (fun hu => ?_) he
    split
    · exact hu.takeBinDone _ _
    · exact hu
  case itemIn =>
    refine hP.event h (fun hu => ?_) he
    split
    · exact hu.takeItemIn hK _ _ _
    · exact hu
  case intoBin =>
    refine hP.event h (fun hu => ?_) he
    split
    · exact hu.takeIntoBin hK _ _ _
    · exact hu
  all_goals exact next_keeps P _ _ h he

/-! ## Telegrams -/

theorem forwardDown (hP : Outlasts K P) (h : P s) (m : Telegram) : P (s.forwardDown m) := by
  unfold State.forwardDown
  split
  · exact hP.down _ h
  · exact hP.raise _ h
  · split
    · exact hP.down _ h
    · exact hP.close _ h (((hP.kept h).beginEvent.raise _).notice _).settle

theorem forwardUp (hP : Outlasts K P) (h : P s) (m : Telegram) : P (s.forwardUp m) := by
  unfold State.forwardUp
  split
  · exact hP.up _ h
  · exact hP.raise _ h
  · exact hP.up _ h

theorem takeUp (hP : Outlasts K P) (h : P s) (m : Telegram) (he : s.takeUp m = .next t) : P t := by
  unfold State.takeUp at he
  split at he
  · exact hP.request h (fun hu => hu.raise _) he
  · exact hP.request h id he
  · exact hP.request h id he
  · exact hP.taken _ h he

theorem takeDown (hP : Outlasts K P) (h : P s) (m : Telegram) (he : s.takeDown m = .next t) : P t := by
  have stray {t : State} (he : s.stray = .next t) : P t := next_keeps P _ _ (hP.raise _ h) he
  unfold State.takeDown at he
  split at he
  · exact next_keeps P _ _ (hP.raise _ h) he
  · unfold State.takeCrane at he
    split at he
    · split at he
      · exact hP.taken _ h he
      · exact stray he
    · exact stray he
  · unfold State.takeLift at he
    split at he
    · split at he
      · exact hP.taken _ h he
      · exact stray he
    · exact stray he
  · unfold State.takeStation at he
    split at he
    · split at he
      · exact hP.taken _ h he
      · exact stray he
    · exact stray he
  · split at he
    · exact next_keeps P _ _ h he
    · exact stray he

theorem arrive (hP : Outlasts K P) (h : P s) (p : Port) (f : List Byte) (he : s.arrive p f = .next t) : P t := by
  unfold State.arrive at he
  split at he
  · exact next_keeps P _ _ (hP.raise _ h) he
  · exact next_keeps P _ _ (hP.raise _ h) he
  · unfold State.routeUp at he
    split at he
    · exact next_keeps P _ _ (hP.raise _ h) he
    · split at he
      · exact hP.takeUp h _ he
      · split at he
        · exact hP.takeUp (hP.forwardDown h _) _ he
        · exact next_keeps P _ _ (hP.forwardDown h _) he
  · unfold State.routeDown at he
    split at he
    · exact next_keeps P _ _ (hP.forwardUp h _) he
    · split at he
      · exact hP.takeDown h _ he
      · exact next_keeps P _ _ (hP.raise _ h) he

theorem countForwarded (hP : Outlasts K P) (h : P s) (q : Queued) (i : Nat) : P (s.countForwarded q i) := by
  unfold State.countForwarded
  split
  · exact hP.raise _ h
  all_goals exact h

theorem transmission (hP : Outlasts K P) (h : P s) (p : Port) (he : execTransmissionBegins p s = .next t) : P t := by
  have up : P s.transmitUp := by
    unfold State.transmitUp
    split
    · exact h
    · exact hP.countForwarded (hP.ports _ h) _ _
  have down : P s.transmitDown := by
    unfold State.transmitDown
    split
    · exact h
    next _ rest _ =>
      split
      · exact hP.countForwarded (hP.ports _ h) _ _
      · have dropped := hP.ports (fun p => { p with dQueue := rest }) h
        exact hP.close _ dropped (((hP.kept dropped).beginEvent.raise _).notice _).settle
  unfold execTransmissionBegins at he
  split at he
  · exact next_keeps P _ _ up he
  · exact next_keeps P _ _ up he
  · exact next_keeps P _ _ down he
  · exact next_keeps P _ _ h he

/-! ## The course of resets -/

theorem pinReset (hP : Outlasts K P) (h : P s) (he : execPinReset s = .next t) : P t := by
  unfold execPinReset at he
  split at he
  · exact next_keeps P _ _ h he
  · have asserted := hP.resets (fun r => { r with lineAsserted := true }) h rfl
    split at he <;> refine next_keeps P _ _ ?_ he
    · exact asserted
    all_goals exact hP.beginReset _ _ asserted

theorem resetLineRelease (hP : Outlasts K P) (h : P s) (he : execResetLineRelease s = .next t) : P t := by
  unfold execResetLineRelease at he
  split at he
  · exact next_keeps P _ _ (hP.resets _ h rfl) he
  · exact next_keeps P _ _ h he

theorem commandReset (hP : Outlasts K P) (h : P s) (he : execCommandReset s = .next t) : P t := by
  unfold execCommandReset at he
  split at he
  · exact next_keeps P _ _ (hP.beginReset _ _ h) he
  all_goals exact next_keeps P _ _ h he

theorem resetPeriodEnd (hP : Outlasts K P) (h : P s) (he : execResetPeriodEnd s = .next t) : P t := by
  unfold execResetPeriodEnd at he
  split at he
  · have blank := hP.ports (fun _ => { uQueue := [], dQueue := [], noticeSeq := 0, uLine := none, dLine := none }) h
    exact next_keeps P s.resumeEvent t
      (hP.close none blank ((hP.kept blank).beginEvent.resume hP.lawful).settle) he
  · exact next_keeps P _ _ h he

/-- Every command. -/
theorem exec (hP : Outlasts K P) (c : Instr) (h : P s) (he : Machine.exec c s = .next t) : P t := by
  have hK := hP.lawful
  cases hc : c <;> rw [hc] at he
  case frameArrival p f =>
    replace he : execFrameArrival p f s = .next t := he
    unfold execFrameArrival at he
    split at he
    · exact hP.arrive h p f he
    · exact next_keeps P _ _ h he
  case transmissionBegins p => exact hP.transmission h p he
  case moveDeadlineExpiry =>
    refine hP.event h (fun hu => ?_) he
    split
    · split
      · exact hu.missDeadline _ _
      · exact hu
    · exact hu
  case gatherTimerExpiry =>
    refine hP.event h (fun hu => ?_) he
    split
    · split
      · exact hu.expireGather _
      · exact hu
    · exact hu
  case holdRepeatExpiry =>
    refine hP.event h (fun hu => ?_) he
    split
    · exact (hu.holdoff _).modDesk _
    · exact hu
  case answerTimerExpiry l =>
    refine hP.event h (fun hu => ?_) he
    split
    · next ht => exact hu.failJoin hK l.isLt _ (.inr ht)
    · exact hu
  case carryDeadlineExpiry l c =>
    refine hP.event h (fun hu => ?_) he
    split
    · split
      · exact hu.missCarry hK l.isLt _
      · exact hu
    · exact hu
  case minuteTimerExpiry =>
    refine hP.event h (fun hu => ?_) he
    split
    · exact hu.minutePassed hK
    · exact hu
  case alarmDebounceExpiry =>
    refine hP.event h (fun hu => ?_) he
    split
    · exact (hu.modZone _ _).shutdown hK _ _
    · exact hu
  case parkDeadlineExpiry =>
    refine hP.event h (fun hu => ?_) he
    split
    · exact (hu.faultRequest _ _).enterSettling _
    · exact hu
  case brakeSettleExpiry =>
    refine hP.event h (fun hu => ?_) he
    split
    · exact hu.enterClosing _
    · exact hu
  case shutterCloseLimitExpiry =>
    refine hP.event h (fun hu => ?_) he
    split
    · split
      · exact hu.shutterFault _ _
      · exact hu.zoneTo _ _
    · exact hu
  case shutterOpenLimitExpiry =>
    refine hP.event h (fun hu => ?_) he
    split
    · split
      · exact hu.shutterFault _ _
      · exact hu.enterEnabling _
    · exact hu
  case zoneReadyExpiry =>
    refine hP.event h (fun hu => ?_) he
    split
    · exact (hu.faultUnready _).becomeClear _
    · exact hu
  case parkWaitExpiry =>
    refine hP.event h (fun hu => ?_) he
    split
    · exact (hu.faultRequest _ _).changeMode _ _
    · exact hu
  case wakeReadyExpiry =>
    refine hP.event h (fun hu => ?_) he
    split
    · exact (hu.faultRequest _ _).changeMode _ _
    · exact hu
  case lineInputChange n w =>
    replace he : execLineInputChange n w s = .next t := he
    unfold execLineInputChange at he
    split at he
    · exact next_keeps P _ _ (hP.close none h (((hP.kept h).beginEvent.setWiring n w).takeLine hK n).settle) he
    · exact next_keeps P _ _ (hP.wiring n w h) he
  case callKeyDebounceExpiry =>
    refine hP.event h (fun hu => ?_) he
    dsimp only
    split
    · split
      · exact hu.modLine _ _
      · exact (hu.modLine _ _).notice _
    · exact hu
  case powerOnReset => exact next_keeps P _ _ (hP.power _ h rfl) he
  case pinReset => exact hP.pinReset h he
  case resetLineRelease => exact hP.resetLineRelease h he
  case commandReset => exact hP.commandReset h he
  case resetPeriodEnd => exact hP.resetPeriodEnd h he
  case lossOfSupply => exact next_keeps P _ _ (hP.blank h) he
  all_goals exact hP.taken c h (by rw [hc]; exact he)

end Outlasts

end Sys2Proof.Machine
end

section
/-! The laws of the slots and of the entries: what reads no lift is lawful by the rules of `Ledger`. -/

namespace Sys2Proof.Machine

/-! ## Laws that read no lift -/

/-- A law of the bins, the entries and the staging list. -/
structure Ledger (K : State → Prop) : Prop where
  same : ∀ {s t : State}, K s → t.store.bins = s.store.bins → t.loans.items = s.loans.items →
    t.returns.staging = s.returns.staging → K t
  bin : ∀ {s : State} (b : Nat) (f : Bin → Bin), s.Tidy → K s → (∀ r, s.bin b = some r → Rebinned s r (f r)) →
    K (s.modBin b f)
  uncount : ∀ {s : State} {t : Nat} {e : Item}, s.Tidy → K s → s.item t = some e → e.state.word ≠ .returned →
    K (s.removeItem t)
  create : ∀ {s : State} {b : Nat} {home : Slot} (st : BinState), s.Tidy → K s → s.bin b = none → s.slotClaimed home = false →
    K (s.putBin b { home, state := st, target := none, staged := 0, pending := false, itemRefs := 0 })
  remove : ∀ {s : State} {b : Nat} {r : Bin}, s.Tidy → K s → s.bin b = some r → r.itemRefs = 0 → K (s.delBin b)
  count : ∀ {s : State} {t : Nat} {e : Item}, s.Tidy → K s → s.item t = none → (s.bin e.bin).isSome = true →
    e.state.word ≠ .returned → K (s.createItem t e)
  reword : ∀ {s : State} {t : Nat} {e : Item} (st : ItemState), s.Tidy → K s → s.item t = some e →
    e.state.word ≠ .returned → st.word ≠ .returned → K (s.putItem t { e with state := st })
  stage : ∀ {s : State} {t : Nat} {e : Item} (l : Loan), s.Tidy → K s → s.item t = some e → e.state.word ≠ .returned →
    s.returns.staging.length < Config.stagingCapacity → s.stagedCount e.bin < Config.stagedMax → K (s.staged t e l)
  unstage : ∀ {s : State} {t : Nat} {e : Item}, s.Tidy → K s → s.item t = some e → e.state.word = .returned →
    K (s.unstaged t e)
  older : ∀ {s : State} (x : Option Nat), K s →
    K (s.modReturns fun r => { staging := r.staging.map StageEntry.older, minuteTimer := x })
  settled : ∀ {s : State}, s.Tidy → K s → K s.settledTables
  blank : ∀ {s : State}, K s → K s.blank

namespace Ledger

variable {K : State → Prop} {s : State}

theorem neutral (h : Ledger K) : Neutral K where
  alike hs ha := h.same hs ha.bins ha.items ha.staging
  bin := h.bin
  uncount := h.uncount
  pass _ hs _ _ := h.same hs rfl rfl rfl

theorem modLift (h : Ledger K) (hs : K s) (l : Nat) (f : Lift → Lift) : K (s.modLift l f) := h.same hs rfl rfl rfl

theorem modPool (h : Ledger K) (hs : K s) (f : LiftPool → LiftPool) : K (s.modPool f) := h.same hs rfl rfl rfl

theorem forEachLift (h : Ledger K) (hs : K s) (ls : List Nat) (f : Nat → Lift → Lift) :
    K (forEach ls (fun k s => s.modLift k (f k)) s) :=
  forEach_induct K _ (fun k _ hs => h.modLift hs k (f k)) ls s hs

theorem removeLift (h : Ledger K) (hs : K s) (l : Nat) (w : Word) : K (s.removeLift l w) := by
  unfold State.removeLift
  split
  · exact h.modLift hs l _
  · next q _ =>
    have renumbered := h.forEachLift (h.modLift hs l fun r => { r with word := w }) allLifts fun _ r =>
      { r with word := r.word.renumber q (s.rotationSize - 2) }
    exact h.modPool renumbered _

theorem barLifts (h : Ledger K) (hs : Kept K s) (ls : List Nat) (cause : BarCause) : K (s.barLifts ls cause) := by
  have tidy := forEach_induct State.Tidy (fun l s => s.removeLift l .bar) (fun l _ h => Kept.tidy_removeLift h l .bar)
    (s.bySeqDown ls) s hs.tidy
  have law := forEach_induct K (fun l s => s.removeLift l .bar) (fun l _ hs => h.removeLift hs l .bar)
    (s.bySeqDown ls) s hs.law
  have told := Kept.tellWords ⟨h.neutral, tidy, law⟩ s
  exact (told.forEach ls (State.barCarries cause) fun l _ h => h.barCarries cause l).oweDrain.law

theorem settleBlocks (h : Ledger K) (hs : Kept K s) : K s.settleBlocks := by
  rw [State.settleBlocks_eq]
  have tables : Kept K s.settledTables := ⟨h.neutral, tidy_settledTables hs.tidy, h.settled hs.tidy hs.law⟩
  have cranes := tables.forEach allAisles (fun a s => s.modCrane a (Crane.afterReset (s.aisle a))) fun a _ h =>
    h.modCrane a _
  have stations := cranes.forEach allStations (fun st s => s.modStation st Station.afterReset) fun st _ h =>
    h.modStation st _
  have tidy := Kept.tidy_forEachLift stations.tidy allLifts fun _ => Lift.afterReset
  have law := h.forEachLift stations.law allLifts fun _ => Lift.afterReset
  exact (Kept.forEach ⟨h.neutral, tidy, law⟩ allLifts _ fun l _ h => h.sendMember l).law

theorem lawful (h : Ledger K) : Lawful K where
  toNeutral := h.neutral
  leave hs _ := h.modLift (h.removeLift hs.law _ _) _ _
  bar ls cause hs _ := h.barLifts hs ls cause
  enter {s l} hs _ _ := by
    unfold State.enterRotation
    exact h.modLift (h.modLift (h.forEachLift hs.law allLifts _) l _) l _
  ask _ hs _ _ := h.modLift hs.law _ _
  fail hs _ _ := h.modLift hs.law _ _
  create st hs := h.create st hs.tidy hs.law
  remove hs := h.remove hs.tidy hs.law
  count hs := h.count hs.tidy hs.law
  reword st hs := h.reword st hs.tidy hs.law
  stage l hs := h.stage l hs.tidy hs.law
  unstage hs := h.unstage hs.tidy hs.law
  older x hs := h.older x hs.law
  settled hs := h.settleBlocks hs
  blank hs := h.blank hs.law

/-- The truth is a law. -/
theorem trivial : Ledger fun _ => True where
  same _ _ _ _ := ⟨⟩
  bin _ _ _ _ _ := ⟨⟩
  uncount _ _ _ _ := ⟨⟩
  create _ _ _ _ _ := ⟨⟩
  remove _ _ _ _ := ⟨⟩
  count _ _ _ _ _ := ⟨⟩
  reword _ _ _ _ _ _ := ⟨⟩
  stage _ _ _ _ _ _ _ := ⟨⟩
  unstage _ _ _ _ := ⟨⟩
  older _ _ := ⟨⟩
  settled _ _ := ⟨⟩
  blank _ := ⟨⟩

end Ledger

/-! ## A lawful law outlasts every step -/

/-- The tables as they are kept outlast every command, with each lawful law. -/
theorem Lawful.outlasts {K : State → Prop} (hK : Lawful K) : Outlasts K (Kept K) where
  lawful := hK
  kept := id
  close a _ hu := hu.closeEvent _ a
  raise i h := h.raise i
  up x h := h.handUp x
  down x h := h.handDown x
  ports f h := h.modPorts f
  resets f h _ := h.modResets f
  wiring n w h := h.setWiring n w
  suspend h _ := h.suspend
  beginReset r e h := h.beginReset r e
  blank h := ⟨h.neutral, tidy_blank h.tidy, hK.blank h⟩
  power f h _ := Kept.modResets ⟨h.neutral, tidy_blank h.tidy, hK.blank h⟩ f

/-- Every step keeps a lawful law, with the form of the tables. -/
theorem Lawful.step {K : State → Prop} (hK : Lawful K) {s t : State} (h : Kept K s) (hs : step s = .next t) : Kept K t :=
  step_keeps (P := Kept K) (fun _ _ h => h.update { h.tidy with }) (fun _ h => h.update { h.tidy with })
    (fun c _ _ h he => hK.outlasts.exec c h he) h hs

/-! ## The law of the slots -/

/-- No slot is claimed after what makes no bin claim more. -/
theorem slotsApart_of_claims {s t : State} (h : s.slotsApart)
    (hc : ∀ b q, t.bin b = some q → ∃ r, s.bin b = some r ∧ ∀ x, q.claims x → r.claims x) : t.slotsApart := by
  intro b c r q hb hcq hne x hx
  obtain ⟨r₀, hr₀, claimed⟩ := hc b r hb
  obtain ⟨q₀, hq₀, claimed'⟩ := hc c q hcq
  obtain ⟨h₁, h₂⟩ := h b c r₀ q₀ hr₀ hq₀ hne x ((claimed x (hx.imp Eq.symm id)).imp Eq.symm id)
  refine ⟨fun he => ?_, fun he => ?_⟩
  · exact (claimed' x (.inl he.symm)).elim (fun h => h₁ h.symm) h₂
  · exact (claimed' x (.inr he)).elim (fun h => h₁ h.symm) h₂

/-- No slot is claimed twice after a record whose claims are its own or no one's. -/
theorem slotsApart_put {s : State} (h : s.slotsApart) (ht : s.store.bins.wf) (b : Nat) (q : Bin)
    (hq : ∀ x, q.claims x → (∃ r, s.bin b = some r ∧ r.claims x) ∨ s.slotClaimed x = false) :
    (s.putBin b q).slotsApart := by
  have apart {c : Nat} {p : Bin} {x : Slot} (hne : b ≠ c) (hc : s.bin c = some p) (hx : q.claims x) : ¬ p.claims x := by
    intro hp
    obtain ⟨r, hr, hrx⟩ | free := hq x hx
    · obtain ⟨h₁, h₂⟩ := h b c r p hr hc hne x (hrx.imp Eq.symm id)
      exact hp.elim (fun h => h₁ h.symm) h₂
    · rw [(Kept.slotClaimed_iff x).2 ⟨(c, p), (Tab.find_eq_some ht).1 hc, hp⟩] at free
      cases free
  intro c d r p hc hd hne x hx
  rw [State.putBin_bin] at hc hd
  have not_claims (hn : ¬ p.claims x) : x ≠ p.home ∧ p.target ≠ some x :=
    ⟨fun he => hn (.inl he.symm), fun he => hn (.inr he)⟩
  replace hx : r.claims x := hx.imp Eq.symm id
  split at hc
  · next hcb =>
    subst hcb
    cases hc
    rw [if_neg (Ne.symm hne)] at hd
    exact not_claims (apart hne hd hx)
  · split at hd
    · next hdb =>
      subst hdb
      cases hd
      exact not_claims fun hp => apart (Ne.symm hne) hc hp hx
    · exact h c d r p hc hd hne x (hx.imp Eq.symm id)

/-- Reading a table after a change of every entry by its index. -/
theorem Tab.find_mapKeyed {α β : Type} (t : Tab α) (f : Nat → α → β) (k : Nat) :
    Tab.find (t.map fun p => (p.1, f p.1 p.2)) k = (t.find k).map (f k) := by
  induction t with
  | nil => rfl
  | cons p t ih =>
    obtain ⟨i, a⟩ := p
    rw [List.map_cons, Tab.find_cons, Tab.find_cons, ih]
    split
    · next h => subst h; rfl
    · rfl

theorem settledTables_bin (s : State) (b : Nat) :
    s.settledTables.bin b = (s.bin b).map fun r => r.afterReset (retainedItems s.loans.items) b :=
  Tab.find_mapKeyed s.store.bins (fun b r => r.afterReset (retainedItems s.loans.items) b) b

/-- A change of a bin that keeps its claims keeps the law of the slots. -/
theorem slotsApart_modBin {s : State} (h : s.slotsApart) (b : Nat) (f : Bin → Bin) 
    (hf : ∀ r x, (f r).claims x → r.claims x := by exact fun _ _ h => h) :
    (s.modBin b f).slotsApart := by
  refine slotsApart_of_claims h fun c q hc => ?_
  rw [State.modBin_bin] at hc
  split at hc
  · next hcb =>
    subst hcb
    obtain ⟨r, hr, rfl⟩ := Option.map_eq_some_iff.1 hc
    exact ⟨r, hr, hf r⟩
  · exact ⟨q, hc, fun _ h => h⟩

/-- What leaves every bin as it is keeps the law of the slots. -/
theorem slotsApart_of_bins {s t : State} (h : s.slotsApart) (hb : t.store.bins = s.store.bins := by rfl) : t.slotsApart :=
  slotsApart_of_claims h fun b q hq => ⟨q, by rw [State.bin, ← hb]; exact hq, fun _ h => h⟩

theorem slotsApart_removeItem {s : State} (h : s.slotsApart) (t : Nat) : (s.removeItem t).slotsApart := by
  unfold State.removeItem
  split
  · exact slotsApart_modBin (slotsApart_of_bins h) _ _
  · exact h

/-- The law of the slots is lawful (R32). -/
theorem slotsApart_ledger : Ledger State.slotsApart where
  same h hb _ _ := slotsApart_of_bins h hb
  bin {s} b f ht h hf := by
    unfold State.modBin
    split
    · next r hr =>
      exact slotsApart_put h ht.bins b _ fun x hx => ((hf r hr).claims x hx).imp (fun h => ⟨r, hr, h⟩) id
    · exact h
  uncount _ h _ _ := slotsApart_removeItem h _
  create st ht h _ free := slotsApart_put h ht.bins _ _ fun _ hx => .inr (by
    obtain rfl := hx.resolve_right nofun
    exact free)
  remove {s b r} ht h _ _ := slotsApart_of_claims h fun c q hc => by
    rw [State.delBin_bin _ _ _ ht.bins] at hc
    split at hc
    · cases hc
    · exact ⟨q, hc, fun _ h => h⟩
  count _ h _ _ _ := slotsApart_modBin (slotsApart_of_bins h) _ _
  reword _ _ h _ _ _ := slotsApart_of_bins h
  stage _ _ h _ _ _ _ := slotsApart_modBin (slotsApart_of_bins h) _ _
  unstage _ h _ _ := slotsApart_modBin (slotsApart_of_bins (slotsApart_removeItem h _)) _ _
  older _ h := slotsApart_of_bins h
  settled {s} _ h := slotsApart_of_claims h fun b q hq => by
    rw [settledTables_bin] at hq
    obtain ⟨r, hr, rfl⟩ := Option.map_eq_some_iff.1 hq
    exact ⟨r, hr, fun x hx => hx.imp id fun h => by cases h⟩
  blank _ := fun _ _ _ _ h => by cases h

/-- Settles O7: the form of the tables is kept with any lawful law, and the law of the slots is one. -/
theorem tablesStayCanonical : Obligations.TablesStayCanonical := fun _ _ ht hs =>
  ⟨(Ledger.trivial.lawful.step ⟨Ledger.trivial.neutral, ht, ⟨⟩⟩ hs).tidy,
    fun h => (slotsApart_ledger.lawful.step ⟨slotsApart_ledger.neutral, ht, h⟩ hs).law⟩

end Sys2Proof.Machine
end

section
/-! The law of the item entries and of the staging list (R38, R124, R139). -/

namespace Sys2Proof.Machine

/-! ## Counting the entries of a table -/

section
variable {α : Type} {t : Tab α} {k : Nat} (q : Nat × α → Bool)

theorem Tab.countP_put_new (v : α) (h : t.find k = none) :
    (t.put k v).countP q = t.countP q + if q (k, v) then 1 else 0 := by
  induction t with
  | nil => simp [Tab.put, List.countP_cons]
  | cons p t ih =>
    obtain ⟨i, a⟩ := p
    rw [Tab.find_cons] at h
    split at h
    · cases h
    · next hne =>
      unfold Tab.put
      split
      · simp only [List.countP_cons]
      · rw [List.countP_cons, List.countP_cons, ih h]
        omega

theorem Tab.countP_put_same {a : α} (v : α) (ht : t.wf) (h : t.find k = some a) (hq : q (k, v) = q (k, a)) :
    (t.put k v).countP q = t.countP q := by
  induction t with
  | nil => cases h
  | cons p t ih =>
    obtain ⟨i, b⟩ := p
    rw [Tab.find_cons] at h
    unfold Tab.put
    split at h
    · next heq =>
      cases h
      subst heq
      rw [if_neg (Nat.lt_irrefl _), if_pos rfl, List.countP_cons, List.countP_cons, hq]
    · next hne =>
      obtain ⟨hlt, ht⟩ := List.pairwise_cons.1 ht
      rw [if_neg (Nat.lt_asymm (hlt _ ((Tab.find_eq_some ht).1 h))), if_neg hne, List.countP_cons, List.countP_cons, ih ht h]

theorem Tab.countP_del {a : α} (h : t.find k = some a) :
    (t.del k).countP q + (if q (k, a) then 1 else 0) = t.countP q := by
  induction t with
  | nil => cases h
  | cons p t ih =>
    obtain ⟨i, b⟩ := p
    rw [Tab.find_cons] at h
    unfold Tab.del
    split at h
    · next heq =>
      cases h
      subst heq
      rw [if_pos rfl, List.countP_cons]
    · next hne =>
      rw [if_neg hne, List.countP_cons, List.countP_cons, ← ih h]
      omega

/-- A table that lists an entry counts it. -/
theorem Tab.countP_pos {a : α} (ht : t.wf) (h : t.find k = some a) (hq : q (k, a) = true) : 0 < t.countP q :=
  List.countP_pos_iff.2 ⟨_, (Tab.find_eq_some ht).1 h, hq⟩

end

/-! ## The entries of a bin -/

/-- The number of entries that name a bin (R38). -/
def State.namesOf (s : State) (b : Nat) : Nat := s.loans.items.countP fun p => decide (p.2.bin = b)

/-- The number of a bin's entries in the staging list (R139). -/
def State.listedOf (s : State) (b : Nat) : Nat := s.returns.staging.countP fun x => decide (x.bin = b)

section
variable {s : State} {t : Nat} {e : Item}

theorem State.removeItem_bin (he : s.item t = some e) (c : Nat) :
    (s.removeItem t).bin c =
      if c = e.bin then (s.bin e.bin).map fun r => { r with itemRefs := r.itemRefs - 1 } else s.bin c := by
  unfold State.removeItem
  split
  · next f hf =>
    obtain rfl : f = e := Option.some.inj (hf.symm.trans he)
    exact State.modBin_bin _ _ _ _
  · next hf => rw [hf] at he; cases he

theorem State.removeItem_namesOf (he : s.item t = some e) (b : Nat) :
    (s.removeItem t).namesOf b + (if e.bin = b then 1 else 0) = s.namesOf b := by
  have removed : (s.removeItem t).loans.items = s.loans.items.del t := by
    unfold State.removeItem
    split
    · rw [State.modBin_loans]; rfl
    · next hf => rw [hf] at he; cases he
  rw [State.namesOf, removed, State.namesOf]
  simpa using Tab.countP_del (fun p : Nat × Item => decide (p.2.bin = b)) he

theorem State.createItem_namesOf (he : s.item t = none) (b : Nat) :
    (s.createItem t e).namesOf b = s.namesOf b + if e.bin = b then 1 else 0 := by
  have added : (s.createItem t e).loans.items = s.loans.items.put t e := by rw [State.createItem, State.modBin_loans]; rfl
  rw [State.namesOf, added, Tab.countP_put_new _ e he]
  simp [State.namesOf]

/-- An entry rewritten for its own bin is named as before. -/
theorem State.putItem_namesOf (ht : s.Tidy) (he : s.item t = some e) (st : ItemState) (b : Nat) :
    (s.putItem t { e with state := st }).namesOf b = s.namesOf b :=
  Tab.countP_put_same (fun p : Nat × Item => decide (p.2.bin = b)) _ ht.items he rfl

theorem State.createItem_bin (c : Nat) :
    (s.createItem t e).bin c =
      if c = e.bin then (s.bin e.bin).map fun r => { r with itemRefs := r.itemRefs + 1 } else s.bin c :=
  State.modBin_bin _ _ _ _

end

/-! ## The law -/

namespace State.itemLaw

variable {s t : State}

/-- The law carried over where bins only gain or keep their counts together with the tables. -/
theorem carry (h : s.itemLaw) (hi : t.loans.items = s.loans.items) (hs : t.returns.staging = s.returns.staging)
    (hb : ∀ b, (t.bin b).map (fun r => (r.staged, r.itemRefs)) = (s.bin b).map fun r => (r.staged, r.itemRefs)) :
    t.itemLaw := by
  have item (k : Nat) : t.item k = s.item k := by rw [State.item, hi]; rfl
  have back {b : Nat} {r : Bin} (hr : t.bin b = some r) :
      ∃ q, s.bin b = some q ∧ q.staged = r.staged ∧ q.itemRefs = r.itemRefs := by
    have := hb b
    rw [hr] at this
    obtain ⟨q, hq, heq⟩ := Option.map_eq_some_iff.1 this.symm
    exact ⟨q, hq, congrArg Prod.fst heq, congrArg Prod.snd heq⟩
  constructor
  · intro k e he
    obtain ⟨r, hr⟩ := h.homed k e (item k ▸ he)
    have := hb e.bin
    rw [hr] at this
    obtain ⟨q, hq, _⟩ := Option.map_eq_some_iff.1 this
    exact ⟨q, hq⟩
  · intro b r hr
    obtain ⟨q, hq, _, refs⟩ := back hr
    rw [hi, ← refs]
    exact h.counted b q hq
  · intro b r hr
    obtain ⟨q, hq, staged, _⟩ := back hr
    rw [hs, ← staged]
    exact h.staged b q hq
  · intro x hx
    rw [item]
    exact h.listed x (hs ▸ hx)
  · intro k e he
    rw [hs]
    exact h.once k e (item k ▸ he)
  · refine ⟨by rw [hs]; exact h.bounded.1, fun b r hr => ?_⟩
    obtain ⟨q, hq, staged, _⟩ := back hr
    rw [← staged]
    exact h.bounded.2 b q hq

/-- No entry names an absent bin. -/
theorem namesOf_absent (h : s.itemLaw) (ht : s.Tidy) {b : Nat} (hb : s.bin b = none) : s.namesOf b = 0 := by
  refine List.countP_eq_zero.2 fun p hp => ?_
  obtain ⟨r, hr⟩ := h.homed p.1 p.2 ((Tab.find_eq_some ht.items).2 hp)
  simp only [decide_eq_true_eq]
  rintro rfl
  rw [hr] at hb
  cases hb

/-- The list holds no entry of an absent bin. -/
theorem listedOf_absent (h : s.itemLaw) {b : Nat} (hb : s.bin b = none) : s.listedOf b = 0 := by
  refine List.countP_eq_zero.2 fun x hx => ?_
  obtain ⟨e, l, he, heb, _⟩ := h.listed x hx
  obtain ⟨r, hr⟩ := h.homed _ e he
  simp only [decide_eq_true_eq]
  rintro rfl
  rw [heb, hb] at hr
  cases hr

/-- An entry that is not RETURNED is not in the list. -/
theorem not_listed (h : s.itemLaw) {k : Nat} (hk : ∀ e, s.item k = some e → e.state.word ≠ .returned) {x : StageEntry}
    (hx : x ∈ s.returns.staging) : x.item ≠ k := by
  rintro rfl
  obtain ⟨e, l, he, _, hst⟩ := h.listed x hx
  exact hk e he (by rw [hst]; rfl)

/-- A bin without a reference is named by no entry. -/
theorem unnamed (h : s.itemLaw) (ht : s.Tidy) {b : Nat} {r : Bin} (hr : s.bin b = some r) (h0 : r.itemRefs = 0) {k : Nat}
    {e : Item} (he : s.item k = some e) : e.bin ≠ b := by
  rintro rfl
  have := Tab.countP_pos (fun p : Nat × Item => decide (p.2.bin = e.bin)) ht.items he (by simp)
  rw [← h.counted _ r hr] at this
  omega

/-- The law of the entries is kept where an entry that is not RETURNED goes. -/
theorem removeItem (h : s.itemLaw) (ht : s.Tidy) {k : Nat} {e : Item} (he : s.item k = some e)
    (hw : e.state.word ≠ .returned) : (s.removeItem k).itemLaw := by
  have item (j : Nat) := s.removeItem_item k j ht.items
  have absent {x : StageEntry} (hx : x ∈ s.returns.staging) : x.item ≠ k :=
    h.not_listed (fun f hf => Option.some.inj (he.symm.trans hf) ▸ hw) hx
  have bin (c : Nat) := State.removeItem_bin he c
  have back {b : Nat} {r : Bin} (hr : (s.removeItem k).bin b = some r) :
      ∃ q, s.bin b = some q ∧ r.staged = q.staged ∧ r.itemRefs = q.itemRefs - if e.bin = b then 1 else 0 := by
    rw [bin] at hr
    split at hr
    · next hb =>
      subst hb
      obtain ⟨q, hq, rfl⟩ := Option.map_eq_some_iff.1 hr
      exact ⟨q, hq, rfl, by simp⟩
    · next hb => exact ⟨r, hr, rfl, by simp [Ne.symm hb]⟩
  have staging : (s.removeItem k).returns.staging = s.returns.staging := by rw [State.removeItem_returns]
  constructor
  · intro j f hf
    rw [item] at hf
    split at hf
    · cases hf
    · obtain ⟨r, hr⟩ := h.homed j f hf
      rw [bin]
      split
      · next hb => rw [hb] at hr; rw [hr]; exact ⟨_, rfl⟩
      · exact ⟨r, hr⟩
  · intro b r hr
    obtain ⟨q, hq, _, refs⟩ := back hr
    have count := State.removeItem_namesOf he b
    have counted : q.itemRefs = s.namesOf b := h.counted b q hq
    show r.itemRefs = (s.removeItem k).namesOf b
    omega
  · intro b r hr
    obtain ⟨q, hq, staged, _⟩ := back hr
    rw [staging, staged]
    exact h.staged b q hq
  · intro x hx
    rw [staging] at hx
    rw [item, if_neg (absent hx)]
    exact h.listed x hx
  · intro j f hf hret
    rw [item] at hf
    split at hf
    · cases hf
    · rw [staging]; exact h.once j f hf hret
  · refine ⟨by rw [staging]; exact h.bounded.1, fun b r hr => ?_⟩
    obtain ⟨q, hq, staged, _⟩ := back hr
    rw [staged]
    exact h.bounded.2 b q hq

/-- A new bin has no counts. -/
theorem putBin_new (h : s.itemLaw) (ht : s.Tidy) {b : Nat} {r : Bin} (hb : s.bin b = none) (hst : r.staged = 0)
    (hr : r.itemRefs = 0) : (s.putBin b r).itemLaw := by
  have old {c : Nat} {q : Bin} (hq : (s.putBin b r).bin c = some q) : (c = b ∧ q = r) ∨ s.bin c = some q := by
    rw [State.putBin_bin] at hq
    split at hq
    · next hc => exact .inl ⟨hc, (Option.some.inj hq).symm⟩
    · exact .inr hq
  refine ⟨fun k e he => ?_, fun c q hq => ?_, fun c q hq => ?_, h.listed, h.once, h.bounded.1, fun c q hq => ?_⟩
  · obtain ⟨q, hq⟩ := h.homed k e he
    rw [State.putBin_bin]
    split
    · exact ⟨r, rfl⟩
    · exact ⟨q, hq⟩
  · obtain ⟨rfl, rfl⟩ | hq := old hq
    · rw [hr]; exact (h.namesOf_absent ht hb).symm
    · exact h.counted c q hq
  · obtain ⟨rfl, rfl⟩ | hq := old hq
    · rw [hst]; exact (h.listedOf_absent hb).symm
    · exact h.staged c q hq
  · obtain ⟨rfl, rfl⟩ | hq := old hq
    · rw [hst]; exact Nat.zero_le _
    · exact h.bounded.2 c q hq

/-- A bin that no entry names may go. -/
theorem delBin (h : s.itemLaw) (ht : s.Tidy) {b : Nat} {r : Bin} (hr : s.bin b = some r) (h0 : r.itemRefs = 0) :
    (s.delBin b).itemLaw := by
  have old {c : Nat} {q : Bin} (hq : (s.delBin b).bin c = some q) : s.bin c = some q := by
    rw [State.delBin_bin _ _ _ ht.bins] at hq
    split at hq
    · cases hq
    · exact hq
  refine ⟨fun k e he => ?_, fun c q hq => h.counted c q (old hq), fun c q hq => h.staged c q (old hq), h.listed, h.once,
    h.bounded.1, fun c q hq => h.bounded.2 c q (old hq)⟩
  rw [State.delBin_bin _ _ _ ht.bins, if_neg (h.unnamed ht hr h0 he)]
  exact h.homed k e he

/-- An entry created for a present bin is counted there. -/
theorem createItem (h : s.itemLaw) {k : Nat} {e : Item} (he : s.item k = none) (hb : (s.bin e.bin).isSome = true)
    (hw : e.state.word ≠ .returned) : (s.createItem k e).itemLaw := by
  have bin (c : Nat) := State.createItem_bin (s := s) (t := k) (e := e) c
  have item (j : Nat) := s.createItem_item k j e
  have back {b : Nat} {r : Bin} (hr : (s.createItem k e).bin b = some r) :
      ∃ q, s.bin b = some q ∧ r.staged = q.staged ∧ r.itemRefs = q.itemRefs + if e.bin = b then 1 else 0 := by
    rw [bin] at hr
    split at hr
    · next hb =>
      subst hb
      obtain ⟨q, hq, rfl⟩ := Option.map_eq_some_iff.1 hr
      exact ⟨q, hq, rfl, by simp⟩
    · next hb => exact ⟨r, hr, rfl, by simp [Ne.symm hb]⟩
  have present {b : Nat} (hb : (s.bin b).isSome = true) : ∃ r, (s.createItem k e).bin b = some r := by
    obtain ⟨r, hr⟩ := Option.isSome_iff_exists.1 hb
    rw [bin]
    split
    · next hc => subst hc; rw [hr]; exact ⟨_, rfl⟩
    · exact ⟨r, hr⟩
  have staging : (s.createItem k e).returns.staging = s.returns.staging := by rw [State.createItem_returns]
  constructor
  · intro j f hf
    rw [item] at hf
    split at hf
    · cases hf; exact present hb
    · exact present (Option.isSome_iff_exists.2 (h.homed j f hf))
  · intro b r hr
    obtain ⟨q, hq, _, refs⟩ := back hr
    rw [refs, h.counted b q hq]
    exact (State.createItem_namesOf he b).symm
  · intro b r hr
    obtain ⟨q, hq, staged, _⟩ := back hr
    rw [staging, staged]
    exact h.staged b q hq
  · intro x hx
    rw [staging] at hx
    rw [item, if_neg (h.not_listed (fun f hf => by rw [he] at hf; cases hf) hx)]
    exact h.listed x hx
  · intro j f hf hret
    rw [item] at hf
    split at hf
    · cases hf; exact absurd hret hw
    · rw [staging]; exact h.once j f hf hret
  · refine ⟨by rw [staging]; exact h.bounded.1, fun b r hr => ?_⟩
    obtain ⟨q, hq, staged, _⟩ := back hr
    rw [staged]
    exact h.bounded.2 b q hq

/-- An entry that is not RETURNED may change its state to another such one. -/
theorem putItem (h : s.itemLaw) (ht : s.Tidy) {k : Nat} {e : Item} (st : ItemState) (he : s.item k = some e)
    (hw : e.state.word ≠ .returned) (hst : st.word ≠ .returned) : (s.putItem k { e with state := st }).itemLaw := by
  have item (j : Nat) := s.putItem_item k j { e with state := st }
  refine ⟨fun j f hf => ?_, fun b r hr => ?_, h.staged, fun x hx => ?_, fun j f hf hret => ?_, h.bounded⟩
  · rw [item] at hf
    split at hf
    · cases hf; exact h.homed k e he
    · exact h.homed j f hf
  · exact (h.counted b r hr).trans (State.putItem_namesOf ht he st b).symm
  · rw [item, if_neg (h.not_listed (fun f hf => Option.some.inj (he.symm.trans hf) ▸ hw) hx)]
    exact h.listed x hx
  · rw [item] at hf
    split at hf
    · cases hf; exact absurd hret hst
    · exact h.once j f hf hret

/-- An entry that becomes RETURNED joins the list, which has room for it (R141). -/
theorem staged_entry (h : s.itemLaw) (ht : s.Tidy) {k : Nat} {e : Item} (l : Loan) (he : s.item k = some e)
    (hw : e.state.word ≠ .returned) (hlen : s.returns.staging.length < Config.stagingCapacity)
    (hroom : s.stagedCount e.bin < Config.stagedMax) : (s.staged k e l).itemLaw := by
  have item (j : Nat) : (s.staged k e l).item j =
      if j = k then some { e with state := .returned l s.loans.today } else s.item j := by
    simp [State.staged]
  have staging : (s.staged k e l).returns.staging =
      s.returns.staging ++ [{ item := k, bin := e.bin, scanDay := s.loans.today, age := 0 }] := by
    rw [State.staged, State.modBin_returns]; rfl
  have names (b : Nat) : (s.staged k e l).namesOf b = s.namesOf b := by
    rw [State.staged, State.namesOf, State.modBin_loans]
    exact State.putItem_namesOf ht he _ b
  have back {b : Nat} {r : Bin} (hr : (s.staged k e l).bin b = some r) :
      ∃ q, s.bin b = some q ∧ r.staged = q.staged + (if e.bin = b then 1 else 0) ∧ r.itemRefs = q.itemRefs := by
    rw [State.staged, State.modBin_bin] at hr
    split at hr
    · next hb =>
      subst hb
      obtain ⟨q, hq, rfl⟩ := Option.map_eq_some_iff.1 hr
      exact ⟨q, hq, by simp, rfl⟩
    · next hb => exact ⟨r, hr, by simp [Ne.symm hb], rfl⟩
  have present {b : Nat} {r : Bin} (hr : s.bin b = some r) : ∃ q, (s.staged k e l).bin b = some q := by
    rw [State.staged, State.modBin_bin]
    split
    · next hc =>
      have hr' : s.bin e.bin = some r := hc ▸ hr
      exact ⟨_, Option.map_eq_some_iff.2 ⟨r, hr', rfl⟩⟩
    · exact ⟨r, hr⟩
  have away : ∀ x ∈ s.returns.staging, x.item ≠ k := fun x =>
    h.not_listed fun f hf => Option.some.inj (he.symm.trans hf) ▸ hw
  constructor
  · intro j f hf
    rw [item] at hf
    split at hf
    · cases hf
      obtain ⟨r, hr⟩ := h.homed k e he
      exact present hr
    · obtain ⟨r, hr⟩ := h.homed j f hf
      exact present hr
  · intro b r hr
    obtain ⟨q, hq, _, refs⟩ := back hr
    rw [refs, h.counted b q hq]
    exact (names b).symm
  · intro b r hr
    obtain ⟨q, hq, staged, _⟩ := back hr
    rw [staging, List.countP_append, staged, h.staged b q hq]
    simp
  · intro x hx
    rw [staging, List.mem_append, List.mem_singleton] at hx
    obtain hx | rfl := hx
    · rw [item, if_neg (away x hx)]
      exact h.listed x hx
    · exact ⟨{ e with state := .returned l s.loans.today }, l, by rw [item, if_pos rfl], rfl, rfl⟩
  · intro j f hf hret
    rw [staging, List.countP_append]
    rw [item] at hf
    split at hf
    · next hj =>
      subst hj
      rw [List.countP_eq_zero.2 fun x hx => by simpa using away x hx]
      simp
    · next hj =>
      rw [h.once j f hf hret]
      simp [Ne.symm hj]
  · refine ⟨?_, fun b r hr => ?_⟩
    · have : Config.stagingCapacity = 4096 := rfl
      rw [staging, List.length_append, List.length_singleton]
      omega
    · obtain ⟨q, hq, staged, _⟩ := back hr
      have bound := h.bounded.2 b q hq
      split at staged
      · next hb =>
        subst hb
        have : Config.stagedMax = 64 := rfl
        rw [State.stagedCount, hq, this] at hroom
        simp only at hroom
        omega
      · omega

/-- A RETURNED entry stands once in the list, under its own bin. -/
theorem listed_once (h : s.itemLaw) {k : Nat} {e : Item} (he : s.item k = some e) (hw : e.state.word = .returned) (b : Nat) :
    s.returns.staging.countP (fun x => decide (x.bin = b) && decide (x.item = k)) = if e.bin = b then 1 else 0 := by
  have own {x : StageEntry} (hx : x ∈ s.returns.staging) (hk : x.item = k) : x.bin = e.bin := by
    obtain ⟨f, l, hf, hfb, _⟩ := h.listed x hx
    rw [hk, he] at hf
    rw [← hfb, ← Option.some.inj hf]
  split
  · next hb =>
    rw [← h.once k e he hw]
    refine List.countP_congr fun x hx => ?_
    simp only [Bool.and_eq_true, decide_eq_true_eq]
    exact ⟨fun hx => hx.2, fun hk => ⟨(own hx hk).trans hb, hk⟩⟩
  · next hb =>
    refine List.countP_eq_zero.2 fun x hx => ?_
    simp only [Bool.and_eq_true, decide_eq_true_eq, not_and]
    exact fun hxb hk => hb ((own hx hk).symm.trans hxb)

/-- A RETURNED entry goes from the list with its place in its bin's counts (R148). -/
theorem unstaged_entry (h : s.itemLaw) (ht : s.Tidy) {k : Nat} {e : Item} (he : s.item k = some e)
    (hw : e.state.word = .returned) : (s.unstaged k e).itemLaw := by
  have item (j : Nat) : (s.unstaged k e).item j = if j = k then none else s.item j := by
    rw [State.unstaged, State.modBin_item, State.modReturns_item, State.removeItem_item _ _ _ ht.items]
  have staging : (s.unstaged k e).returns.staging = s.returns.staging.filter fun x => ¬ x.item = k := by
    rw [State.unstaged, State.modBin_returns, State.modReturns_returns, State.removeItem_returns]
  have names (b : Nat) : (s.unstaged k e).namesOf b = (s.removeItem k).namesOf b := by
    rw [State.unstaged, State.namesOf, State.modBin_loans]; rfl
  have bin (c : Nat) : (s.unstaged k e).bin c =
      if c = e.bin then (s.bin e.bin).map fun r => { r with itemRefs := r.itemRefs - 1, staged := r.staged - 1 }
      else s.bin c := by
    rw [State.unstaged, State.modBin_bin, State.modReturns_bin, State.modReturns_bin, State.removeItem_bin he,
      State.removeItem_bin he, if_pos rfl, Option.map_map]
    split <;> rfl
  have back {b : Nat} {r : Bin} (hr : (s.unstaged k e).bin b = some r) :
      ∃ q, s.bin b = some q ∧ r.staged = q.staged - (if e.bin = b then 1 else 0) ∧
        r.itemRefs = q.itemRefs - if e.bin = b then 1 else 0 := by
    rw [bin] at hr
    split at hr
    · next hb =>
      subst hb
      obtain ⟨q, hq, rfl⟩ := Option.map_eq_some_iff.1 hr
      exact ⟨q, hq, by simp, by simp⟩
    · next hb => exact ⟨r, hr, by simp [Ne.symm hb], by simp [Ne.symm hb]⟩
  have listed (b : Nat) : s.listedOf b = (s.unstaged k e).listedOf b + if e.bin = b then 1 else 0 := by
    rw [← h.listed_once he hw b, State.listedOf, State.listedOf, staging, List.countP_filter,
      List.countP_eq_countP_filter_add _ _ fun x => decide (¬ x.item = k), List.countP_filter, List.countP_filter]
    congr 1
    refine List.countP_congr fun x _ => ?_
    simp
  constructor
  · intro j f hf
    rw [item] at hf
    split at hf
    · cases hf
    · obtain ⟨r, hr⟩ := h.homed j f hf
      rw [bin]
      split
      · next hb => rw [hb] at hr; rw [hr]; exact ⟨_, rfl⟩
      · exact ⟨r, hr⟩
  · intro b r hr
    obtain ⟨q, hq, _, refs⟩ := back hr
    have count := State.removeItem_namesOf he b
    have counted : q.itemRefs = s.namesOf b := h.counted b q hq
    show r.itemRefs = (s.unstaged k e).namesOf b
    rw [names]
    omega
  · intro b r hr
    obtain ⟨q, hq, staged, _⟩ := back hr
    have count := listed b
    have counted : q.staged = s.listedOf b := h.staged b q hq
    show r.staged = (s.unstaged k e).listedOf b
    omega
  · intro x hx
    rw [staging, List.mem_filter, decide_eq_true_eq] at hx
    obtain ⟨hx, hk⟩ := hx
    rw [item, if_neg hk]
    exact h.listed x hx
  · intro j f hf hret
    rw [item] at hf
    split at hf
    · cases hf
    · next hj =>
      rw [staging, List.countP_filter, ← h.once j f hf hret]
      refine List.countP_congr fun x _ => ?_
      simp only [Bool.and_eq_true, decide_eq_true_eq, and_iff_left_iff_imp]
      rintro rfl
      exact hj
  · refine ⟨?_, fun b r hr => ?_⟩
    · rw [staging]
      exact (List.length_filter_le _ _).trans h.bounded.1
    · obtain ⟨q, hq, staged, _⟩ := back hr
      have := h.bounded.2 b q hq
      omega

/-- A minute's age changes no count of the list (R142). -/
theorem older (h : s.itemLaw) (x : Option Nat) :
    (s.modReturns fun r => { staging := r.staging.map StageEntry.older, minuteTimer := x }).itemLaw := by
  have count (q : StageEntry → Bool) (hq : ∀ e, q e.older = q e) :
      (s.returns.staging.map StageEntry.older).countP q = s.returns.staging.countP q := by
    rw [List.countP_map]
    exact List.countP_congr fun e _ => by rw [Function.comp_apply, hq]
  refine ⟨h.homed, h.counted, fun b r hr => ?_, fun y hy => ?_, fun k e he hw => ?_, ?_, h.bounded.2⟩
  · exact (h.staged b r hr).trans (count (fun x => decide (x.bin = b)) fun _ => rfl).symm
  · obtain ⟨z, hz, rfl⟩ := List.mem_map.1 hy
    exact h.listed z hz
  · exact (count (fun x => decide (x.item = k)) fun _ => rfl).trans (h.once k e he hw)
  · exact (List.length_map ..).trans_le h.bounded.1

/-- A reset takes the requests out, and counts each bin's entries anew (R42, R137). -/
theorem settledTables (h : s.itemLaw) (ht : s.Tidy) : s.settledTables.itemLaw := by
  have item (k : Nat) (e : Item) : s.settledTables.item k = some e ↔ s.item k = some e ∧ e.state.word ≠ .requested := by
    have kept : (retainedItems s.loans.items).wf := Tab.wf_filter _ _ ht.items
    rw [show s.settledTables.item k = (retainedItems s.loans.items).find k from rfl, Tab.find_eq_some kept, retainedItems,
      List.mem_filter, ← Tab.find_eq_some ht.items, decide_eq_true_eq]
    rfl
  refine ⟨fun k e he => ?_, fun b r hr => ?_, fun b r hr => ?_, fun x hx => ?_, fun k e he hw => ?_, h.bounded.1,
    fun b r hr => ?_⟩
  · obtain ⟨r, hr⟩ := h.homed k e ((item k e).1 he).1
    rw [settledTables_bin, hr]
    exact ⟨_, rfl⟩
  · rw [settledTables_bin] at hr
    obtain ⟨q, _, rfl⟩ := Option.map_eq_some_iff.1 hr
    rfl
  · rw [settledTables_bin] at hr
    obtain ⟨q, hq, rfl⟩ := Option.map_eq_some_iff.1 hr
    exact h.staged b q hq
  · obtain ⟨e, l, he, hb, hst⟩ := h.listed x hx
    exact ⟨e, l, (item _ _).2 ⟨he, by rw [hst]; exact nofun⟩, hb, hst⟩
  · exact h.once k e ((item k e).1 he).1 hw
  · rw [settledTables_bin] at hr
    obtain ⟨q, hq, rfl⟩ := Option.map_eq_some_iff.1 hr
    exact h.bounded.2 b q hq

theorem blank : s.blank.itemLaw where
  homed _ _ h := by cases h
  counted _ _ h := by cases h
  staged _ _ h := by cases h
  listed _ h := by cases h
  once _ _ h := by cases h
  bounded := ⟨Nat.zero_le _, fun _ _ h => by cases h⟩

end State.itemLaw

/-- The law of the entries and of the list is lawful (R38, R124, R139). -/
theorem itemLaw_ledger : Ledger State.itemLaw where
  same h hb hi hs := h.carry hi hs fun b => by rw [State.bin, hb]; rfl
  bin {s} b f _ h hf := by
    refine h.carry (by rw [State.modBin_loans]) (by rw [State.modBin_returns]) fun c => ?_
    rw [State.modBin_bin]
    split
    · next hc =>
      subst hc
      cases hr : s.bin c with
      | none => rfl
      | some r => simp [(hf r hr).staged, (hf r hr).itemRefs]
    · rfl
  uncount ht h he hw := h.removeItem ht he hw
  create _ ht h hb _ := h.putBin_new ht hb rfl rfl
  remove ht h hr h0 := h.delBin ht hr h0
  count _ h he hb hw := h.createItem he hb hw
  reword st ht h he hw hst := h.putItem ht st he hw hst
  stage l ht h he hw hlen hroom := h.staged_entry ht l he hw hlen hroom
  unstage ht h he hw := h.unstaged_entry ht he hw
  older x h := h.older x
  settled ht h := h.settledTables ht
  blank _ := .blank

end Sys2Proof.Machine
end

section
/-! The law of the rotation (R108, R109): the words of the lifts under a removal and an entry. -/

namespace Sys2Proof.Machine

/-! ## Words in rotation -/

/-- The number of words in rotation (R108). -/
def membersOf (w : Nat → Word) : Nat := allLifts.countP fun l => (w l).member

/-- The words of the lifts are numbered from 0 up, each number once, the highest TAIL, and the pointer is one of the numbers,
or 0 where there is none (R108). -/
structure Numbered (w : Nat → Word) (p : Nat) : Prop where
  numbered : ∀ q, q < membersOf w → ∃ l, l < 6 ∧ (w l).seq = some q ∧ ∀ k, k < 6 → (w k).seq = some q → k = l
  below : ∀ l q, l < 6 → (w l).seq = some q → q < membersOf w
  tail : ∀ l q, l < 6 → (w l = .tail q ↔ (w l).seq = some q ∧ q + 1 = membersOf w)
  pointer : p < membersOf w ∨ (membersOf w = 0 ∧ p = 0)

theorem mem_allLifts {l : Nat} : l ∈ allLifts ↔ l < 6 := List.mem_range

theorem Word.member_iff (w : Word) : w.member = true ↔ ∃ q, w.seq = some q := by
  cases w <;> simp [Word.member, Word.seq]

/-- A count over a list without repetition, where one key's test has changed. -/
theorem countP_change {α : Type} [DecidableEq α] {p q : α → Bool} {xs : List α} {l : α} (hn : xs.Nodup) (hl : l ∈ xs)
    (h : ∀ k ∈ xs, k ≠ l → q k = p k) :
    xs.countP q + (if p l then 1 else 0) = xs.countP p + if q l then 1 else 0 := by
  have rest : (xs.erase l).countP q = (xs.erase l).countP p := List.countP_congr fun k hk => by
    rw [h k (List.mem_of_mem_erase hk) ((hn.mem_erase_iff.1 hk).1)]
  rw [(List.perm_cons_erase hl).countP_eq q, (List.perm_cons_erase hl).countP_eq p, List.countP_cons, List.countP_cons, rest]
  omega

/-- The number of words in rotation after one word has changed. -/
theorem membersOf_change {v w : Nat → Word} {l : Nat} (hl : l < 6) (h : ∀ k, k < 6 → k ≠ l → (v k).member = (w k).member) :
    membersOf v + (if (w l).member then 1 else 0) = membersOf w + if (v l).member then 1 else 0 :=
  countP_change List.nodup_range (mem_allLifts.2 hl) fun k hk hne => h k (mem_allLifts.1 hk) hne

theorem membersOf_congr {v w : Nat → Word} (h : ∀ k, k < 6 → (v k).member = (w k).member) : membersOf v = membersOf w :=
  List.countP_congr fun k hk => by rw [h k (mem_allLifts.1 hk)]

/-- A word that is in no rotation is as it was after a renumbering. -/
theorem Word.renumber_idle {w : Word} (q n : Nat) (h : w.member = false) : w.renumber q n = w := by
  cases w with
  | on k => cases h
  | tail k => cases h
  | off => rfl
  | ask => rfl
  | bar => rfl

/-- A number above a removed one falls by one (R111). -/
def lowered (q k : Nat) : Nat := if q < k then k - 1 else k

theorem Word.renumber_member {w : Word} {k : Nat} (q n : Nat) (h : w.seq = some k) :
    w.renumber q n = if lowered q k = n then .tail (lowered q k) else .on (lowered q k) := by
  cases w with
  | on j => cases h; rfl
  | tail j => cases h; rfl
  | off => cases h
  | ask => cases h
  | bar => cases h

theorem Word.renumber_seq (w : Word) (q n : Nat) : (w.renumber q n).seq = w.seq.map (lowered q) := by
  cases h : w.seq with
  | none =>
    have idle : w.member = false := by
      rw [← Bool.not_eq_true, Word.member_iff]
      rintro ⟨k, hk⟩
      rw [hk] at h
      cases h
    rw [Word.renumber_idle q n idle, h]
    rfl
  | some k =>
    rw [Word.renumber_member q n h]
    split <;> rfl

namespace Numbered

variable {v w : Nat → Word} {p : Nat}

/-- Two lifts in rotation with one number are one. -/
theorem seq_inj (h : Numbered w p) {k l q : Nat} (hk : k < 6) (hl : l < 6) (hkq : (w k).seq = some q)
    (hlq : (w l).seq = some q) : k = l := by
  obtain ⟨m, _, _, only⟩ := h.numbered q (h.below k q hk hkq)
  exact (only k hk hkq).trans (only l hl hlq).symm

/-- The law reads the words of the six lifts alone. -/
theorem congr (h : Numbered w p) (hv : ∀ k, k < 6 → v k = w k) : Numbered v p := by
  have size : membersOf v = membersOf w := membersOf_congr fun k hk => by rw [hv k hk]
  refine ⟨fun q hq => ?_, fun l q hl hs => ?_, fun l q hl => ?_, ?_⟩
  · obtain ⟨l, hl, hs, only⟩ := h.numbered q (size ▸ hq)
    exact ⟨l, hl, by rw [hv l hl]; exact hs, fun k hk hkq => only k hk (by rw [← hv k hk]; exact hkq)⟩
  · rw [size]; exact h.below l q hl (by rw [← hv l hl]; exact hs)
  · rw [size, hv l hl]; exact h.tail l q hl
  · rw [size]; exact h.pointer

/-- Words that are in no rotation may become others that are in none. -/
theorem reword (h : Numbered w p) (hv : ∀ k, k < 6 → v k = w k ∨ ((v k).member = false ∧ (w k).member = false)) :
    Numbered v p := by
  have idle {x : Word} {q : Nat} (hx : x.member = false) : x.seq ≠ some q := fun hs => by
    rw [(Word.member_iff x).2 ⟨q, hs⟩] at hx
    cases hx
  have seq (k q : Nat) (hk : k < 6) : (v k).seq = some q ↔ (w k).seq = some q := by
    obtain he | ⟨h₁, h₂⟩ := hv k hk
    · rw [he]
    · exact ⟨fun hs => absurd hs (idle h₁), fun hs => absurd hs (idle h₂)⟩
  have size : membersOf v = membersOf w := membersOf_congr fun k hk => by
    obtain he | ⟨h₁, h₂⟩ := hv k hk
    · rw [he]
    · rw [h₁, h₂]
  refine ⟨fun q hq => ?_, fun l q hl hs => ?_, fun l q hl => ?_, ?_⟩
  · obtain ⟨l, hl, hs, only⟩ := h.numbered q (size ▸ hq)
    exact ⟨l, hl, (seq l q hl).2 hs, fun k hk hkq => only k hk ((seq k q hk).1 hkq)⟩
  · rw [size]; exact h.below l q hl ((seq l q hl).1 hs)
  · rw [size, seq l q hl, ← h.tail l q hl]
    obtain he | ⟨h₁, h₂⟩ := hv l hl
    · rw [he]
    · have not_tail {x : Word} (hx : x.member = false) : x ≠ .tail q := fun he => by rw [he] at hx; cases hx
      exact ⟨fun he => absurd he (not_tail h₁), fun he => absurd he (not_tail h₂)⟩
  · rw [size]; exact h.pointer

/-- A lift with number `q` leaves the rotation: the numbers above fall by one, the highest left is TAIL, and the pointer
goes on naming a lift in rotation (R111). -/
theorem remove (h : Numbered w p) {l q : Nat} (hl : l < 6) (hq : (w l).seq = some q) (hvl : (v l).member = false)
    (hv : ∀ k, k < 6 → k ≠ l → v k = (w k).renumber q (membersOf w - 2)) :
    Numbered v (pointerAfter p q (membersOf w)) := by
  have hqn : q < membersOf w := h.below l q hl hq
  have seq_l {j : Nat} : (v l).seq ≠ some j := fun hs => by
    rw [(Word.member_iff _).2 ⟨j, hs⟩] at hvl
    cases hvl
  have seq (k : Nat) (hk : k < 6) (hne : k ≠ l) : (v k).seq = (w k).seq.map (lowered q) := by
    rw [hv k hk hne, Word.renumber_seq]
  have size : membersOf v + 1 = membersOf w := by
    have change := membersOf_change (v := v) (w := w) hl fun k hk hne => by
      rw [Bool.eq_iff_iff, Word.member_iff, Word.member_iff, seq k hk hne]
      simp
    rwa [(Word.member_iff _).2 ⟨q, hq⟩, hvl] at change
  have source {k j : Nat} (hk : k < 6) (hs : (v k).seq = some j) :
      k ≠ l ∧ ∃ i, (w k).seq = some i ∧ i ≠ q ∧ lowered q i = j ∧ i < membersOf w := by
    have hne : k ≠ l := by rintro rfl; exact seq_l hs
    rw [seq k hk hne] at hs
    obtain ⟨i, hi, hij⟩ := Option.map_eq_some_iff.1 hs
    exact ⟨hne, i, hi, fun he => hne (h.seq_inj hk hl (he ▸ hi) hq), hij, h.below k i hk hi⟩
  refine ⟨fun j hj => ?_, fun k j hk hs => ?_, fun k j hk => ?_, ?_⟩
  · obtain ⟨i, hi, hiq, hij⟩ : ∃ i, i < membersOf w ∧ i ≠ q ∧ lowered q i = j := by
      unfold lowered
      by_cases hjq : j < q
      · exact ⟨j, by omega, by omega, if_neg (by omega)⟩
      · exact ⟨j + 1, by omega, by omega, if_pos (by omega)⟩
    obtain ⟨k, hk, hks, only⟩ := h.numbered i hi
    have hne : k ≠ l := by rintro rfl; rw [hq] at hks; exact hiq (Option.some.inj hks).symm
    refine ⟨k, hk, by rw [seq k hk hne, hks, Option.map_some, hij], fun m hm hms => ?_⟩
    obtain ⟨_, i', hi', hi'q, hi'j, _⟩ := source hm hms
    refine only m hm ?_
    rw [hi', Option.some.injEq]
    unfold lowered at hij hi'j
    split at hij <;> split at hi'j <;> omega
  · obtain ⟨_, i, _, hiq, hij, hin⟩ := source hk hs
    unfold lowered at hij
    split at hij <;> omega
  · constructor
    · intro ht
      have hs : (v k).seq = some j := by rw [ht]; rfl
      obtain ⟨hne, i, hi, _, hij, hin⟩ := source hk hs
      rw [hv k hk hne, Word.renumber_member _ _ hi, hij] at ht
      split at ht
      · exact ⟨hs, by omega⟩
      · cases ht
    · rintro ⟨hs, hj⟩
      obtain ⟨hne, i, hi, _, hij, _⟩ := source hk hs
      rw [hv k hk hne, Word.renumber_member _ _ hi, hij, if_pos (by omega)]
  · unfold pointerAfter
    split
    · exact .inr ⟨by omega, rfl⟩
    · left
      have : membersOf w - 1 = membersOf v := by omega
      rw [this]
      exact Nat.mod_lt _ (by omega)

/-- A lift that is in no rotation enters it as TAIL, with the next number (R109). -/
theorem enter (h : Numbered w p) {l : Nat} (hl : l < 6) (hwl : (w l).member = false) (hvl : v l = .tail (membersOf w))
    (hv : ∀ k, k < 6 → k ≠ l → v k = match w k with | .tail q => .on q | x => x) : Numbered v p := by
  have seq_l {j : Nat} : (v l).seq = some j ↔ j = membersOf w := by rw [hvl]; simp [Word.seq, eq_comm]
  have not_l {k j : Nat} (hs : (w k).seq = some j) : k ≠ l := by
    rintro rfl
    rw [(Word.member_iff _).2 ⟨j, hs⟩] at hwl
    cases hwl
  have seq (k : Nat) (hk : k < 6) (hne : k ≠ l) : (v k).seq = (w k).seq := by
    rw [hv k hk hne]
    cases w k <;> rfl
  have size : membersOf v = membersOf w + 1 := by
    have change := membersOf_change (v := v) (w := w) hl fun k hk hne => by
      rw [Bool.eq_iff_iff, Word.member_iff, Word.member_iff, seq k hk hne]
    rw [hwl, hvl] at change
    simpa [Word.member] using change
  refine ⟨fun j hj => ?_, fun k j hk hs => ?_, fun k j hk => ?_, ?_⟩
  · by_cases hjn : j = membersOf w
    · refine ⟨l, hl, seq_l.2 hjn, fun k hk hks => ?_⟩
      by_contra hne
      rw [seq k hk hne] at hks
      have := h.below k j hk hks
      omega
    · obtain ⟨k, hk, hks, only⟩ := h.numbered j (by omega)
      refine ⟨k, hk, by rw [seq k hk (not_l hks)]; exact hks, fun m hm hms => ?_⟩
      have hne : m ≠ l := by rintro rfl; exact hjn (seq_l.1 hms)
      exact only m hm (by rw [← seq m hm hne]; exact hms)
  · by_cases hkl : k = l
    · subst hkl
      have := seq_l.1 hs
      omega
    · rw [seq k hk hkl] at hs
      have := h.below k j hk hs
      omega
  · by_cases hkl : k = l
    · subst hkl
      rw [seq_l, hvl, Word.tail.injEq]
      exact ⟨fun hj => ⟨hj.symm, by omega⟩, fun hj => hj.1.symm⟩
    · rw [seq k hk hkl, hv k hk hkl]
      constructor
      · intro ht
        split at ht
        · cases ht
        · next hx => exact absurd ht (hx j)
      · rintro ⟨hs, hj⟩
        have := h.below k j hk hs
        omega
  · obtain hp | ⟨h0, hp⟩ := h.pointer
    · exact .inl (by omega)
    · exact .inl (by omega)

/-- The pointer steps past a lift in rotation (R117). -/
theorem pass (h : Numbered w p) {l : Nat} (hl : l < 6) (hm : (w l).member = true) : Numbered w (w l).nextPointer := by
  refine { h with pointer := .inl ?_ }
  obtain ⟨q, hq⟩ := (Word.member_iff _).1 hm
  have hqn := h.below l q hl hq
  cases hw : w l with
  | on k =>
    have hk : k = q := by rw [hw] at hq; exact Option.some.inj hq
    have not_tail : w l ≠ .tail q := by rw [hw]; exact nofun
    have last : ¬ q + 1 = membersOf w := fun he => not_tail ((h.tail l q hl).2 ⟨hq, he⟩)
    simp only [Word.nextPointer]
    omega
  | tail k => exact Nat.zero_lt_of_lt hqn
  | off => rw [hw] at hm; cases hm
  | ask => rw [hw] at hm; cases hm
  | bar => rw [hw] at hm; cases hm

/-- No lift is in rotation after a reset (R122). -/
theorem empty (hw : ∀ k, k < 6 → (w k).member = false) : Numbered w 0 := by
  have size : membersOf w = 0 := List.countP_eq_zero.2 fun k hk => by rw [hw k (mem_allLifts.1 hk)]; exact nofun
  have idle {k q : Nat} (hk : k < 6) (hs : (w k).seq = some q) : False := by
    have := hw k hk
    rw [(Word.member_iff _).2 ⟨q, hs⟩] at this
    cases this
  refine ⟨fun q hq => by omega, fun k q hk hs => (idle hk hs).elim, fun k q hk => ?_, .inr ⟨size, rfl⟩⟩
  exact ⟨fun ht => (idle (q := q) hk (by rw [ht]; rfl)).elim, fun hs => (idle hk hs.1).elim⟩

end Numbered

/-! ## The law, but for the answer timers of some lifts -/

/-- The words of the lifts are numbered, and an answer timer runs only for a lift in ASK, lifts of a list apart. -/
structure State.rotationBut (s : State) (ls : List Nat) : Prop where
  words : Numbered (fun l => (s.lift l).word) s.pool.pointer
  asked : ∀ l, l < 6 → l ∉ ls → (s.lift l).answerTimer.isSome = true → (s.lift l).word = .ask

theorem rotationLaw_iff (s : State) : s.rotationLaw ↔ s.rotationBut [] :=
  ⟨fun h => ⟨⟨h.numbered, h.below, h.tail, h.pointer⟩, fun l hl _ => h.asked l hl⟩,
    fun h => ⟨h.words.numbered, h.words.below, h.words.tail, h.words.pointer, fun l hl => h.asked l hl nofun⟩⟩

namespace State.rotationBut

variable {s t : State} {ls : List Nat}

theorem alike (h : s.rotationBut ls) (ha : Alike s t) : t.rotationBut ls := by
  refine ⟨?_, fun l hl hn ht => (ha.words l).trans (h.asked l hl hn (ha.asking l ht))⟩
  rw [ha.pointer]
  exact h.words.congr fun k _ => ha.words k

theorem of_pool (h : s.rotationBut ls) (hp : t.pool = s.pool) : t.rotationBut ls := by
  have lift (l : Nat) : t.lift l = s.lift l := by rw [State.lift, hp]; rfl
  refine ⟨?_, fun l hl hn ht => by rw [lift] at ht ⊢; exact h.asked l hl hn ht⟩
  rw [hp]
  exact h.words.congr fun k _ => by rw [lift]

theorem neutral (ls : List Nat) : Neutral fun s => s.rotationBut ls where
  alike h ha := h.alike ha
  bin _ _ _ h _ := h.of_pool (State.modBin_pool ..)
  uncount _ h _ _ := h.of_pool (State.removeItem_pool ..)
  pass _ h hl hm := ⟨h.words.pass hl hm, h.asked⟩

theorem mono {ms : List Nat} (h : s.rotationBut ls) (hs : ∀ l ∈ ls, l ∈ ms) : s.rotationBut ms :=
  ⟨h.words, fun l hl hn => h.asked l hl (mt (hs l) hn)⟩

end State.rotationBut

/-! ## The operations of the rotation -/

section
variable {s : State} {ls : List Nat}

/-- A lift read after a change of several. -/
theorem forEachLift_lift (ht : s.Tidy) (f : Nat → Lift → Lift) (hn : ls.Nodup) (k : Nat) :
    (forEach ls (fun k s => s.modLift k (f k)) s).lift k = if k ∈ ls then f k (s.lift k) else s.lift k := by
  induction ls generalizing s with
  | nil => rfl
  | cons l ls ih =>
    obtain ⟨hl, hn⟩ := List.nodup_cons.1 hn
    rw [forEach_cons, ih (Kept.tidy_setLift ht l (f l)) hn, State.modLift_lift _ _ _ _ ht.lifts.1]
    by_cases hk : k = l
    · subst hk
      rw [if_neg hl, if_pos rfl, if_pos List.mem_cons_self]
    · simp only [List.mem_cons, hk, false_or, if_false]

theorem forEachLift_all (ht : s.Tidy) (f : Nat → Lift → Lift) {k : Nat} (hk : k < 6) :
    (forEach allLifts (fun k s => s.modLift k (f k)) s).lift k = f k (s.lift k) := by
  rw [forEachLift_lift ht f (ls := allLifts) List.nodup_range, if_pos (mem_allLifts.2 hk)]

/-- A lift that is in no rotation takes a word that is in none. -/
theorem removeLift_idle {l : Nat} {w : Word} (hs : (s.lift l).word.seq = none) : s.removeLift l w = s.setWord l w := by
  rw [State.removeLift, hs]

@[simp] theorem setPointer_lift (n k : Nat) : (s.modPool fun p => { p with pointer := n }).lift k = s.lift k := rfl

/-- A removal from the rotation renumbers the lifts that stay, and then sets the pointer (R111). -/
theorem removeLift_member {l q : Nat} {w : Word} (hs : (s.lift l).word.seq = some q) :
    s.removeLift l w =
      (forEach allLifts (fun k t => t.modLift k fun r => { r with word := r.word.renumber q (s.rotationSize - 2) })
        (s.setWord l w)).modPool fun p => { p with pointer := pointerAfter s.pool.pointer q s.rotationSize } := by
  rw [State.removeLift, hs]

theorem removeLift_lift (ht : s.Tidy) {l q : Nat} {w : Word} (hs : (s.lift l).word.seq = some q) (hw : w.member = false)
    {k : Nat} (hk : k < 6) :
    (s.removeLift l w).lift k =
      if k = l then { s.lift l with word := w }
      else { s.lift k with word := (s.lift k).word.renumber q (s.rotationSize - 2) } := by
  have set : (s.setWord l w).Tidy := Kept.tidy_setLift ht l _
  rw [removeLift_member hs, setPointer_lift,
    forEachLift_all set (fun _ r => { r with word := r.word.renumber q (s.rotationSize - 2) }) hk, State.setWord,
    State.modLift_lift _ _ _ _ ht.lifts.1]
  split
  · rw [Word.renumber_idle _ _ hw]
  · rfl

theorem removeLift_pointer {l q : Nat} {w : Word} (hs : (s.lift l).word.seq = some q) :
    (s.removeLift l w).pool.pointer = pointerAfter s.pool.pointer q s.rotationSize := by
  rw [removeLift_member hs, State.modPool_pool]

/-- A lift takes a word that is in no rotation, be it in rotation or not: the others keep the law. -/
theorem removeLift_rotationBut (h : s.rotationBut ls) (ht : s.Tidy) {l : Nat} (hl : l < 6) {w : Word} (hw : w.member = false) :
    (s.removeLift l w).rotationBut (l :: ls) := by
  cases hs : (s.lift l).word.seq with
  | none =>
    have lift (k : Nat) := s.modLift_lift l k (fun r => { r with word := w }) ht.lifts.1
    have idle : (s.lift l).word.member = false := by
      rw [← Bool.not_eq_true, Word.member_iff, hs]
      exact nofun
    rw [removeLift_idle hs]
    refine ⟨h.words.reword fun k _ => ?_, fun k hk hn => ?_⟩
    · simp only [State.setWord, lift]
      split
      · next hkl => subst hkl; exact .inr ⟨hw, idle⟩
      · exact .inl rfl
    · obtain ⟨hkl, hn⟩ := not_or.1 (mt List.mem_cons.2 hn)
      rw [State.setWord, lift, if_neg hkl]
      exact h.asked k hk hn
  | some q =>
    have lift {k : Nat} (hk : k < 6) := removeLift_lift ht hs hw hk
    refine ⟨?_, fun k hk hn ha => ?_⟩
    · rw [removeLift_pointer hs]
      refine h.words.remove hl hs ?_ fun k hk hne => ?_
      · simp only [lift hl, if_true]; exact hw
      · simp only [lift hk, if_neg hne]; rfl
    · obtain ⟨hkl, hn⟩ := not_or.1 (mt List.mem_cons.2 hn)
      rw [lift hk, if_neg hkl] at ha ⊢
      have := h.asked k hk hn ha
      simp only [this, Word.renumber]

/-- A lift whose answer timer stops keeps the law, and need not be left out of it. -/
theorem stopAnswer_rotationBut (h : s.rotationBut ls) (ht : s.Tidy) (l : Nat) (f : Lift → Lift)
    (hw : ∀ r, (f r).word = r.word := by exact fun _ => rfl) (hf : ∀ r, (f r).answerTimer = none := by exact fun _ => rfl) :
    (s.modLift l f).rotationBut (ls.filter fun k => k ≠ l) := by
  have lift (k : Nat) := s.modLift_lift l k f ht.lifts.1
  refine ⟨h.words.congr fun k _ => ?_, fun k hk hn ha => ?_⟩
  · simp only [lift]
    split
    · next hkl => rw [hw, hkl]
    · rfl
  · rw [lift] at ha ⊢
    split at ha
    · rw [hf] at ha; cases ha
    · next hkl =>
      rw [if_neg hkl]
      exact h.asked k hk (fun hm => hn (List.mem_filter.2 ⟨hm, by simpa using hkl⟩)) ha

/-- A lift in no rotation takes another word of none, with its answer timer only in ASK. -/
theorem wordless_rotationBut (h : s.rotationBut []) (ht : s.Tidy) {l : Nat} (f : Lift → Lift)
    (hf : (f (s.lift l)).word.member = false) (hw : (s.lift l).word.member = false)
    (ha : (f (s.lift l)).answerTimer.isSome = true → (f (s.lift l)).word = .ask) : (s.modLift l f).rotationBut [] := by
  have lift (k : Nat) := s.modLift_lift l k f ht.lifts.1
  refine ⟨h.words.reword fun k _ => ?_, fun k hk hn hk' => ?_⟩
  · simp only [lift]
    split
    · next hkl => exact .inr ⟨hf, hkl ▸ hw⟩
    · exact .inl rfl
  · rw [lift] at hk' ⊢
    split at hk'
    · next hkl => rw [if_pos hkl]; exact ha hk'
    · next hkl => rw [if_neg hkl]; exact h.asked k hk hn hk'

/-- Barring: once its carries are stranded, a barred lift's answer timer no longer runs. -/
theorem barCarries_rotationBut {l : Nat} (cause : BarCause) (h : Kept (fun s => s.rotationBut ls) s) :
    Kept (fun s => s.rotationBut (ls.filter fun k => k ≠ l)) (State.barCarries cause l s) := by
  unfold State.barCarries
  have stopped : Kept (fun s => s.rotationBut (ls.filter fun k => k ≠ l)) (s.modLift l fun r =>
      { r with answerTimer := none, carries := r.carries.map fun c => { c with late := true, timer := none } }) :=
    ⟨State.rotationBut.neutral _, Kept.tidy_setLift h.tidy l _, stopAnswer_rotationBut h.law h.tidy l _⟩
  exact (stopped.forEach _ _ fun c _ h => h.strandCarry c).notice _

/-- What runs over keys of a list keeps what it keeps for each of them. -/
theorem forEach_induct_mem {α σ : Type} (P : σ → Prop) (f : α → σ → σ) (xs : List α) (h : ∀ x ∈ xs, ∀ s, P s → P (f x s))
    (s : σ) (hs : P s) : P (forEach xs f s) := by
  induction xs generalizing s with
  | nil => exact hs
  | cons x xs ih =>
    rw [forEach_cons]
    exact ih (fun y hy => h y (List.mem_cons_of_mem _ hy)) _ (h x List.mem_cons_self s hs)

theorem mem_of_mem_bySeqDown {l : Nat} (h : l ∈ s.bySeqDown ls) : l ∈ ls := by
  rw [State.bySeqDown, List.mem_append, List.mem_filterMap, List.mem_filter] at h
  obtain ⟨q, _, hf⟩ | ⟨hl, _⟩ := h
  · exact List.mem_of_find?_eq_some hf
  · exact hl

/-- The stranding of every carry of the lifts that were left out of the law. -/
theorem barAllCarries_rotationBut (cause : BarCause) (ms : List Nat) (h : Kept (fun s => s.rotationBut ls) s)
    (hm : ∀ l ∈ ls, l ∈ ms) : (forEach ms (State.barCarries cause) s).rotationBut [] := by
  induction ms generalizing s ls with
  | nil => exact h.law.mono fun l hl => hm l hl
  | cons m ms ih =>
    rw [forEach_cons]
    refine ih (barCarries_rotationBut cause h) fun l hl => ?_
    obtain ⟨hl, hne⟩ := List.mem_filter.1 hl
    exact (List.mem_cons.1 (hm l hl)).resolve_left (by simpa using hne)

/-- Barring several lifts keeps the law (R111, R113). -/
theorem barLifts_rotationBut (h : Kept (fun s => s.rotationBut []) s) (cause : BarCause) (hl : ∀ l ∈ ls, l < 6) :
    (s.barLifts ls cause).rotationBut [] := by
  have removed : State.Tidy (forEach (s.bySeqDown ls) (fun l s => s.removeLift l .bar) s) ∧
      State.rotationBut (forEach (s.bySeqDown ls) (fun l s => s.removeLift l .bar) s) ls :=
    forEach_induct_mem (fun s => s.Tidy ∧ s.rotationBut ls) _ _
      (fun l hm t ⟨ht, hr⟩ => ⟨Kept.tidy_removeLift ht l _, by
        have hm := mem_of_mem_bySeqDown hm
        refine (removeLift_rotationBut hr ht (hl l hm) rfl).mono fun k hk => ?_
        obtain rfl | hk := List.mem_cons.1 hk
        · exact hm
        · exact hk⟩) s ⟨h.tidy, h.law.mono nofun⟩
  have told := Kept.tellWords ⟨State.rotationBut.neutral ls, removed.1, removed.2⟩ s
  exact (barAllCarries_rotationBut cause ls told fun _ h => h).of_pool rfl

/-- The TAIL of a rotation that is entered becomes ON (R109). -/
def Lift.untailed (r : Lift) : Lift :=
  match r.word with
  | .tail q => { r with word := .on q }
  | _ => r

theorem enterRotation_eq (l : Nat) : s.enterRotation l =
    ((forEach allLifts (fun k t => t.modLift k Lift.untailed) s).setWord l (.tail s.rotationSize)).modLift l
      fun r => { r with answerTimer := none } := rfl

/-- The lifts after one has entered the rotation (R109). -/
theorem enterRotation_lift (ht : s.Tidy) {l k : Nat} (hl : l < 6) (hk : k < 6) :
    (s.enterRotation l).lift k =
      if k = l then { (s.lift l).untailed with word := .tail s.rotationSize, answerTimer := none } else (s.lift k).untailed := by
  have tails := Kept.tidy_forEachLift ht allLifts fun _ => Lift.untailed
  have tailed : (State.setWord (forEach allLifts (fun k t => t.modLift k Lift.untailed) s) l (.tail s.rotationSize)).Tidy :=
    Kept.tidy_setLift tails l _
  have untailed {k : Nat} (hk : k < 6) := forEachLift_all ht (fun _ => Lift.untailed) hk
  rw [enterRotation_eq, State.modLift_lift _ _ _ _ tailed.lifts.1, State.setWord, State.modLift_lift _ _ _ _ tails.lifts.1,
    State.modLift_lift _ _ _ _ tails.lifts.1, if_pos rfl, untailed hl, untailed hk]
  split <;> rfl

theorem enterRotation_pointer (l : Nat) : (s.enterRotation l).pool.pointer = s.pool.pointer :=
  forEach_keeps (fun s : State => s.pool.pointer) (fun k t => t.modLift k Lift.untailed) (fun _ _ => rfl) allLifts s

theorem Lift.untailed_word (r : Lift) : r.untailed.word = match r.word with | .tail q => .on q | x => x := by
  unfold Lift.untailed
  cases h : r.word <;> simp [h]

theorem Lift.untailed_timer (r : Lift) : r.untailed.answerTimer = r.answerTimer := by
  unfold Lift.untailed
  cases r.word <;> rfl

/-- A lift in ASK that enters keeps the law (R109). -/
theorem enterRotation_rotationBut (h : s.rotationBut []) (ht : s.Tidy) {l : Nat} (hl : l < 6) (hw : (s.lift l).word = .ask) :
    (s.enterRotation l).rotationBut [] := by
  have lift {k : Nat} (hk : k < 6) := enterRotation_lift ht hl hk
  refine ⟨?_, fun k hk hn ha => ?_⟩
  · rw [enterRotation_pointer]
    refine h.words.enter hl (by rw [hw]; rfl) ?_ fun k hk hne => ?_
    · simp only [lift hl, if_true]; rfl
    · simp only [lift hk, if_neg hne]; exact Lift.untailed_word _
  · rw [lift hk] at ha ⊢
    split at ha
    · cases ha
    · next hne =>
      rw [Lift.untailed_timer] at ha
      rw [if_neg hne, Lift.untailed_word, h.asked k hk hn ha]

/-- The lifts that a reset has left stand in no rotation (R122). -/
theorem resetLifts_rotationBut (ht : s.Tidy) (hp : s.pool.pointer = 0) :
    (forEach allLifts (fun l t => t.modLift l Lift.afterReset) s).rotationBut [] := by
  have lift {k : Nat} (hk : k < 6) := forEachLift_all ht (fun _ => Lift.afterReset) hk
  have pointer : (forEach allLifts (fun l t => t.modLift l Lift.afterReset) s).pool.pointer = 0 :=
    (forEach_keeps (fun s : State => s.pool.pointer) (fun l t => t.modLift l Lift.afterReset) (fun _ _ => rfl) allLifts s).trans hp
  refine ⟨?_, fun k hk _ ha => ?_⟩
  · rw [pointer]
    exact .empty fun k hk => by rw [lift hk]; rfl
  · rw [lift hk] at ha
    cases ha

/-- The cranes and stations after a reset, the lifts not yet. -/
def State.resetUnits (s : State) : State :=
  forEach allStations (fun st s => s.modStation st Station.afterReset)
    (forEach allAisles (fun a s => s.modCrane a (Crane.afterReset (s.aisle a))) s.settledTables)

theorem tidy_resetUnits (ht : s.Tidy) : s.resetUnits.Tidy := by
  have cranes := Kept.forEach ⟨Neutral.trivial, tidy_settledTables ht, ⟨⟩⟩ allAisles
    (fun a s => s.modCrane a (Crane.afterReset (s.aisle a))) fun a _ h => h.modCrane a _
  exact (cranes.forEach allStations (fun st s => s.modStation st Station.afterReset) fun st _ h => h.modStation st _).tidy

theorem resetUnits_pointer : s.resetUnits.pool.pointer = 0 := by
  rw [State.resetUnits, forEach_keeps (fun s : State => s.pool.pointer) (fun st s => s.modStation st Station.afterReset)
    (fun _ _ => rfl), forEach_keeps (fun s : State => s.pool.pointer)
    (fun a s => s.modCrane a (Crane.afterReset (s.aisle a))) (fun _ _ => rfl)]
  rfl

/-- A reset leaves no lift in rotation (R122). -/
theorem settleBlocks_rotationBut (ht : s.Tidy) : s.settleBlocks.rotationBut [] := by
  rw [State.settleBlocks_eq]
  have reset : State.Tidy _ ∧ State.rotationBut _ [] := ⟨Kept.tidy_forEachLift (tidy_resetUnits ht) allLifts fun _ => Lift.afterReset,
    resetLifts_rotationBut (tidy_resetUnits ht) resetUnits_pointer⟩
  exact (Kept.forEach ⟨State.rotationBut.neutral [], reset.1, reset.2⟩ allLifts _ fun l _ h => h.sendMember l).law

end

/-- The law of the rotation is lawful (R108). -/
theorem rotationBut_lawful : Lawful fun s => s.rotationBut [] where
  toNeutral := State.rotationBut.neutral []
  leave {s l} hs hl := (stopAnswer_rotationBut (removeLift_rotationBut hs.law hs.tidy hl rfl)
    (Kept.tidy_removeLift hs.tidy l _) l _).mono (by simp)
  bar ls cause hs hl := barLifts_rotationBut hs cause hl
  enter hs hl hw := enterRotation_rotationBut hs.law hs.tidy hl hw
  ask {s l} x hs _ hw := wordless_rotationBut hs.law hs.tidy _ rfl hw fun _ => rfl
  fail {s l} hs hl hw := wordless_rotationBut hs.law hs.tidy Lift.unasked rfl
    (by rw [hw.elim id (hs.law.asked l hl nofun)]; rfl) nofun
  create _ hs _ _ := hs.law.of_pool rfl
  remove hs _ _ := hs.law.of_pool rfl
  count hs _ _ _ := hs.law.of_pool (State.createItem_pool ..)
  reword _ hs _ _ _ := hs.law.of_pool rfl
  stage _ hs _ _ _ _ := hs.law.of_pool (State.modBin_pool ..)
  unstage hs _ _ := hs.law.of_pool ((State.modBin_pool ..).trans (State.removeItem_pool ..))
  older _ hs := hs.law.of_pool rfl
  settled hs := settleBlocks_rotationBut hs.tidy
  blank _ := ⟨.empty fun _ _ => rfl, fun _ _ _ h => by cases h⟩

/-- Settles O8: the law of the rotation is lawful. -/
theorem rotationKeepsItsLaw : Obligations.RotationKeepsItsLaw := fun s t ht h hs =>
  (rotationLaw_iff t).2 (rotationBut_lawful.step ⟨State.rotationBut.neutral [], ht, (rotationLaw_iff s).1 h⟩ hs).law

end Sys2Proof.Machine
end

section
/-! The kept output levels follow the zones, the mode and the aisles (R170, R171, R180, R183). -/

namespace Sys2Proof.Machine

/-- The zones but for their timers are what a suspension leaves. -/
theorem untimed_zone {s : State} (ht : s.Tidy) (z : Nat) : s.untimed.zone z = (s.zone z).untimed :=
  Tab.get_mapSet s.zones Zone.powerOn Zone.untimed z ht.zones.1 rfl

theorem outputLevels_of_zoneStates {s t : State} (hz : ∀ z, (t.zone z).state = (s.zone z).state)
    (hm : t.mode.mode = s.mode.mode) (ha : t.store.aisles = s.store.aisles) : t.outputLevels = s.outputLevels := by
  have drive : t.driveLevel = s.driveLevel := by
    funext a
    simp only [State.driveLevel, State.aisle, ha, hm, hz]
  have shutter : t.shutterLevel = s.shutterLevel := by funext z; simp only [State.shutterLevel, hz]
  have beacon : t.beaconLevel = s.beaconLevel := by simp only [State.beaconLevel, State.zoneClear, hz]
  rw [State.outputLevels, State.outputLevels, drive, shutter, beacon]

theorem outputsFollow_handed {s t : State} (h : s.outputsFollow) (k : Handed s t) : t.outputsFollow := by
  have levels : t.outputLevels = s.outputLevels :=
    outputLevels_congr s t k.zones (congrArg ModeControl.mode k.mode) (congrArg StorageMap.aisles k.store)
  unfold State.outputsFollow at h ⊢
  rwa [k.resets, k.outputs, levels]

/-- The kept levels outlast every command: an event recomputes them where it changes what they follow. -/
theorem outputsFollow_outlasts : Outlasts (fun _ => True) fun s => s.Tidy ∧ s.outputsFollow where
  lawful := Ledger.trivial.lawful
  kept h := ⟨Neutral.trivial, h.1, ⟨⟩⟩
  close {s u} a h hu := ⟨(hu.closeEvent s a).tidy, closeEvent_follows s u a h.2⟩
  raise {s} i h := ⟨(Kept.raise (K := fun _ => True) ⟨Neutral.trivial, h.1, ⟨⟩⟩ i).tidy, h.2⟩
  up {s} x h := ⟨(Kept.handUp (K := fun _ => True) ⟨Neutral.trivial, h.1, ⟨⟩⟩ x).tidy, outputsFollow_handed h.2 (handUp_handed x s)⟩
  down {s} x h := ⟨(Kept.handDown (K := fun _ => True) ⟨Neutral.trivial, h.1, ⟨⟩⟩ x).tidy, outputsFollow_handed h.2 (handDown_handed x s)⟩
  ports f h := ⟨{ h.1 with }, h.2⟩
  resets {s} f h hp := ⟨{ h.1 with }, by
    have h := h.2
    unfold State.outputsFollow at h ⊢
    rw [show (s.modResets f).resets.phase = s.resets.phase from hp]
    exact h⟩
  wiring {s} n w h := ⟨(Kept.setWiring (K := fun _ => True) ⟨Neutral.trivial, h.1, ⟨⟩⟩ n w).tidy, h.2⟩
  suspend {s} h hr := ⟨(Kept.suspend (K := fun _ => True) ⟨Neutral.trivial, h.1, ⟨⟩⟩).tidy, by
    have levels : s.outputs = s.outputLevels := by
      have h := h.2
      unfold State.outputsFollow at h
      rwa [hr] at h
    have kept : s.suspend.outputLevels = s.outputLevels :=
      outputLevels_of_zoneStates (fun z => by
        have : s.suspend.zone z = s.untimed.zone z := rfl
        rw [this, untimed_zone h.1]
        rfl) rfl rfl
    show s.suspend.outputs = s.suspend.outputLevels
    rw [kept, ← levels]
    rfl⟩
  beginReset {s} r e h := ⟨(Kept.beginReset (K := fun _ => True) ⟨Neutral.trivial, h.1, ⟨⟩⟩ r e).tidy, rfl⟩
  blank {s} h := ⟨tidy_blank h.1, rfl⟩
  power {s} f h hp := ⟨{ tidy_blank h.1 with }, by
    unfold State.outputsFollow
    rw [show (s.blank.modResets f).resets.phase = .resetting from hp]
    rfl⟩

/-- Settles O6: the kept levels outlast every command. -/
theorem outputsFollowEveryStep : Obligations.OutputsFollowEveryStep := fun _ _ ht h hs =>
  (step_keeps (P := fun s => s.Tidy ∧ s.outputsFollow) (fun _ _ h => ⟨{ h.1 with }, h.2⟩) (fun _ h => ⟨{ h.1 with }, h.2⟩)
    (fun c _ _ h he => outputsFollow_outlasts.exec c h he) ⟨ht, h⟩ hs).2

end Sys2Proof.Machine
end

section
/-! How live commands end, and the Return Unit: the minute timer (R142), the creation of restore orders (R87, R144 to
R146), and the law of the entries and of the staging list (R38, R124, R139). -/

namespace Sys2Proof.Machine

/-! ## The ends of events -/

section
variable {s : State}

/-- An event of a running part ends with what its body came to. -/
theorem event_ends {body : State → State} {u : State} (hr : s.running) (h : body s.beginEvent = u) :
    s.live (s.event body) = .next (s.eventEnds u) := by
  rw [live_running _ hr, ← h]
  rfl

/-- An event without an effect closes at once. -/
theorem event_idle {body : State → State} (hr : s.running) (h : body s.beginEvent = s.beginEvent) :
    s.live (s.event body) = .next (s.closeEvent s.beginEvent none) := by
  rw [event_ends hr h, State.eventEnds, settle_beginEvent]

/-- A request to a running part ends with what its body came to, and the ANSWER composed at its end. -/
theorem request_ends {body : State → State × (State → Answer)} {u : State} {a : State → Answer} (hr : s.running)
    (h : body s.beginEvent = (u, a)) : s.live (s.request body) = .next (s.requestEnds u (a u.settle)) := by
  rw [live_running _ hr, State.request, h]
  rfl

/-- A request without an effect only answers. -/
theorem request_answers {body : State → State × (State → Answer)} {a : State → Answer} (hr : s.running)
    (h : body s.beginEvent = (s.beginEvent, a)) : s.live (s.request body) = .next (s.onlyAnswers (a s.beginEvent)) := by
  rw [request_ends hr h, State.requestEnds, settle_beginEvent]
  rfl

end

/-! ## Free records and numbers -/

/-- The lowest index that a table does not list is found. -/
theorem freeIndex_eq_some {α : Type} {t : Tab α} {n i : Nat} :
    freeIndex t n = some i ↔ i < n ∧ t.find i = none ∧ ∀ j, j < i → (t.find j).isSome = true := by
  rw [freeIndex, List.find?_range_eq_some, List.mem_range]
  simp only [Option.isNone_iff_eq_none, Bool.not_eq_true', Option.isNone_eq_false_iff]
  exact ⟨fun ⟨h, hn, hb⟩ => ⟨hn, h, hb⟩, fun ⟨hn, h, hb⟩ => ⟨h, hn, hb⟩⟩

theorem freeIndex_eq_none {α : Type} {t : Tab α} {n : Nat} :
    freeIndex t n = none ↔ ∀ i, i < n → (t.find i).isSome = true := by
  simp [freeIndex, List.find?_eq_none, List.mem_range, Option.ne_none_iff_isSome]

theorem repeatTimes_after {σ : Type} (f : σ → σ) (n : Nat) (x : σ) : repeatTimes f (n + 1) x = f (repeatTimes f n x) := by
  induction n generalizing x with
  | zero => rfl
  | succ n ih => rw [repeatTimes_succ, ih, ← repeatTimes_succ]

/-- The first number that no order in use holds, counted from a number on (R87). -/
theorem State.restoreNumberFrom_eq (s : State) {fuel k n : Nat} (hk : k < fuel)
    (free : s.order (repeatTimes restoreNumberAfter k n) = none)
    (used : ∀ j, j < k → s.order (repeatTimes restoreNumberAfter j n) ≠ none) :
    s.restoreNumberFrom fuel n = repeatTimes restoreNumberAfter k n := by
  induction fuel generalizing k n with
  | zero => omega
  | succ fuel ih =>
    unfold State.restoreNumberFrom
    cases k with
    | zero => exact if_pos (Option.isNone_iff_eq_none.2 free)
    | succ k =>
      have held : ¬ (s.order n).isNone = true := mt Option.isNone_iff_eq_none.1 (used 0 (Nat.succ_pos k))
      rw [if_neg held, repeatTimes_succ]
      exact ih (by omega) free fun j hj => used (j + 1) (by omega)

/-! ## The choice of a station -/

/-- The better of the best number yet, with its key, and a further key's: fewest first, then the earlier. -/
def fewer (f : Nat → Nat) (best : Option (Nat × Nat)) (k : Nat) : Option (Nat × Nat) :=
  match best with
  | none => some (f k, k)
  | some (n, b) => if f k < n then some (f k, k) else some (n, b)

theorem fewer_some (f : Nat → Nat) (n b k : Nat) :
    fewer f (some (n, b)) k = if f k < n then some (f k, k) else some (n, b) := rfl

/-- A key of fewest, and the lowest of these. -/
def Fewest (f : Nat → Nat) (ks : List Nat) (b : Nat) : Prop := b ∈ ks ∧ ∀ k ∈ ks, f b < f k ∨ (f b = f k ∧ b ≤ k)

theorem foldl_fewer (f : Nat → Nat) (ks : List Nat) (b : Nat) (hs : (b :: ks).Pairwise (· < ·)) :
    ∃ c, ks.foldl (fewer f) (some (f b, b)) = some (f c, c) ∧ Fewest f (b :: ks) c := by
  induction ks generalizing b with
  | nil => exact ⟨b, rfl, List.mem_singleton_self b, fun k hk => .inr (by rw [List.mem_singleton.1 hk]; simp)⟩
  | cons k ks ih =>
    obtain ⟨hb, hks⟩ := List.pairwise_cons.1 hs
    obtain ⟨hk, hks'⟩ := List.pairwise_cons.1 hks
    have hbk := hb k List.mem_cons_self
    rw [List.foldl_cons, fewer_some]
    split
    · next hlt =>
      obtain ⟨c, hc, mem, least⟩ := ih k hks
      refine ⟨c, hc, List.mem_cons_of_mem _ mem, fun j hj => ?_⟩
      obtain rfl | hj := List.mem_cons.1 hj
      · have := least k List.mem_cons_self
        omega
      · exact least j hj
    · next hge =>
      obtain ⟨c, hc, mem, least⟩ := ih b (List.pairwise_cons.2 ⟨fun j hj => hb j (List.mem_cons_of_mem _ hj), hks'⟩)
      refine ⟨c, hc, ?_, fun j hj => ?_⟩
      · obtain rfl | mem := List.mem_cons.1 mem
        · exact List.mem_cons_self
        · exact List.mem_cons_of_mem _ (List.mem_cons_of_mem _ mem)
      · obtain rfl | hj := List.mem_cons.1 hj
        · exact least _ List.mem_cons_self
        · obtain rfl | hj := List.mem_cons.1 hj
          · have := least b List.mem_cons_self
            omega
          · exact least j (List.mem_cons_of_mem _ hj)

theorem Fewest.unique {f : Nat → Nat} {ks : List Nat} {b c : Nat} (hb : Fewest f ks b) (hc : Fewest f ks c) : b = c := by
  have := hb.2 c hc.1
  have := hc.2 b hb.1
  omega

/-- The station of a restore order is that of the fewest orders not yet presenting, and the lowest of these (R146). -/
theorem State.restoreStation_eq_some {s : State} {st : Nat} :
    s.restoreStation = some st ↔ Fewest s.unpresented (allStations.filter s.reshelving) st := by
  have sorted : (allStations.filter s.reshelving).Pairwise (· < ·) := List.Pairwise.filter _ List.pairwise_lt_range
  have unfolded : s.restoreStation =
      ((allStations.filter s.reshelving).foldl (fewer s.unpresented) none).map (·.2) := rfl
  rw [unfolded]
  cases hks : allStations.filter s.reshelving with
  | nil => simp [Fewest]
  | cons b ks =>
    rw [hks] at sorted
    obtain ⟨c, hc, least⟩ := foldl_fewer s.unpresented ks b sorted
    have first : (b :: ks).foldl (fewer s.unpresented) none = some (s.unpresented c, c) := hc
    rw [first, Option.map_some, Option.some.injEq]
    exact ⟨fun h => h ▸ least, fun h => least.unique h⟩

theorem State.restoreStation_eq_none {s : State} :
    s.restoreStation = none ↔ ∀ st, st < 24 → s.reshelving st = false := by
  constructor
  · intro h st hst
    cases hks : allStations.filter s.reshelving with
    | nil =>
      rw [← Bool.not_eq_true]
      exact fun hfit => List.not_mem_nil (hks ▸ List.mem_filter.2 ⟨List.mem_range.2 hst, hfit⟩)
    | cons b ks =>
      have sorted : (b :: ks).Pairwise (· < ·) := hks ▸ List.Pairwise.filter _ List.pairwise_lt_range
      obtain ⟨c, _, least⟩ := foldl_fewer s.unpresented ks b sorted
      rw [State.restoreStation_eq_some.2 (hks ▸ least)] at h
      cases h
  · intro h
    have : allStations.filter s.reshelving = [] :=
      List.filter_eq_nil_iff.2 fun st hst => by rw [h st (List.mem_range.1 hst)]; exact nofun
    rw [State.restoreStation, this]
    rfl

/-! ## A creation attempt -/

section
variable {s : State} {b : Nat} {r : Bin}

theorem State.due_iff (hb : s.bin b = some r) : s.due b = true ↔ s.params.restoreThreshold ≤ r.staged ∨
    ∃ x, (s.returns.staging.find? fun x => decide (x.bin = b)) = some x ∧ s.params.restoreAge ≤ x.age := by
  rw [State.due, hb, State.binAge]
  cases s.returns.staging.find? fun x => decide (x.bin = b) with
  | none => simp
  | some x => simp

theorem State.reshelving_iff (st : Nat) : s.reshelving st = true ↔ (s.station st).kind = .reshelve ∧
    s.stationAddress st ≠ none ∧ (s.zone (s.station st).zone).state = .clear := by
  simp [State.reshelving, State.zoneClear, and_assoc, Option.isSome_iff_ne_none]

/-- An attempt in which a condition of the bin is wanting (R144, R145). -/
theorem State.restoreAttempt_unready
    (h : ∀ r, s.bin b = some r → ¬ (s.due b = true ∧ s.mode.mode = .run ∧ r.state = .stored ∧ r.pending = false)) :
    State.restoreAttempt b s = s := by
  unfold State.restoreAttempt
  split
  · next r hr => exact if_neg (h r hr)
  · rfl

/-- An attempt without a station or a record (R145). -/
theorem State.restoreAttempt_wanting (h : s.restoreStation = none ∨ freeIndex s.desk.orders Config.orderRecords = none) :
    State.restoreAttempt b s = s := by
  unfold State.restoreAttempt
  split
  · split
    · split
      · next hst hi =>
        rw [hst, hi] at h
        exact absurd h (by simp)
      · rfl
    · rfl
  · rfl

theorem State.restoreAttempt_ready {st i : Nat} (hb : s.bin b = some r)
    (hr : s.due b = true ∧ s.mode.mode = .run ∧ r.state = .stored ∧ r.pending = false)
    (hst : s.restoreStation = some st) (hi : freeIndex s.desk.orders Config.orderRecords = some i) :
    State.restoreAttempt b s = s.createRestore b st i := by
  unfold State.restoreAttempt
  rw [hb]
  dsimp only
  rw [if_pos hr, hst, hi]

/-- The state of a creation before its admission pass (R87, R146). -/
def State.created (s : State) (b st i num : Nat) : State :=
  ((s.modDesk fun d => { d with restoreNumber := restoreNumberAfter num }).modBin b fun r => { r with pending := true }).placeOrder
    i (newOrder num .restore st 0 [(b, s.stagedTags b)] true)

/-- What a creation brings about before its admission pass (R87, R146). -/
theorem State.created_spec (hs : s.Tidy) (hb : s.bin b = some r) (st i num : Nat) :
    let u := s.created b st i num
    (∀ c, u.bin c = if c = b then some { r with pending := true } else s.bin c) ∧
    (∀ j, u.desk.orders.find j = if j = i then some (newOrder num .restore st 0 [(b, s.stagedTags b)] true)
      else s.desk.orders.find j) ∧
    (∀ j, u.station j = if j = st then
      { s.station st with orderQueue := (s.station st).orderQueue ++ [num] } else s.station j) ∧
    u = { s with
      store := { s.store with bins := u.store.bins }
      desk := { s.desk with orders := u.desk.orders, stations := u.desk.stations, restoreNumber := restoreNumberAfter num }
      work := { s.work with waiting := true, hold := true } } := by
  have marked : State.modBin (s.modDesk fun d => { d with restoreNumber := restoreNumberAfter num }) b (fun r => { r with pending := true }) =
      (s.modDesk fun d => { d with restoreNumber := restoreNumberAfter num }).putBin b { r with pending := true } := by
    unfold State.modBin
    rw [State.modDesk_bin, hb]
  intro u
  have hu : u = State.placeOrder ((s.modDesk fun d => { d with restoreNumber := restoreNumberAfter num }).putBin b
      { r with pending := true }) i (newOrder num .restore st 0 [(b, s.stagedTags b)] true) := congrArg (State.placeOrder · i _) marked
  rw [hu]
  refine ⟨fun c => State.putBin_bin _ _ _ _, fun j => Tab.find_put _ _ _ _, fun j => ?_, rfl⟩
  exact Tab.get_set s.desk.stations Station.powerOn st j _ hs.stations.1

end

/-! ## The passes over the staging list -/

theorem firstOnly_append (seen l : List Nat) (x : Nat) :
    firstOnly seen (l ++ [x]) = if x ∈ seen ∨ x ∈ l then firstOnly seen l else firstOnly seen l ++ [x] := by
  induction l generalizing seen with
  | nil => simp [firstOnly]
  | cons y l ih =>
    rw [List.cons_append, firstOnly, firstOnly, ih, ih]
    by_cases hy : y ∈ seen
    · have : (x ∈ seen ∨ x ∈ y :: l) ↔ (x ∈ seen ∨ x ∈ l) := by
        rw [List.mem_cons]
        exact ⟨fun h => h.elim .inl fun h => h.elim (fun h => .inl (h ▸ hy)) .inr, fun h => h.imp id .inr⟩
      simp only [if_pos hy, this]
    · have : (x ∈ y :: seen ∨ x ∈ l) ↔ (x ∈ seen ∨ x ∈ y :: l) := by
        simp only [List.mem_cons]
        exact or_assoc.trans or_left_comm
      simp only [if_neg hy, this]
      split <;> rfl

/-- Settles O38: the expiry and the attempt by their branches, the pass by induction on the list, and the law is lawful. -/
theorem minuteTimerAgesTheList : Obligations.MinuteTimerAgesTheList := by
  refine ⟨fun s hr => ⟨fun hm => event_idle hr (if_neg (by simp [hm])), fun m hm => ?expires⟩, fun s b ht => ?attempt,
    fun _ => rfl, ⟨rfl, fun l x => by simpa using firstOnly_append [] l x⟩, fun s t ht h hs => ?law⟩
  case expires =>
    have body : (if s.beginEvent.returns.minuteTimer.isSome then s.beginEvent.minutePassed else s.beginEvent) =
        s.beginEvent.minutePassed := if_pos (by simp [hm])
    exact event_ends hr body
  case attempt =>
    intro due ready fits coming number
    have fits_iff (st : Nat) : fits st ↔ st ∈ allStations.filter s.reshelving := by
      rw [List.mem_filter, State.reshelving_iff]
      exact and_congr List.mem_range.symm Iff.rfl
    refine ⟨fun h => ?_, fun h => ?_, fun h => ?_, fun r st i k hb hr hst least hi free listed hk hn used => ?_⟩
    · exact State.restoreAttempt_unready fun r hr => by rw [State.due_iff hr]; exact h r hr
    · refine State.restoreAttempt_wanting (.inl (State.restoreStation_eq_none.2 fun st hlt => ?_))
      rw [← Bool.not_eq_true]
      exact fun hf => h st ((fits_iff st).2 (List.mem_filter.2 ⟨List.mem_range.2 hlt, hf⟩))
    · exact State.restoreAttempt_wanting (.inr (freeIndex_eq_none.2 h))
    · have coming_eq : coming = s.unpresented := by
        funext y
        simp [coming, State.unpresented]
      have station : s.restoreStation = some st := State.restoreStation_eq_some.2
        ⟨(fits_iff st).1 hst, fun y hy => coming_eq ▸ least y ((fits_iff y).2 hy)⟩
      have index : freeIndex s.desk.orders Config.orderRecords = some i := freeIndex_eq_some.2 ⟨hi, free, listed⟩
      have found : s.restoreNumberFrom Config.orderRecords s.desk.restoreNumber = number k :=
        State.restoreNumberFrom_eq s hk hn used
      have next : number (k + 1) = restoreNumberAfter (number k) := repeatTimes_after restoreNumberAfter k _
      obtain ⟨bins, orders, stations, rest⟩ := State.created_spec ht hb st i (number k)
      refine ⟨s.created b st i (number k), bins, fun j hj => (orders j).trans (if_neg hj), (orders i).trans (if_pos rfl), stations,
        next ▸ rest, ?_⟩
      rw [State.restoreAttempt_ready hb ((State.due_iff hb).2 hr.1 |> fun hd => ⟨hd, hr.2⟩) station index, State.createRestore, found]
      rfl
  case law => exact (itemLaw_ledger.lawful.step ⟨itemLaw_ledger.neutral, ht, h⟩ hs).law

end Sys2Proof.Machine
end

section
/-! Hand-overs to a send queue (R7), and WRITEs of one entry: TRAFFIC and COUNTERS, BIN, STATION and LIFT, ITEM and CLASS,
ZONE; and DAY (R128). -/

namespace Sys2Proof.Machine

/-! ## Hand-overs -/

theorem QueueClass.discardable_iff (k : QueueClass) : k.discardable = true ↔ k = .notice ∨ ∃ guarded, k = .forwarded guarded := by
  cases k <;> simp [QueueClass.discardable]

theorem dropNewest_none {q : List Queued} (h : ∀ y ∈ q, y.cls.discardable = false) : dropNewest q = none := by
  induction q with
  | nil => rfl
  | cons x q ih =>
    rw [dropNewest, ih fun y hy => h y (List.mem_cons_of_mem _ hy), h x List.mem_cons_self]
    rfl

/-- The most recently queued discardable telegram goes (R7). -/
theorem dropNewest_append {l r : List Queued} {d : Queued} (hd : d.cls.discardable = true)
    (hr : ∀ y ∈ r, y.cls.discardable = false) : dropNewest (l ++ d :: r) = some (l ++ r) := by
  induction l with
  | nil => rw [List.nil_append, dropNewest, dropNewest_none hr, hd]; rfl
  | cons x l ih => rw [List.cons_append, dropNewest, ih]; rfl

/-- A counter that has risen, and nothing else (R14). -/
theorem counted_raise {s : State} (h : s.link.counters.wf) (i : Nat) : Counted s (s.raise i) i := by
  refine ⟨rfl, fun j hj => ?_, ?_⟩
  · rw [s.raise_counter i j h, if_neg hj]
  · rw [s.raise_counter i i h, if_pos rfl]
    rfl

/-- Settles O11, by the branches of `enqueue`. -/
theorem handOverToSendQueue : Obligations.HandOverToSendQueue := by
  have raised (s : State) (b : Bool) (i : Nat) (h : s.link.counters.wf) :
      if b then Counted s (s.raiseIf b i) i else s.raiseIf b i = s := by
    cases b with
    | true => exact counted_raise h i
    | false => rfl
  have full {q : List Queued} (h : 64 ≤ q.length) : ¬ q.length < Config.queueCapacity := Nat.not_lt.2 h
  refine ⟨QueueClass.discardable_iff, fun q x => enqueue_room q x, fun q x h hx => ?_, fun l r d x h hx hd hr => ?_,
    fun q x h hx hq => ?_, fun s x h => raised _ _ _ h, fun s x h => raised _ _ _ h⟩
  · rw [enqueue, if_neg (full h), if_pos hx]
  · rw [enqueue, if_neg (full h), hx, dropNewest_append hd hr]
    rfl
  · rw [enqueue, if_neg (full h), hx, dropNewest_none hq]
    rfl

/-! ## A WRITE of one entry -/

section
variable {α : Type} {s u : State} {tag : BitVec 16} {size i : Nat} {apply : Nat → α → State → Judged} {e : α}
  {r : Reason} {cs : List Clamp}

/-- A WRITE whose entry is refused only answers (R17, R18). -/
theorem write_refused (hr : s.running) (hi : i < size) (h : apply i e s.beginEvent = .inr r) :
    s.write tag size apply i [e] = .next (s.onlyAnswers (noneApplied tag r)) := by
  refine request_answers (a := fun _ => noneApplied tag r) hr ?_
  rw [writeEntries, if_neg (Nat.not_le.2 hi), h]
  exact Prod.ext rfl (funext fun _ => answer_noneApplied _ _ _)

/-- The ANSWER to a WRITE of one entry that is applied with few clamped fields (R18). -/
theorem answer_oneApplied (hc : cs.length ≤ clampRoom) :
    Written.answer { state := u, applied := 1, clamps := cs.map fun c => (i, c), refusal := none } tag.toNat =
      oneApplied tag i cs := by
  have room : ¬ clampRoom < (cs.map fun c => (i, c)).length := by rw [List.length_map]; omega
  have taken : (cs.map fun c => (i, c)).take clampRoom = cs.map fun c => (i, c) :=
    List.take_of_length_le (by rw [List.length_map]; exact hc)
  have verdict : (if (cs.map fun c => (i, c)) = [] then Verdict.done else .clamped) = if cs = [] then .done else .clamped := by
    simp only [List.map_eq_nil_iff]
  simp only [Written.answer, Written.verdict, Written.fields, taken, verdict, room, decide_false, List.flatMap_map]
  rfl

/-- A WRITE whose entry is applied ends with its effect (R16, R18). -/
theorem write_ends (hr : s.running) (hi : i < size) (h : apply i e s.beginEvent = .inl (u, cs))
    (hc : cs.length ≤ clampRoom := by decide) :
    s.write tag size apply i [e] = .next (s.requestEnds u (oneApplied tag i cs)) := by
  refine request_ends (a := fun _ => oneApplied tag i cs) hr ?_
  rw [writeEntries, if_neg (Nat.not_le.2 hi), h]
  simp only [writeEntries, List.append_nil]
  exact Prod.ext rfl (funext fun _ => answer_oneApplied hc)

/-- A WRITE whose entry owes no test closes at once. -/
theorem write_closes (hr : s.running) (hi : i < size) (h : apply i e s.beginEvent = .inl (u, cs)) (hw : u.work = Work.empty)
    (hc : cs.length ≤ clampRoom := by decide) :
    s.write tag size apply i [e] = .next (s.closeEvent u (some (oneApplied tag i cs))) := by
  rw [write_ends hr hi h hc, State.requestEnds, settle_idle u (by rw [hw]; rfl)]

end

/-! ## Clamped fields -/

theorem clampTo_value {lo hi : Nat} (h : lo ≤ hi) (pos v : Nat) : (clampTo pos lo hi v).1 = max lo (min v hi) := by
  unfold clampTo
  split
  · simp only; omega
  · split <;> simp only <;> omega

theorem clampTo_upTo (pos hi v : Nat) : (clampTo pos 0 hi v).1 = min v hi := by
  rw [clampTo_value (Nat.zero_le hi), Nat.zero_max]

theorem clampTo_length (pos lo hi v : Nat) : (clampTo pos lo hi v).2.length ≤ 1 := by
  unfold clampTo
  split
  · exact Nat.le_refl 1
  · split
    · exact Nat.le_refl 1
    · exact Nat.zero_le 1

/-- A clamp list made of few fields fits in the ANSWER (R18). -/
theorem clamps_fit {ls : List (List Clamp)} (h : ∀ l ∈ ls, l.length ≤ 1) (hl : ls.length ≤ clampRoom) :
    ls.flatten.length ≤ clampRoom := by
  refine Nat.le_trans ?_ hl
  clear hl
  induction ls with
  | nil => exact Nat.le_refl 0
  | cons l ls ih =>
    have := h l List.mem_cons_self
    have := ih fun m hm => h m (List.mem_cons_of_mem _ hm)
    rw [List.flatten_cons, List.length_append, List.length_cons]
    omega

/-! ## TRAFFIC and COUNTERS -/

theorem treatmentOf_eq_none {v : Nat} (h : 2 < v) : treatmentOf v = none := by
  unfold treatmentOf
  split
  · omega
  · omega
  · omega
  · rfl

/-- Settles O22: the entries stored, direction by direction. -/
theorem trafficAndCountersWrite : Obligations.TrafficAndCountersWrite := by
  intro s tag i v hr ht
  refine ⟨fun hi hv => write_refused hr hi (by rw [judgeTraffic, treatmentOf_eq_none hv]), fun hi x hx => ?_,
    fun hi hv => write_refused hr hi (if_neg hv), fun hi hv => ?_⟩
  · have treated : treatmentOf v = some x := by
      obtain ⟨rfl, rfl⟩ | ⟨rfl, rfl⟩ | ⟨rfl, rfl⟩ := hx <;> rfl
    have applied : judgeTraffic i.toNat v s.beginEvent = .inl (s.beginEvent.setTraffic i.toNat x, []) := by
      rw [judgeTraffic, treated]
    have down (k : Nat) := Tab.get_set s.link.trafficDown .guard i.toNat k x ht.trafficDown.1
    have up (k : Nat) := Tab.get_set s.link.trafficUp .pass (i.toNat - 64) k x ht.trafficUp.1
    unfold State.setTraffic at applied
    by_cases h64 : i.toNat < 64
    · rw [if_pos h64] at applied
      refine ⟨_, write_closes hr hi applied rfl, fun k => (down k).trans (by simp [h64]; rfl), fun k => ?_, rfl⟩
      rw [if_neg (fun h => absurd h.1 (Nat.not_le.2 h64))]
      rfl
    · rw [if_neg h64] at applied
      refine ⟨_, write_closes hr hi applied rfl, fun k => ?_, fun k => (up k).trans (by simp [Nat.not_lt.1 h64]; rfl), rfl⟩
      rw [if_neg (fun h => absurd h.1 h64)]
      rfl
  · exact ⟨_, write_closes hr hi (if_pos hv) rfl, fun k => State.setCounter_counter s i.toNat k 0 ht.counters.1, rfl⟩

/-! ## ZONE -/

/-- Settles O29. -/
theorem zoneWrite : Obligations.ZoneWrite := by
  intro s tag i e hr ht hi
  refine ⟨_, write_closes hr hi rfl rfl ?fits, fun k => ?_, rfl⟩
  case fits =>
    have := clampTo_length 5 0 2000 e.debounce
    have := clampTo_length 6 0 60000 e.parkAllowance
    have := clampTo_length 7 0 30000 e.brakeSettle
    have := clampTo_length 8 5000 120000 e.shutterLimit
    have := clampTo_length 9 5000 300000 e.readyLimit
    have : clampRoom = 33 := rfl
    simp only [List.length_append]
    omega
  refine (s.beginEvent.modZone_zone i.toNat k _ ht.zones.1).trans ?_
  split
  · next hk =>
    subst hk
    simp only [clampTo_upTo, clampTo_value (show 5000 ≤ 120000 by decide), clampTo_value (show 5000 ≤ 300000 by decide)]
    rfl
  · rfl

/-! ## BIN, an ABSENT entry -/

theorem State.carryNames_iff (s : State) (b : Nat) : s.carryNames b = true ↔ ∃ c ∈ s.carries, c.bin = b := by
  simp [State.carryNames]

/-- Settles O26: the branches of R40. -/
theorem binWriteAbsent : Obligations.BinWriteAbsent := by
  intro s tag b e hr ht hb refused held
  have absent (h : e.presence = 1) : judgeBin b.toNat e s.beginEvent = judgeBinAbsent b.toNat s.beginEvent := by
    rw [judgeBin, h]
    rfl
  refine ⟨fun h => write_refused hr hb ?_, fun h1 hn => ?_, fun r h1 hs => ?_⟩
  · unfold judgeBin
    split
    · omega
    · omega
    · rfl
  · have applied : judgeBin b.toNat e s.beginEvent = .inl (s.beginEvent, []) := by
      rw [absent h1, judgeBinAbsent, State.beginEvent_bin, hn]
    exact write_closes hr hb applied rfl
  · intro busy
    have judged : judgeBin b.toNat e s.beginEvent =
        if busy then .inr .binBusy else if r.itemRefs ≠ 0 then .inr .binInUse else .inl (s.beginEvent.delBin b.toNat, []) := by
      rw [absent h1, judgeBinAbsent, State.beginEvent_bin, hs]
      have named : s.beginEvent.carryNames b.toNat = true ↔ held := s.carryNames_iff b.toNat
      simp only [busy, named]
    refine ⟨fun h => write_refused hr hb (judged.trans (if_pos h)),
      fun h h0 => write_refused hr hb (judged.trans ((if_neg h).trans (if_pos h0))), fun h h0 => ?_⟩
    have applied := judged.trans ((if_neg h).trans (if_neg (not_not_intro h0)))
    exact ⟨_, write_closes hr hb applied rfl, fun c => State.delBin_bin _ _ _ ht.bins, rfl⟩

end Sys2Proof.Machine
end

section
/-! WRITEs of one entry: STATION and LIFT (R82, R107), ITEM and CLASS (R127, R135, R136), ADDRESS (R8, R9); and DAY (R128). -/

namespace Sys2Proof.Machine

/-! ## STATION and LIFT -/

theorem stationKindOf_eq_none {v : Nat} (h : 2 < v) : stationKindOf v = none := by
  unfold stationKindOf
  split
  · omega
  · omega
  · omega
  · rfl

theorem stationKindOf_eq {v : Nat} (h : ¬ 2 < v) :
    stationKindOf v = some (if v = 0 then .pick else if v = 1 then .reshelve else .chute) := by
  obtain rfl | rfl | rfl : v = 0 ∨ v = 1 ∨ v = 2 := by omega
  · rfl
  · rfl
  · rfl

theorem State.stationIdle_iff (s : State) (st : Nat) : s.stationIdle st = true ↔
    (∀ p ∈ s.desk.orders, p.2.station ≠ st) ∧ (s.station st).lane = [] := by
  simp [State.stationIdle]

theorem clampTo_clamps_upTo (pos hi v : Nat) : (clampTo pos 0 hi v).2 = if hi < v then [(pos, hi)] else [] := by
  rw [clampTo, if_neg (Nat.not_lt_zero v)]
  split <;> rfl

/-- Settles O27: each entry by the branches of its judgement. -/
theorem stationAndLiftWrite : Obligations.StationAndLiftWrite := by
  refine ⟨fun s tag i e hr ht hi => ?station, fun s tag i e hr ht hi => ?lift⟩
  case station =>
    intro refused w malformed kind changes idle
    have idle_iff : s.beginEvent.stationIdle i.toNat = false ↔ ¬ idle := by
      rw [← Bool.not_eq_true]
      exact not_congr (s.stationIdle_iff i.toNat)
    have judged (hk : ¬ 2 < e.kind) : judgeStation i.toNat e s.beginEvent =
        if 7 < e.zone ∨ e.laneSize < 2 ∨ 8 < e.laneSize then .inr .valueRange
        else if changes ∧ s.beginEvent.stationIdle i.toNat = false then .inr .stationBusy
        else .inl ((s.beginEvent.modStation i.toNat fun w =>
            { w with kind, zone := e.zone, laneSize := e.laneSize, slack := (clampTo 4 0 120000 e.slack).1 }).oweRestore .pass,
          (clampTo 4 0 120000 e.slack).2) := by
      rw [judgeStation, stationKindOf_eq hk]
      rfl
    refine ⟨fun h => write_refused hr hi ?_, fun h hc hn => write_refused hr hi ?_, fun h hc => ?_⟩
    · by_cases hk : 2 < e.kind
      · rw [judgeStation, stationKindOf_eq_none hk]
      · rw [judged hk, if_pos (h.resolve_left hk)]
    · obtain ⟨hk, hf⟩ := not_or.1 h
      rw [judged hk, if_neg hf, if_pos ⟨hc, idle_iff.2 hn⟩]
    · obtain ⟨hk, hf⟩ := not_or.1 h
      have applied := judged hk
      rw [if_neg hf, if_neg fun hb => idle_iff.1 hb.2 (hc hb.1), clampTo_upTo, clampTo_clamps_upTo] at applied
      refine ⟨_, write_ends hr hi applied (by split <;> decide), fun k => ?_, rfl⟩
      exact Tab.get_set s.desk.stations Station.powerOn i.toNat k _ ht.stations.1
  case lift =>
    intro refused r malformed resting
    have judged : judgeLift i.toNat e s.beginEvent =
        if malformed then .inr .valueRange
        else if e.zone ≠ r.zone ∧ ¬ resting then .inr .wrongState
        else .inl ((s.beginEvent.modLift i.toNat fun r =>
            { r with zone := e.zone, mask := BitVec.ofNat 24 e.mask, carriers := e.carriers
                     carryLimit := (clampTo 4 5000 300000 e.carryLimit).1
                     answerLimit := (clampTo 5 1000 10000 e.answerLimit).1 }).oweScan,
          (clampTo 4 5000 300000 e.carryLimit).2 ++ (clampTo 5 1000 10000 e.answerLimit).2) := rfl
    refine ⟨fun h => write_refused hr hi (judged.trans (if_pos h)),
      fun h hz hn => write_refused hr hi (judged.trans ((if_neg h).trans (if_pos ⟨hz, hn⟩))), fun h hz => ?_⟩
    have applied := judged.trans ((if_neg h).trans (if_neg fun hb => hz.elim hb.1 hb.2))
    rw [clampTo_value (show 5000 ≤ 300000 by decide), clampTo_value (show 1000 ≤ 10000 by decide)] at applied
    refine ⟨_, write_ends hr hi applied ?_, fun k => ?_, rfl⟩
    · have := clampTo_length 4 5000 300000 e.carryLimit
      have := clampTo_length 5 1000 10000 e.answerLimit
      have : clampRoom = 33 := rfl
      rw [List.length_append]
      omega
    · exact Tab.get_set s.pool.lifts Lift.powerOn i.toNat k _ ht.lifts.1

/-! ## ITEM and CLASS -/

theorem lendClassOf_eq {v : Nat} (h : v ≤ 2) :
    lendClassOf v = some (if v = 0 then .loanable else if v = 1 then .inhouseOnly else .notLendable) := by
  obtain rfl | rfl | rfl : v = 0 ∨ v = 1 ∨ v = 2 := by omega
  · rfl
  · rfl
  · rfl

theorem lendClassOf_eq_none {v : Nat} (h : 2 < v) : lendClassOf v = none := by
  unfold lendClassOf
  split
  · omega
  · omega
  · omega
  · rfl

/-- The loan that a PRESENT entry carries (R135). -/
def seedLoan (e : ItemEntry) : Loan := { lendDay := e.lendDay, dueDay := e.dueDay, renewals := e.renewals }

/-- A PRESENT entry out of range (R135). -/
def SeedMalformed (e : ItemEntry) : Prop :=
  e.item = 0 ∨ 49152 ≤ e.bin ∨ 15 < e.category ∨ (e.state ≠ 1 ∧ e.state ≠ 2) ∨ 15 < e.renewals ∨ e.dueDay < e.lendDay

theorem seedOf_malformed {e : ItemEntry} (h : SeedMalformed e) : seedOf e = none := by
  unfold SeedMalformed at h
  unfold seedOf
  dsimp only
  split
  · rfl
  · next hf =>
    have : Config.binCount = 49152 := rfl
    split
    · omega
    · omega
    · rfl

theorem seedOf_wellformed {e : ItemEntry} (h : ¬ SeedMalformed e) : seedOf e =
    some { bin := e.bin, category := e.category, state := if e.state = 1 then .lent (seedLoan e) else .inhouse (seedLoan e) } := by
  unfold SeedMalformed at h
  have fits : ¬ (e.item = 0 ∨ Config.binCount ≤ e.bin ∨ 15 < e.category ∨ 15 < e.renewals ∨ e.dueDay < e.lendDay) := by
    have : Config.binCount = 49152 := rfl
    omega
  have state : e.state = 1 ∨ e.state = 2 := by omega
  unfold seedOf
  dsimp only
  rw [if_neg fits]
  obtain h1 | h2 := state
  · rw [h1]; rfl
  · rw [h2]; rfl

theorem itemWrite_eq (s : State) (tag : BitVec 16) (es : List ItemEntry) :
    exec (.itemWrite tag 0 es) s = s.write tag 65536 judgeItemEntry 0 es := rfl

/-- An ITEM WRITE of one PRESENT entry (R135). -/
theorem itemWrite_present {s : State} (tag : BitVec 16) {e : ItemEntry} (hr : s.running) (hp : e.presence = 0) :
    let refused (r : Reason) : Prop := exec (.itemWrite tag 0 [e]) s = .next (s.onlyAnswers (noneApplied tag r))
    (SeedMalformed e → refused .valueRange) ∧
    (¬ SeedMalformed e → s.bin e.bin = none → refused .binUnknown) ∧
    (¬ SeedMalformed e → ∀ r, s.bin e.bin = some r →
      (s.item e.item ≠ none → refused .itemBusy) ∧
      (s.item e.item = none → 65536 ≤ s.loans.items.length → refused .itemTableFull) ∧
      (s.item e.item = none → s.loans.items.length < 65536 →
        ∃ u, exec (.itemWrite tag 0 [e]) s = .next (s.closeEvent u (some (oneApplied tag 0 []))) ∧
          (∀ t, u.item t = if t = e.item then
              some { bin := e.bin, category := e.category
                     state := if e.state = 1 then .lent (seedLoan e) else .inhouse (seedLoan e) } else s.item t) ∧
          (∀ b, u.bin b = if b = e.bin then some { r with itemRefs := r.itemRefs + 1 } else s.bin b) ∧
          u = { s with
            loans := { s.loans with items := u.loans.items }
            store := { s.store with bins := u.store.bins }
            work := Work.empty })) := by
  intro refused
  have refuse {r : Reason} (h : judgeItemEntry 0 e s.beginEvent = .inr r) : refused r := write_refused hr (by decide) h
  have judged : judgeItemEntry 0 e s.beginEvent =
      match seedOf e with
      | some r => judgeSeed e.item r s.beginEvent
      | none => .inr .valueRange := by
    unfold judgeItemEntry
    rw [hp]
    rfl
  refine ⟨fun h => refuse (by rw [judged, seedOf_malformed h]), fun h hb => refuse ?_, fun h r hb => ⟨fun hi => refuse ?_,
    fun hi hl => refuse ?_, fun hi hl => ?_⟩⟩
  · rw [judged, seedOf_wellformed h]
    exact if_pos (Option.isNone_iff_eq_none.2 hb)
  all_goals
    have bin : ¬ (s.bin e.bin).isNone = true := by rw [hb]; exact nofun
  · rw [judged, seedOf_wellformed h]
    exact (if_neg bin).trans (if_pos (Option.isSome_iff_ne_none.2 hi))
  all_goals
    have absent : ¬ (s.item e.item).isSome = true := by rw [hi]; exact nofun
  · rw [judged, seedOf_wellformed h]
    exact (if_neg bin).trans ((if_neg absent).trans (if_pos hl))
  · rw [seedOf_wellformed h] at judged
    have applied := judged.trans ((if_neg bin).trans ((if_neg absent).trans (if_neg (Nat.not_le.2 hl))))
    refine ⟨_, write_closes hr (by decide) applied (State.createItem_work ..), fun t => State.createItem_item _ _ _ _, fun b => ?_, ?_⟩
    · rw [State.createItem_bin, State.beginEvent_bin, State.beginEvent_bin, hb]
      rfl
    · rw [State.createItem, State.modBin_eq]
      rfl

theorem judgeWriteOff_busy {s : State} {t : Nat} {x : Item} (hx : s.item t = some x)
    (hw : x.state.word = .requested ∨ x.state.word = .returned) : judgeWriteOff t s = .inr .itemBusy := by
  unfold judgeWriteOff
  rw [hx]
  dsimp only
  cases he : x.state with
  | requested n => rfl
  | returned l d => rfl
  | lent l => simp [he, ItemState.word] at hw
  | inhouse l => simp [he, ItemState.word] at hw

theorem judgeWriteOff_loan {s : State} {t : Nat} {x : Item} (hx : s.item t = some x)
    (hw : x.state.word = .lent ∨ x.state.word = .inhouse) : judgeWriteOff t s = .inl (s.removeItem t, []) := by
  unfold judgeWriteOff
  rw [hx]
  dsimp only
  cases he : x.state with
  | requested n => simp [he, ItemState.word] at hw
  | returned l d => simp [he, ItemState.word] at hw
  | lent l => rfl
  | inhouse l => rfl

/-- Settles O28: an ITEM entry by its presence, a CLASS entry by its class. -/
theorem itemAndClassWrite : Obligations.ItemAndClassWrite := by
  refine ⟨fun s tag e hr ht => ?item, fun s tag i e hr ht hi => ?cls⟩
  case item =>
    refine ⟨fun h => write_refused hr (by decide) ?_, itemWrite_present tag hr, fun h => ⟨fun hi => ?_, fun x hx => ⟨fun hw => ?_, fun hw => ?_⟩⟩⟩
    · unfold judgeItemEntry
      split
      · omega
      · omega
      · rfl
    all_goals
      have judged : judgeItemEntry 0 e s.beginEvent = judgeWriteOff e.item s.beginEvent := by
        unfold judgeItemEntry
        rw [h]
        rfl
    · have applied : judgeItemEntry 0 e s.beginEvent = .inl (s.beginEvent, []) := by
        rw [judged, judgeWriteOff, State.beginEvent_item, hi]
      exact write_closes hr (by decide) applied rfl
    · exact write_refused hr (by decide) (judged.trans (judgeWriteOff_busy hx hw))
    · replace hx : s.beginEvent.item e.item = some x := hx
      have applied := judged.trans (judgeWriteOff_loan hx hw)
      refine ⟨_, write_closes hr (by decide) applied (State.removeItem_work ..), fun t => State.removeItem_item _ _ _ ht.items,
        fun b => ?_, ?_⟩
      · rw [State.removeItem_bin hx]
        split
        · next hb => rw [hb]; rfl
        · rfl
      · rw [State.removeItem_eq hx, State.modBin_eq]
        rfl
  case cls =>
    refine ⟨fun h => write_refused hr hi (by rw [judgeClass, lendClassOf_eq_none h]), fun h => ?_⟩
    have applied : judgeClass i.toNat e s.beginEvent =
        .inl (s.beginEvent.setLendClass i.toNat
          { cls := if e.cls = 0 then .loanable else if e.cls = 1 then .inhouseOnly else .notLendable
            period := min e.period 365, renewLimit := min e.renewLimit 15 },
          (clampTo 2 0 365 e.period).2 ++ (clampTo 3 0 15 e.renewLimit).2) := by
      rw [judgeClass, lendClassOf_eq h, ← clampTo_upTo 2, ← clampTo_upTo 3]
    refine ⟨_, write_closes hr hi applied rfl ?_, fun k => State.setLendClass_lendClass s _ _ _ ht.classes.1, rfl⟩
    have := clampTo_length 2 0 365 e.period
    have := clampTo_length 3 0 15 e.renewLimit
    have : clampRoom = 33 := rfl
    rw [List.length_append]
    omega

/-! ## DAY -/

/-- Settles O33. -/
theorem daySetsToday : Obligations.DaySetsToday := by
  intro s tag day hr overdue
  refine ⟨fun h => request_answers (a := fun _ => .refused tag.toNat 7 .valueRange) hr (if_pos h), fun h => ?_⟩
  have ends : exec (.day tag day) s = .next (s.requestEnds
      { s with loans := { s.loans with today := day.toNat }, work := Work.empty }
      (.done tag.toNat 7 (dayFields (State.settle
        { s with loans := { s.loans with today := day.toNat }, work := Work.empty })))) := by
    refine request_ends (a := fun t => .done tag.toNat 7 (dayFields t)) hr ?_
    exact if_neg (Nat.not_lt.2 h)
  rw [ends, State.requestEnds, settle_idle _ rfl]
  have late (w : ItemWord) : State.overdue { s with loans := { s.loans with today := day.toNat }, work := Work.empty } w =
      overdue w := by
    refine List.countP_congr fun p _ => ?_
    cases p.2.state.loan <;> simp
  rw [dayFields, late, late]

end Sys2Proof.Machine
end

section
/-! ADDRESS WRITE (R8, R9), PARAMS WRITE (R16, R17), and the common course of a WRITE (R17, R18). -/

namespace Sys2Proof.Machine

/-! ## ADDRESS -/

theorem addressValue_iff (e : AddressEntry) :
    (addressValue e = some .none ↔ e.role = 0 ∧ e.unitPresence = 1 ∧ e.zonePresence = 1) ∧
    (∀ a, addressValue e = some (.crane a) ↔
      e.role = 1 ∧ e.unitPresence = 0 ∧ e.zonePresence = 1 ∧ e.unit = a ∧ a < 12) ∧
    (∀ l, addressValue e = some (.lift l) ↔
      e.role = 2 ∧ e.unitPresence = 0 ∧ e.zonePresence = 1 ∧ e.unit = l ∧ l < 6) ∧
    (∀ st, addressValue e = some (.station st) ↔
      e.role = 3 ∧ e.unitPresence = 0 ∧ e.zonePresence = 1 ∧ e.unit = st ∧ st < 24) ∧
    (∀ z, addressValue e = some (.device z) ↔
      e.role = 4 ∧ e.unitPresence = 1 ∧ e.zonePresence = 0 ∧ e.zone = z ∧ z < 8) := by
  unfold addressValue
  split <;> grind

theorem AddrEntry.namesUnit_iff (v : AddrEntry) :
    v.namesUnit = true ↔ ∃ k, v = .crane k ∨ v = .lift k ∨ v = .station k := by
  cases v <;> simp [AddrEntry.namesUnit]

theorem AddrEntry.namesStation_iff (v : AddrEntry) : v.namesStation = true ↔ ∃ k, v = .station k := by
  cases v <;> simp [AddrEntry.namesStation]

theorem reservedAddress_iff (a : Nat) : reservedAddress a = true ↔ a = 0 ∨ a = 126 ∨ a = 127 := by
  simp only [reservedAddress, Bool.or_eq_true, decide_eq_true_eq, or_assoc]
  rfl

/-- The address that names an entry with a role (R8). -/
theorem addressOf_spec {s : State} (h : s.link.addresses.wf) {v : AddrEntry} (hv : v ≠ .none) :
    let x := addressOf v s.link.addresses
    (x = none ↔ ∀ a, s.addr a ≠ v) ∧ (∀ a, x = some a → s.addr a = v) ∧
      ∀ a, s.addr a = v → (∀ b, s.addr b = v → b = a) → x = some a := by
  intro x
  obtain ⟨a, hx, ha⟩ | ⟨hx, hn⟩ := addressOf_cases h hv
  · refine ⟨⟨fun hx' => ?_, fun hn => absurd ha (hn a)⟩, fun b hb => ?_, fun b _ only => ?_⟩
    · exact absurd (hx.symm.trans hx') nofun
    · rw [← Option.some.inj (hx.symm.trans hb)]
      exact ha
    · exact only a ha ▸ hx
  · exact ⟨⟨fun _ => hn, fun _ => hx⟩, fun b hb => absurd (hx.symm.trans hb) nofun, fun b hb => absurd hb (hn b)⟩

/-- An entry with a role stands at an index exactly where the table lists it there. -/
theorem State.addr_iff_mem {s : State} (h : s.link.addresses.wf) {v : AddrEntry} (hv : v ≠ .none) (a : Nat) :
    s.addr a = v ↔ (a, v) ∈ s.link.addresses := by
  rw [← Tab.find_eq_some h, State.addr, Tab.get]
  cases s.link.addresses.find a with
  | none => simp [hv.symm]
  | some w => simp

/-- The unit of an address rests, so that the address may be given to another (R9). -/
def State.unitRests (s : State) (v : AddrEntry) : Prop :=
  match v with
  | .crane k => ((s.crane k).state = .offline ∨ (s.crane k).state = .faulted) ∧ (s.crane k).flight = none
  | .lift l => ((s.lift l).word = .off ∨ (s.lift l).word = .bar) ∧ (s.lift l).carries = []
  | .station st => (∀ p ∈ s.desk.orders, p.2.station ≠ st) ∧ (s.station st).lane = []
  | .none => True
  | .device _ => True

/-- A unit that does not rest gives its reason (R9). -/
theorem State.unitBusy_of_works {s : State} {v : AddrEntry} (h : ¬ s.unitRests v) :
    ∃ r, s.unitBusy v = some r ∧ (∀ k, v = .crane k → r = .aisleBusy) ∧ (∀ l, v = .lift l → r = .wrongState) ∧
      ∀ st, v = .station st → r = .stationBusy := by
  cases v with
  | crane k => exact ⟨_, if_neg h, fun _ _ => rfl, nofun, nofun⟩
  | lift l => exact ⟨_, if_neg h, nofun, fun _ _ => rfl, nofun⟩
  | station st => exact ⟨_, if_neg (mt (s.stationIdle_iff st).1 h), nofun, nofun, fun _ _ => rfl⟩
  | none => exact absurd trivial h
  | device z => exact absurd trivial h

theorem State.unitBusy_of_rests {s : State} {v : AddrEntry} (h : s.unitRests v) : s.unitBusy v = none := by
  cases v with
  | crane k => exact if_pos h
  | lift l => exact if_pos h
  | station st => exact if_pos ((s.stationIdle_iff st).2 h)
  | none => rfl
  | device z => rfl

theorem State.applyAddress_eq (s : State) (a : Nat) (v : AddrEntry) : s.applyAddress a v = { s with
    link := { s.link with addresses := s.link.addresses.set .none a v }
    work := { s.work with
      restore := s.work.restore ++ if v.namesStation = true ∨ (s.addr a).namesStation = true then [.pass] else [] } } := by
  unfold State.applyAddress
  dsimp only
  split
  · next h => rw [if_pos (by simpa using h)]; rfl
  · next h => rw [if_neg (by simpa using h), List.append_nil]; rfl

/-- Settles O21: the entry's value, the address of a unit, and the branches of R9. -/
theorem addressWrite : Obligations.AddressWrite := by
  refine ⟨addressValue_iff, fun v => ⟨v.namesUnit_iff, v.namesStation_iff⟩, fun s k ht => ?_, fun s tag a e hr ht ha => ?_⟩
  · exact ⟨addressOf_spec ht.addresses.1 nofun, addressOf_spec ht.addresses.1 nofun, addressOf_spec ht.addresses.1 nofun⟩
  intro refused old resting
  have rests : resting = s.unitRests old := rfl
  refine ⟨fun h => write_refused hr ha (by rw [judgeAddress, h]), fun v hv => ?_⟩
  intro barred
  have named : v.namesUnit = true → ((s.link.addresses.any fun p => decide (p.1 ≠ a.toNat) && decide (p.2 = v)) = true ↔
      ∃ b, b ≠ a.toNat ∧ s.addr b = v) := by
    intro hu
    have hv : v ≠ .none := by rintro rfl; cases hu
    simp only [List.any_eq_true, Bool.and_eq_true, decide_eq_true_eq, Prod.exists]
    constructor
    · rintro ⟨b, w, hm, hb, rfl⟩
      exact ⟨b, hb, (State.addr_iff_mem ht.addresses.1 hv b).2 hm⟩
    · rintro ⟨b, hb, hw⟩
      exact ⟨b, v, (State.addr_iff_mem ht.addresses.1 hv b).1 hw, hb, rfl⟩
  have bars (h : barred) : judgeAddress a.toNat e s.beginEvent = .inr .valueRange := by
    rw [judgeAddress, hv]
    obtain ⟨hres, hne⟩ | ⟨hu, hb⟩ := h
    · exact if_pos ⟨(reservedAddress_iff _).2 hres, hne⟩
    · dsimp only
      split
      · rfl
      · exact if_pos ⟨hu, (named hu).2 hb⟩
  have judged (h : ¬ barred) : judgeAddress a.toNat e s.beginEvent =
      if old = v then .inl (s.beginEvent.applyAddress a.toNat v, [])
      else match s.unitBusy old with
        | some r => .inr r
        | none => .inl (s.beginEvent.applyAddress a.toNat v, []) := by
    obtain ⟨hres, hnamed⟩ := not_or.1 h
    rw [judgeAddress, hv]
    exact (if_neg fun hb => hres ⟨(reservedAddress_iff _).1 hb.1, hb.2⟩).trans (if_neg fun hb => hnamed ⟨hb.1, (named hb.1).1 hb.2⟩)
  refine ⟨fun h => write_refused hr ha (bars h), fun h hne hn => ?_, fun h ho => ?_⟩
  · obtain ⟨r, busy, hc, hl, hst⟩ := State.unitBusy_of_works (rests ▸ hn)
    have refuses : refused r := write_refused hr ha (by rw [judged h, if_neg hne, busy])
    exact ⟨fun k hk => hc k hk ▸ refuses, fun l hl' => hl l hl' ▸ refuses, fun st hst' => hst st hst' ▸ refuses⟩
  · have applied : judgeAddress a.toNat e s.beginEvent = .inl (s.beginEvent.applyAddress a.toNat v, []) := by
      rw [judged h]
      split
      · rfl
      · next hne => rw [State.unitBusy_of_rests (rests ▸ ho.resolve_left hne)]
    have addr (b : Nat) : (s.beginEvent.applyAddress a.toNat v).addr b = if b = a.toNat then v else s.addr b := by
      rw [State.applyAddress_eq]
      exact Tab.get_set s.link.addresses .none a.toNat b v ht.addresses.1
    refine ⟨_, write_ends hr ha applied, addr, ?_, ?_⟩
    · intro once w hw one b c hb hc
      rw [addr] at hb hc
      have apart {x : Nat} (hx : x ≠ a.toNat) (hw' : s.addr x = w) : w ≠ v :=
        fun hwv => h (.inr ⟨hwv ▸ hw, x, hx, hw'.trans hwv⟩)
      split at hb
      · next hba =>
        split at hc
        · next hca => rw [hba, hca]
        · next hca => exact absurd hb.symm (apart hca hc)
      · next hba =>
        split at hc
        · exact absurd hc.symm (apart hba hb)
        · exact one b c hb hc
    · rw [State.applyAddress_eq]
      rfl

/-! ## PARAMS -/

theorem clampTo_eq (pos : Nat) {lo hi : Nat} (v : Nat) (h : lo ≤ hi) :
    clampTo pos lo hi v = (max lo (min v hi), if lo ≤ v ∧ v ≤ hi then [] else [(pos, max lo (min v hi))]) := by
  unfold clampTo
  split
  · next hv => rw [if_neg (by omega), show max lo (min v hi) = lo by omega]
  · split
    · next hv => rw [if_neg (by omega), show max lo (min v hi) = hi by omega]
    · rw [if_pos (by omega), show max lo (min v hi) = v by omega]

/-- A PARAMS WRITE of one setting that is applied ends with what its owner makes of it (R16). -/
theorem paramsWrite_ends {s u : State} {tag : BitVec 16} {i v : Nat} {cs : List Clamp} (hr : s.running) (hi : i < 12)
    (h : judgeParam i v s.beginEvent = .inl (u, cs)) (hc : cs.length ≤ clampRoom) :
    exec (.paramsWrite tag (BitVec.ofNat 16 i) [v]) s = .next (s.requestEnds (u.paramsFollow i 1) (oneApplied tag i cs)) := by
  have index : (BitVec.ofNat 16 i).toNat = i := by
    rw [BitVec.toNat_ofNat]
    exact Nat.mod_eq_of_lt (by omega)
  have written : writeEntries 12 judgeParam [v] i s.beginEvent =
      { state := u, applied := 1, clamps := cs.map fun c => (i, c), refusal := none } := by
    rw [writeEntries, if_neg (Nat.not_le.2 hi), h]
    simp [writeEntries]
  refine request_ends (a := fun _ => oneApplied tag i cs) hr ?_
  rw [index, written]
  exact Prod.ext rfl (funext fun _ => answer_oneApplied hc)

/-- Settles O23: each setting, and what its owner makes of it. -/
theorem paramsWrite : Obligations.ParamsWrite := by
  refine ⟨fun pos lo hi v h => clampTo_eq pos v h, fun s tag v hr => ?_⟩
  have fits (lo hi : Nat) : (clampTo 1 lo hi v).2.length ≤ clampRoom := (clampTo_length 1 lo hi v).trans (by decide)
  refine ⟨paramsWrite_ends hr (by decide) rfl (fits _ _), paramsWrite_ends hr (by decide) rfl (fits _ _),
    paramsWrite_ends hr (by decide) rfl (fits _ _), paramsWrite_ends hr (by decide) rfl (fits _ _),
    paramsWrite_ends hr (by decide) rfl (fits _ _), paramsWrite_ends hr (by decide) rfl (fits _ _),
    paramsWrite_ends hr (by decide) rfl (fits _ _), paramsWrite_ends hr (by decide) rfl (fits _ _),
    paramsWrite_ends hr (by decide) rfl (fits _ _), paramsWrite_ends hr (by decide) rfl (fits _ _),
    paramsWrite_ends hr (by decide) rfl (fits _ _), fun h => ?_, fun h => ?_⟩
  · have applied : judgeParam 11 v s.beginEvent =
        .inl (s.beginEvent.modParams fun p => { p with callKeyInhibit := decide (v = 1) }, []) := if_pos h
    refine (paramsWrite_ends (tag := tag) hr (by decide) applied (by decide)).trans ?_
    have idle : State.paramsFollow (s.beginEvent.modParams fun p => { p with callKeyInhibit := decide (v = 1) }) 11 1 =
        s.beginEvent.modParams fun p => { p with callKeyInhibit := decide (v = 1) } := rfl
    rw [State.requestEnds, idle, settle_idle _ rfl]
    rfl
  · have refused : judgeParam 11 v s.beginEvent = .inr .valueRange := if_neg (Nat.not_le.2 h)
    have written : writeEntries 12 judgeParam [v] 11 s.beginEvent =
        { state := s.beginEvent, applied := 0, clamps := [], refusal := some .valueRange } := by
      rw [writeEntries, if_neg (by decide), refused]
    refine request_answers (a := fun _ => noneApplied tag .valueRange) hr ?_
    have first : (11 : BitVec 16).toNat = 11 := rfl
    rw [first, written]
    exact Prod.ext rfl (funext fun _ => answer_noneApplied _ _ _)

/-! ## The common course of a WRITE -/

section
variable {α : Type} {size : Nat} {apply : Nat → α → State → Judged}

theorem writeEntries_cons (e : α) (es : List α) (i : Nat) (s : State) : writeEntries size apply (e :: es) i s =
    if size ≤ i then { state := s, applied := 0, clamps := [], refusal := some .indexRange }
    else match apply i e s with
      | .inr r => { state := s, applied := 0, clamps := [], refusal := some r }
      | .inl (t, cs) =>
        { writeEntries size apply es (i + 1) t with
          applied := (writeEntries size apply es (i + 1) t).applied + 1
          clamps := cs.map (fun c => (i, c)) ++ (writeEntries size apply es (i + 1) t).clamps } := rfl

/-- A WRITE stops at its first refused entry, or goes on to its end (R17, R18). -/
theorem writeEntries_stops (es : List α) (i : Nat) (s : State) :
    let w := writeEntries size apply es i s
    (w.refusal = none ↔ w.applied = es.length) ∧ w.applied ≤ es.length ∧
    (∀ r, w.refusal = some r → ∃ e, es[w.applied]? = some e ∧
      if size ≤ i + w.applied then r = .indexRange else apply (i + w.applied) e w.state = .inr r) ∧
    writeEntries size apply (es.take w.applied) i s = { w with refusal := none } := by
  induction es generalizing i s with
  | nil => exact ⟨by simp [writeEntries], Nat.le_refl 0, nofun, rfl⟩
  | cons e es ih =>
    rw [writeEntries_cons]
    split
    · next hs => exact ⟨by simp, Nat.zero_le _, fun r hr => ⟨e, rfl, (if_pos (c := size ≤ i + 0) hs).mpr (Option.some.inj hr).symm⟩, rfl⟩
    · next hs =>
      split
      · next r hj =>
        refine ⟨by simp, Nat.zero_le _, fun r' hr => ⟨e, rfl, ?_⟩, rfl⟩
        refine (if_neg (c := size ≤ i + 0) hs).mpr ?_
        rw [← Option.some.inj hr]
        exact hj
      · next t cs hj =>
        obtain ⟨all, le, stops, taken⟩ := ih (i + 1) t
        refine ⟨by rw [List.length_cons, Nat.add_right_cancel_iff]; exact all, Nat.succ_le_succ le, fun r hr => ?_, ?_⟩
        · obtain ⟨f, hf, he⟩ := stops r hr
          refine ⟨f, by rw [List.getElem?_cons_succ]; exact hf, ?_⟩
          rwa [show i + ((writeEntries size apply es (i + 1) t).applied + 1) =
            i + 1 + (writeEntries size apply es (i + 1) t).applied by omega]
        · rw [List.take_succ_cons, writeEntries_cons, if_neg hs, hj]
          simp only [taken]

end

/-- Settles O19: where the WRITE stops, by induction on the entries, and the outcome by its cases. -/
theorem writeStopsAtFirstRefusal : Obligations.WriteStopsAtFirstRefusal := by
  intro α size apply es first tag s w a
  obtain ⟨all, le, stops, taken⟩ := writeEntries_stops (size := size) (apply := apply) es first s
  have outcome : a.outcome = w.verdict := rfl
  refine ⟨all, le, stops, taken, fun e rest t cs he hs hj => ?_, rfl, rfl, rfl, ?_, fun hr hc => ?_, fun hr hc => ?_,
    fun hr h0 => ?_, fun hr h0 => ?_⟩
  · have : w = writeEntries size apply (e :: rest) first s := by rw [← he]
    rw [this, writeEntries_cons, if_neg (Nat.not_le.2 hs), hj]
  · show w.fields = _
    rw [Written.fields, flagCode]
    simp only [decide_eq_true_eq]
    rfl
  · rw [outcome, Written.verdict, hr]
    exact if_pos hc
  · rw [outcome, Written.verdict, hr]
    exact if_neg hc
  all_goals
    obtain ⟨r, hr⟩ := Option.ne_none_iff_exists'.1 hr
    rw [outcome, Written.verdict, hr]
  · exact if_pos h0
  · exact if_neg (Nat.pos_iff_ne_zero.1 h0)

end Sys2Proof.Machine
end

section
/-! BIN WRITE of a PRESENT entry (R34, R37, R39), and AISLE WRITE (R25 to R27, R60). -/

namespace Sys2Proof.Machine

/-! ## BIN, a PRESENT entry -/

/-- The slot that the fields of a BIN entry name, if it is one (R39). -/
def BinSlotFits (s : State) (e : BinEntry) : Prop :=
  e.aisle < 12 ∧ 1 ≤ (s.aisle e.aisle).levels ∧ e.face ≤ 1 ∧ 1 ≤ e.level ∧
    e.level ≤ (s.aisle e.aisle).levels ∧ 1 ≤ e.column ∧ e.column ≤ (s.aisle e.aisle).columns

/-- The slot that the fields of a BIN entry name (R39). -/
def binSlot (e : BinEntry) : Slot :=
  { aisle := e.aisle, face := if e.face = 0 then .left else .right, level := e.level, column := e.column }

theorem slotOf_fits {s : State} {e : BinEntry} (h : BinSlotFits s e) :
    s.slotOf e.aisle e.face e.level e.column = some (binSlot e) := by
  obtain ⟨ha, hl, hf, h1, h2, h3, h4⟩ := h
  have face : faceOf e.face = some (if e.face = 0 then .left else .right) := by
    rw [faceOf_eq_some_iff]
    obtain h0 | h0 : e.face = 0 ∨ e.face = 1 := by omega
    · exact .inl ⟨h0, if_pos h0⟩
    · exact .inr ⟨h0, if_neg (by omega)⟩
  have slot := (hasSlot_iff (s.aisle e.aisle) e.level e.column).2 ⟨h1, h2, h3, h4⟩
  rw [State.slotOf, if_pos (by simp [ha, Aisle.configured, hl, slot]), face]
  rfl

theorem slotOf_unfit {s : State} {e : BinEntry} (h : ¬ BinSlotFits s e) :
    s.slotOf e.aisle e.face e.level e.column = none := by
  rw [State.slotOf]
  split
  · next hc =>
    simp only [Bool.and_eq_true, decide_eq_true_eq, Aisle.configured, hasSlot_iff] at hc
    obtain ⟨⟨ha, hl⟩, h1, h2, h3, h4⟩ := hc
    cases hf : faceOf e.face with
    | none => rfl
    | some f =>
      have := (faceOf_eq_some_iff e.face f).1 hf
      exact absurd ⟨ha, hl, by omega, h1, h2, h3, h4⟩ h
  · rfl

theorem writtenBinState_eq {n : Nat} (h : n = 0 ∨ n = 4) :
    writtenBinState n = some (if n = 0 then .stored else .blocked) := by
  obtain rfl | rfl := h <;> rfl

theorem writtenBinState_eq_none {n : Nat} (h : ¬ (n = 0 ∨ n = 4)) : writtenBinState n = none := by
  unfold writtenBinState
  split
  · omega
  · omega
  · rfl

theorem State.claimed_iff (s : State) (t : Slot) :
    s.slotClaimed t = true ↔ ∃ x ∈ s.store.bins, x.2.home = t ∨ x.2.target = some t := by
  simp [State.slotClaimed]

/-- A present state over which a STORED or BLOCKED may be written (R39). -/
theorem State.binRefusal_iff (s : State) (b : Nat) (present written : BinState) : s.binRefusal b present written = false ↔
    present = .stored ∨ present = .blocked ∨
      (written = .stored ∧ (present = .stranded ∨ present = .adrift) ∧ ¬ ∃ c ∈ s.carries, c.bin = b) := by
  rw [← State.carryNames_iff]
  cases present <;> simp [State.binRefusal]

/-- A present record rewritten (R39). -/
theorem State.rewriteBin_eq {s : State} {b : Nat} {r : Bin} (hb : s.bin b = some r) (home : Slot) (st : BinState) :
    s.rewriteBin b r.state home st =
      if st = .stored ∧ r.state ≠ .stored then (s.putBin b { r with home, state := st }).becomeStored b
      else s.putBin b { r with home, state := st } := by
  have put : s.modBin b (fun r => { r with home, state := st }) = s.putBin b { r with home, state := st } := by
    unfold State.modBin
    rw [hb]
  rw [State.rewriteBin, put]

/-- Settles O25: the branches of R39 for an absent and for a present record. -/
theorem binWritePresent : Obligations.BinWritePresent := by
  intro s tag b e hr hb hp refused fits home claimed held st
  have judged : judgeBin b.toNat e s.beginEvent =
      match s.beginEvent.slotOf e.aisle e.face e.level e.column, writtenBinState e.state with
      | some home, some st => judgeBinPresent b.toNat home st s.beginEvent
      | _, _ => .inr .valueRange := by
    unfold judgeBin
    rw [hp]
    rfl
  have unclaimed : s.beginEvent.slotClaimed home = true ↔ claimed := s.claimed_iff home
  refine ⟨fun h => write_refused hr hb ?_, fun hf hst => ?_⟩
  · rw [judged]
    by_cases hf : fits
    · rw [writtenBinState_eq_none fun hs => h ⟨hf, hs⟩]
      split
      · next h => cases h
      · rfl
    · rw [slotOf_unfit (s := s.beginEvent) hf]
  replace judged : judgeBin b.toNat e s.beginEvent = judgeBinPresent b.toNat home st s.beginEvent := by
    rw [judged, slotOf_fits (s := s.beginEvent) hf, writtenBinState_eq hst]
    rfl
  have stored : st = .stored ↔ e.state = 0 := by
    simp only [st]
    split <;> simp_all
  refine ⟨fun hn => ⟨fun hc => write_refused hr hb ?_, fun hc => ?_⟩, fun r hs => ?_⟩
  · rw [judged, judgeBinPresent, State.beginEvent_bin, hn]
    exact if_pos (unclaimed.2 hc)
  · have applied : judgeBin b.toNat e s.beginEvent = .inl (s.beginEvent.createBin b.toNat home st, []) := by
      rw [judged, judgeBinPresent, State.beginEvent_bin, hn]
      exact if_neg (mt unclaimed.1 hc)
    refine ⟨s.beginEvent.putBin b.toNat _, fun c => State.putBin_bin _ _ _ _, rfl, (write_ends hr hb applied).trans ?_⟩
    rw [State.createBin]
    simp only [stored]
    rfl
  · intro free
    replace hs : s.beginEvent.bin b.toNat = some r := hs
    have refuses : s.beginEvent.binRefusal b.toNat r.state st = false ↔ free := by
      rw [State.binRefusal_iff, stored]
      exact Iff.rfl
    have judged : judgeBin b.toNat e s.beginEvent =
        if s.beginEvent.binRefusal b.toNat r.state st = true then .inr .binBusy
        else if home ≠ r.home ∧ s.beginEvent.slotClaimed home = true then .inr .slotTaken
        else .inl (s.beginEvent.rewriteBin b.toNat r.state home st, []) := by
      rw [judged, judgeBinPresent, hs]
    have free_false (hf : free) : ¬ s.beginEvent.binRefusal b.toNat r.state st = true := by rw [refuses.2 hf]; exact nofun
    have applied (hf : free) (hh : home = r.home ∨ ¬ claimed) :=
      judged.trans ((if_neg (free_false hf)).trans (if_neg fun hc => hh.elim hc.1 fun hn => hn (unclaimed.1 hc.2)))
    simp only [State.rewriteBin_eq hs] at applied
    refine ⟨fun hf => write_refused hr hb ?_, fun hf hne hc => write_refused hr hb ?_, fun hf hh ho => ?_, fun hf hh h0 hne => ?_⟩
    · refine judged.trans (if_pos ?_)
      rw [← Bool.not_eq_false]
      exact mt refuses.1 hf
    · exact judged.trans ((if_neg (free_false hf)).trans (if_pos ⟨hne, unclaimed.2 hc⟩))
    · have stays : ¬ (st = .stored ∧ r.state ≠ .stored) := by
        rw [stored]
        exact fun hc => ho.elim (by omega) hc.2
      have applied := applied hf hh
      rw [if_neg stays] at applied
      exact ⟨_, write_closes hr hb applied rfl, fun c => State.putBin_bin _ _ _ _, rfl⟩
    · have becomes : st = .stored ∧ r.state ≠ .stored := ⟨stored.2 h0, hne⟩
      have applied := applied hf hh
      rw [if_pos becomes, becomes.1] at applied
      exact ⟨s.beginEvent.putBin b.toNat _, fun c => State.putBin_bin _ _ _ _, rfl, write_ends hr hb applied⟩

end Sys2Proof.Machine
end

section
/-! AISLE WRITE (R17, R25 to R27, R60). -/

namespace Sys2Proof.Machine

/-! ## The tests of an AISLE entry -/

theorem aisleMalformed_iff (e : AisleEntry) : aisleMalformed e = true ↔
    64 < e.levels ∨ e.columns < 1 ∨ 200 < e.columns ∨ 1 < e.leftMirrored ∨ 1 < e.rightMirrored ∨
      63 < e.frontLevel ∨ e.levels < e.frontLevel ∨ 63 < e.infeedLevel ∨ e.levels < e.infeedLevel ∨
      e.frontSize < 1 ∨ 3 < e.frontSize ∨ e.infeedSize < 1 ∨ 3 < e.infeedSize ∨ 199 < e.parkColumn ∨
      e.columns - 1 < e.parkColumn ∨ 63 < e.parkLevel ∨ e.levels < e.parkLevel ∨ 7 < e.lowerZone ∨ 7 < e.upperZone ∨
      64 < e.split ∨ 1 < e.mode := by
  simp only [aisleMalformed, Bool.or_eq_true, decide_eq_true_eq]
  omega

theorem mirrorCode_inj {x y : Bool} : mirrorCode x = mirrorCode y ↔ x = y := by
  cases x <;> cases y <;> simp [mirrorCode]

/-- Two records with one shape have the same geometry and zone split (section 2.1). -/
theorem Aisle.shape_eq_iff (r q : Aisle) : r.shape = q.shape ↔
    r.levels = q.levels ∧ r.columns = q.columns ∧ r.frontOffset = q.frontOffset ∧
      r.columnPitch = q.columnPitch ∧ r.levelPitch = q.levelPitch ∧ r.leftMirrored = q.leftMirrored ∧
      r.rightMirrored = q.rightMirrored ∧ r.frontLevel = q.frontLevel ∧ r.infeedLevel = q.infeedLevel ∧
      r.frontSize = q.frontSize ∧ r.infeedSize = q.infeedSize ∧ r.parkColumn = q.parkColumn ∧
      r.parkLevel = q.parkLevel ∧ r.lowerZone = q.lowerZone ∧ r.upperZone = q.upperZone ∧ r.split = q.split := by
  simp only [Aisle.shape, List.cons.injEq, mirrorCode_inj, and_true]

/-- What holds of every listed bin holds of every present one. -/
theorem State.all_bins {s : State} (ht : s.Tidy) (p : Bin → Bool) :
    s.store.bins.all (fun x => p x.2) = true ↔ ∀ b x, s.bin b = some x → p x = true := by
  rw [List.all_eq_true]
  exact ⟨fun h b x hx => h (b, x) ((Tab.find_eq_some ht.bins).1 hx), fun h x hx => h x.1 x.2 ((Tab.find_eq_some ht.bins).2 hx)⟩

theorem State.aisleResting_iff {s : State} (ht : s.Tidy) (a : Nat) : s.aisleResting a = true ↔
    (s.crane a).jobs = [] ∧
      (∀ b x, s.bin b = some x → x.home.aisle = a → x.state = .stored ∨ x.state = .blocked) ∧
      ((s.crane a).state = .offline ∨ (s.crane a).state = .faulted) := by
  have bins := s.all_bins ht fun x => decide (x.home.aisle ≠ a) || decide (x.state = .stored) || decide (x.state = .blocked)
  rw [State.aisleResting, Bool.and_eq_true, Bool.and_eq_true, List.isEmpty_iff, bins, Bool.or_eq_true, decide_eq_true_eq,
    decide_eq_true_eq, and_assoc]
  simp only [Bool.or_eq_true, decide_eq_true_eq, or_assoc, ne_eq, imp_iff_not_or (a := _ = a)]

theorem Slot.outside_iff (a : Nat) (r : Aisle) (t : Slot) : t.outside a r = true ↔
    t.aisle = a ∧ ¬ (1 ≤ r.levels ∧ 1 ≤ t.level ∧ t.level ≤ r.levels ∧ 1 ≤ t.column ∧ t.column ≤ r.columns) := by
  rw [Slot.outside, Bool.and_eq_true, decide_eq_true_eq, Bool.not_eq_true', ← Bool.not_eq_true, Bool.and_eq_true, hasSlot_iff,
    Aisle.configured, decide_eq_true_eq]

theorem State.slotLost_iff {s : State} (ht : s.Tidy) (a : Nat) (r : Aisle) : s.slotLost a r = true ↔
    ∃ b x, s.bin b = some x ∧ ∃ t, (t = x.home ∨ x.target = some t) ∧ t.aisle = a ∧
      ¬ (1 ≤ r.levels ∧ 1 ≤ t.level ∧ t.level ≤ r.levels ∧ 1 ≤ t.column ∧ t.column ≤ r.columns) := by
  have claims (x : Bin) : (x.home.outside a r || (match x.target with | some t => t.outside a r | none => false)) = true ↔
      ∃ t, (t = x.home ∨ x.target = some t) ∧ t.outside a r = true := by
    cases x.target with
    | none => simp
    | some y => simp only [Bool.or_eq_true, Option.some.injEq, or_and_right, exists_or, exists_eq_left, exists_eq_left']
  rw [State.slotLost, List.any_eq_true]
  constructor
  · rintro ⟨p, hp, hx⟩
    obtain ⟨t, hc, ho⟩ := (claims p.2).1 hx
    exact ⟨p.1, p.2, (Tab.find_eq_some ht.bins).2 hp, t, hc, (Slot.outside_iff a r t).1 ho⟩
  · rintro ⟨b, x, hb, t, hc, ho⟩
    exact ⟨(b, x), (Tab.find_eq_some ht.bins).1 hb, (claims x).2 ⟨t, hc, (Slot.outside_iff a r t).2 ho⟩⟩

theorem State.zonesClear_iff (s : State) (xs ys : List Nat) :
    (xs ++ ys).all s.zoneClear = true ↔ ∀ z, z ∈ xs ∨ z ∈ ys → (s.zone z).state = .clear := by
  simp [State.zoneClear, or_imp, forall_and]

theorem aisleRecord_unconfigured {e : AisleEntry} (h : e.levels = 0) : aisleRecord e = Aisle.unconfigured := if_pos h

theorem aisleRecord_levels (e : AisleEntry) : (aisleRecord e).levels = e.levels := by
  unfold aisleRecord
  split
  · next h => rw [h]; rfl
  · rfl

/-- The fields of a configured record (R25, R26). -/
theorem aisleRecord_configured {e : AisleEntry} (h : e.levels ≠ 0) :
    let r := aisleRecord e
    r.levels = e.levels ∧ r.columns = e.columns ∧ r.frontOffset = min e.frontOffset 5000 ∧
      r.columnPitch = max 300 (min e.columnPitch 2000) ∧ r.levelPitch = max 200 (min e.levelPitch 1000) ∧
      r.leftMirrored = decide (e.leftMirrored = 1) ∧ r.rightMirrored = decide (e.rightMirrored = 1) ∧
      r.frontLevel = e.frontLevel ∧ r.infeedLevel = e.infeedLevel ∧ r.frontSize = e.frontSize ∧
      r.infeedSize = e.infeedSize ∧ r.parkColumn = e.parkColumn ∧ r.parkLevel = e.parkLevel ∧
      r.travelVmax = max 200 (min e.travelVmax 5000) ∧ r.travelAccel = max 100 (min e.travelAccel 3000) ∧
      r.hoistVmax = max 100 (min e.hoistVmax 2000) ∧ r.hoistAccel = max 100 (min e.hoistAccel 2000) ∧
      r.handling = max 500 (min e.handling 20000) ∧ r.lowerZone = e.lowerZone ∧ r.upperZone = e.upperZone ∧
      r.split = e.split ∧ r.mode = (if e.mode = 1 then .weighted else .strict) ∧
      r.patronWeight = max 1 (min e.patronWeight 255) ∧ r.restoreWeight = max 1 (min e.restoreWeight 255) ∧
      r.houseWeight = max 1 (min e.houseWeight 255) := by
  intro r
  have hr : r = _ := if_neg h
  rw [hr]
  exact ⟨rfl, rfl, clampTo_upTo _ _ _, clampTo_value (by decide) _ _, clampTo_value (by decide) _ _, rfl, rfl, rfl, rfl, rfl, rfl,
    rfl, rfl, clampTo_value (by decide) _ _, clampTo_value (by decide) _ _, clampTo_value (by decide) _ _,
    clampTo_value (by decide) _ _, clampTo_value (by decide) _ _, rfl, rfl, rfl, rfl, clampTo_value (by decide) _ _,
    clampTo_value (by decide) _ _, clampTo_value (by decide) _ _⟩

theorem aisleClamps_fit (e : AisleEntry) : (aisleClamps e).length ≤ clampRoom := by
  unfold aisleClamps
  split
  · exact Nat.zero_le _
  · rw [List.flatMap_def]
    refine clamps_fit (fun l hl => ?_) (by rw [List.length_map]; exact (by decide : 11 ≤ 33))
    obtain ⟨p, hp, rfl⟩ := List.mem_map.1 hl
    simp only [aisleNumeric, List.mem_cons, List.not_mem_nil, or_false] at hp
    rcases hp with rfl | rfl | rfl | rfl | rfl | rfl | rfl | rfl | rfl | rfl | rfl <;> exact clampTo_length _ _ _ _

/-! ## The effect of an AISLE entry -/

section
variable {s : State}

/-- The state after an entry, before the tests that a change of drive level owes. -/
def State.aisleStored (s : State) (a : Nat) (r : Aisle) : State := (s.setAisle a r).refill a

theorem State.applyAisle_eq (a : Nat) (r : Aisle) : s.applyAisle a r = { s.aisleStored a r with
    work := if (s.aisleStored a r).driveLevel a = s.driveLevel a then s.work
      else { s.work with
        zoneTests := s.work.zoneTests ++ [a].flatMap fun a => ((s.aisleStored a r).aisle a).zones
        modeTest := true } } := by
  unfold State.applyAisle
  dsimp only
  split
  · next h => rw [if_pos (show (s.aisleStored a r).driveLevel a = s.driveLevel a from h)]; rfl
  · next h =>
    rw [if_neg (show ¬ (s.aisleStored a r).driveLevel a = s.driveLevel a from h), State.oweDrives]
    simp only [List.isEmpty_cons, Bool.not_false, Bool.or_true]
    rfl

theorem State.aisleStored_aisle (ht : s.Tidy) (a b : Nat) (r : Aisle) :
    (s.aisleStored a r).aisle b = if b = a then r else s.aisle b := Tab.get_set s.store.aisles _ a b r ht.aisles.1

theorem State.aisleStored_crane (ht : s.Tidy) (a b : Nat) (r : Aisle) :
    (s.aisleStored a r).crane b = if b = a then
      { s.crane b with patronCredit := r.patronWeight, restoreCredit := r.restoreWeight, houseCredit := r.houseWeight }
    else s.crane b := by
  have own : (s.setAisle a r).aisle a = r := (s.setAisle_aisle a a r ht.aisles.1).trans (if_pos rfl)
  have crane := Tab.get_set s.dispatch.cranes Crane.idle a b
    { s.crane a with patronCredit := ((s.setAisle a r).aisle a).patronWeight
                     restoreCredit := ((s.setAisle a r).aisle a).restoreWeight
                     houseCredit := ((s.setAisle a r).aisle a).houseWeight } ht.cranes.1
  rw [own] at crane
  unfold State.aisleStored State.refill
  rw [own]
  refine crane.trans ?_
  split
  · next h => rw [h]
  · rfl

end

/-- Settles O24: the tests in order, and the entry stored. -/
theorem aisleWrite : Obligations.AisleWrite := by
  intro s tag a e hr ht ha refused r old malformed same tested resting held free clear lost fit clamps
  have malformed_iff : aisleMalformed e = true ↔ malformed := aisleMalformed_iff e
  refine ⟨aisleRecord_unconfigured, aisleRecord_configured, fun h hm => write_refused hr ha ?_, fun hm => ?_⟩
  · exact if_pos ⟨h, malformed_iff.2 hm⟩
  have judged : judgeAisle a.toNat e s.beginEvent =
      match s.beginEvent.aisleRefusal a.toNat r with
      | some r => .inr r
      | none => .inl (s.beginEvent.applyAisle a.toNat r, aisleClamps e) :=
    if_neg fun h => hm.elim h.1 fun hn => hn (malformed_iff.1 h.2)
  have untested : (r.levels ≠ 0 ∧ r.shape = old.shape) ↔ ¬ tested := by
    rw [aisleRecord_levels, Aisle.shape_eq_iff]
    exact ⟨fun h ht => ht.elim h.1 fun hn => hn h.2, fun h => ⟨fun h0 => h (.inl h0), not_not.1 fun hn => h (.inr hn)⟩⟩
  have busy : (!s.aisleResting a.toNat || s.sizesHeld a.toNat r) = true ↔ ¬ free := by
    have resting_iff : s.aisleResting a.toNat = true ↔ resting := s.aisleResting_iff ht a.toNat
    have held_iff : s.sizesHeld a.toNat r = true ↔ held := s.sizesHeld_iff a.toNat r
    rw [Bool.or_eq_true, Bool.not_eq_true', ← Bool.not_eq_true, resting_iff, held_iff]
    exact ⟨fun h hf => h.elim (· hf.1) hf.2, fun h => or_iff_not_imp_left.2 fun hn => not_not.1 fun hh => h ⟨not_not.1 hn, hh⟩⟩
  have shut : (!((old.zones ++ r.zones).all s.zoneClear)) = true ↔ ¬ clear := by
    rw [Bool.not_eq_true', ← Bool.not_eq_true, s.zonesClear_iff]
  have lost_iff : s.slotLost a.toNat r = true ↔ lost := s.slotLost_iff ht a.toNat r
  have refusal : s.beginEvent.aisleRefusal a.toNat r =
      if r.levels ≠ 0 ∧ r.shape = old.shape then none
      else if (!s.aisleResting a.toNat || s.sizesHeld a.toNat r) = true then some .aisleBusy
      else if (!((old.zones ++ r.zones).all s.zoneClear)) = true then some .zoneShut
      else if s.slotLost a.toNat r = true then some .slotTaken
      else none := rfl
  have refuses {x : Reason} (h : s.beginEvent.aisleRefusal a.toNat r = some x) : refused x :=
    write_refused hr ha (by rw [judged, h])
  have begun (h : tested) : ¬ (r.levels ≠ 0 ∧ r.shape = old.shape) := fun hu => untested.1 hu h
  refine ⟨fun h hb => refuses (refusal.trans ((if_neg (begun h)).trans (if_pos (busy.2 hb)))),
    fun h hf hc => refuses (refusal.trans ((if_neg (begun h)).trans ((if_neg fun hb => busy.1 hb hf).trans (if_pos (shut.2 hc))))),
    fun h hf hc hl => refuses (refusal.trans ((if_neg (begun h)).trans ((if_neg fun hb => busy.1 hb hf).trans
      ((if_neg fun hb => shut.1 hb hc).trans (if_pos (lost_iff.2 hl)))))), fun hok => ?_⟩
  have passes : s.beginEvent.aisleRefusal a.toNat r = none := by
    rw [refusal]
    split
    · rfl
    · next hu =>
      obtain ⟨hf, hc, hl⟩ := hok (not_not.1 (mt untested.2 hu))
      rw [if_neg fun hb => busy.1 hb hf, if_neg fun hb => shut.1 hb hc, if_neg fun hb => hl (lost_iff.1 hb)]
  have applied : judgeAisle a.toNat e s.beginEvent = .inl (s.beginEvent.applyAisle a.toNat r, clamps) := by
    have fit_eq (pos v : Nat) {lo hi : Nat} (h : lo ≤ hi) : (clampTo pos lo hi v).2 = fit pos lo hi v := by rw [clampTo_eq pos v h]
    rw [judged, passes, aisleClamps, aisleNumeric]
    simp only [List.flatMap_cons, List.flatMap_nil, List.append_nil, fit_eq _ _ (show 0 ≤ 5000 by decide),
      fit_eq _ _ (show 300 ≤ 2000 by decide), fit_eq _ _ (show 200 ≤ 1000 by decide), fit_eq _ _ (show 200 ≤ 5000 by decide),
      fit_eq _ _ (show 100 ≤ 3000 by decide), fit_eq _ _ (show 100 ≤ 2000 by decide), fit_eq _ _ (show 500 ≤ 20000 by decide),
      fit_eq _ _ (show 1 ≤ 255 by decide), ← List.append_assoc]
    rfl
  have fits : clamps.length ≤ clampRoom := by
    have : clamps = aisleClamps e := by
      rw [judged, passes] at applied
      exact (Prod.mk.inj (Sum.inl.inj applied)).2.symm
    rw [this]
    exact aisleClamps_fit e
  have aisle (b : Nat) : (s.beginEvent.applyAisle a.toNat r).aisle b = if b = a.toNat then r else s.aisle b := by
    rw [State.applyAisle_eq]
    exact State.aisleStored_aisle (s := s.beginEvent) { ht with } a.toNat b r
  have crane (b : Nat) : (s.beginEvent.applyAisle a.toNat r).crane b = if b = a.toNat then
      { s.crane b with patronCredit := r.patronWeight, restoreCredit := r.restoreWeight, houseCredit := r.houseWeight }
      else s.crane b := by
    rw [State.applyAisle_eq]
    exact State.aisleStored_crane (s := s.beginEvent) { ht with } a.toNat b r
  refine ⟨_, write_ends hr ha applied fits, aisle, crane, fun b hb => ?_, ?_⟩
  · rw [crane, aisle]
    by_cases hba : b = a.toNat
    · subst hba
      rw [if_pos rfl, if_pos rfl]
      exact State.aisleRefusal_fits passes hb.1 hb.2
    · rw [if_neg hba, if_neg hba]
      exact hb
  · have zones : ((s.beginEvent.aisleStored a.toNat r).aisle a.toNat) = r :=
      (State.aisleStored_aisle (s := s.beginEvent) { ht with } a.toNat a.toNat r).trans (if_pos rfl)
    rw [State.applyAisle_eq]
    simp only [List.flatMap_cons, List.flatMap_nil, List.append_nil, zones]
    rfl

end Sys2Proof.Machine
end

section
/-! The frame and its check (section 1.1.1, R3). -/

namespace Sys2Proof.Machine

/-! ## The check, bit by bit -/

/-- One bit fed into the register: the generator is added where the bit that leaves differs from it (R3). -/
def feedBit (register : BitVec 16) (bit : Bool) : BitVec 16 :=
  if register.msb = bit then register <<< 1 else (register <<< 1) ^^^ 0x1021#16

theorem crcBit_xor (c v : BitVec 16) : crcBit (c ^^^ v) = feedBit c v.msb ^^^ (v <<< 1) := by
  unfold crcBit feedBit
  rw [BitVec.msb_xor, BitVec.shiftLeft_xor_distrib]
  cases c.msb <;> cases v.msb <;> simp [BitVec.xor_assoc, BitVec.xor_comm (v <<< 1)]

/-- What has been added to the register beforehand comes to be fed bit by bit (R3). -/
theorem crcBits_xor (n : Nat) (c v : BitVec 16) : repeatTimes crcBit n (c ^^^ v) =
    ((List.range n).map fun i => v.getMsbD i).foldl feedBit c ^^^ (v <<< n) := by
  induction n generalizing c v with
  | zero => simp
  | succ n ih =>
    have later : ((List.range n).map fun i => (v <<< 1).getMsbD i) = (List.range n).map fun i => v.getMsbD (i + 1) :=
      List.map_congr_left fun i _ => by rw [BitVec.getMsbD_shiftLeft]
    rw [repeatTimes_succ, crcBit_xor, ih, List.range_succ_eq_map, List.map_cons, List.foldl_cons, List.map_map, later,
      ← BitVec.shiftLeft_add, Nat.add_comm 1 n]
    rfl

theorem crcByte_eq (c : BitVec 16) (b : Byte) :
    crcByte c b = ((List.range 8).map fun i => b.getMsbD i).foldl feedBit c := by
  have gone : (b.setWidth 16 <<< 8) <<< 8 = 0#16 := by
    rw [← BitVec.shiftLeft_add]
    exact BitVec.shiftLeft_eq_zero (by decide)
  have bits : ((List.range 8).map fun i => (b.setWidth 16 <<< 8).getMsbD i) = (List.range 8).map fun i => b.getMsbD i :=
    List.map_congr_left fun i hi => by
      have := List.mem_range.1 hi
      rw [BitVec.getMsbD_shiftLeft, BitVec.getMsbD_setWidth]
      simp
  rw [crcByte, crcBits_xor, gone, bits, BitVec.xor_zero]

/-- The check feeds the bytes bit by bit, each byte's highest bit first (R3). -/
theorem crc_eq (bs : List Byte) :
    crc bs = (bs.flatMap fun b => (List.range 8).map fun i => b.getMsbD i).foldl feedBit 0xFFFF#16 := by
  rw [crc, List.foldl_flatMap]
  congr 1
  funext c b
  exact crcByte_eq c b

/-! ## Bytes and numbers -/

theorem ofBe_lt (bs : List Byte) : ofBe bs < 256 ^ bs.length := by
  induction bs with
  | nil => exact Nat.one_pos
  | cons b bs ih =>
    rw [ofBe_cons, List.length_cons, Nat.pow_succ]
    have := b.isLt
    nlinarith

theorem ofBe_inj {bs cs : List Byte} (hl : bs.length = cs.length) (h : ofBe bs = ofBe cs) : bs = cs := by
  induction bs generalizing cs with
  | nil => exact (List.eq_nil_of_length_eq_zero hl.symm).symm
  | cons b bs ih =>
    obtain _ | ⟨c, cs⟩ := cs
    · cases hl
    have hl : bs.length = cs.length := Nat.succ.inj hl
    have high (d : Byte) (ds : List Byte) : ofBe (d :: ds) / 256 ^ ds.length = d.toNat := by
      rw [ofBe_cons, Nat.add_comm, Nat.add_mul_div_right _ _ (by positivity), Nat.div_eq_of_lt (ofBe_lt ds), Nat.zero_add]
    have hbc : b.toNat = c.toNat := by rw [← high b bs, ← high c cs, h, hl]
    rw [ofBe_cons, ofBe_cons, hbc, hl] at h
    rw [BitVec.eq_of_toNat_eq hbc, ih hl (Nat.add_left_cancel h)]

/-- Bytes are those of the number that they carry. -/
theorem be_ofBe (bs : List Byte) : be bs.length (ofBe bs) = bs :=
  ofBe_inj (be_length _ _) (ofBe_be _ _ (ofBe_lt bs))

theorem be_one (n : Nat) : be 1 n = [BitVec.ofNat 8 n] := by
  rw [be, be, Nat.pow_zero, Nat.div_one]

/-! ## The frame -/

/-- The bytes of a telegram ahead of its check, the header byte by byte (section 1.1.1). -/
theorem Telegram.unchecked_eq (t : Telegram) : t.unchecked =
    [BitVec.ofNat 8 t.dest, BitVec.ofNat 8 t.src, BitVec.ofNat 8 t.kind, BitVec.ofNat 8 t.body.length] ++ be 2 t.tag ++ t.body := by
  simp only [Telegram.unchecked, be_one]
  rfl

/-- The tests of R3 on a frame of six header bytes and more. -/
theorem parseFrame_cons (d s k l t1 t0 : Byte) (rest : List Byte) :
    parseFrame (d :: s :: k :: l :: t1 :: t0 :: rest) =
      if l.toNat ≤ Config.bodyMax ∧ (d :: s :: k :: l :: t1 :: t0 :: rest).length = 8 + l.toNat ∧ d.toNat < 128 ∧
          s.toNat < 128 ∧ k.toNat < 64 ∧ ofBe (rest.drop l.toNat) =
            (crc ((d :: s :: k :: l :: t1 :: t0 :: rest).take (6 + l.toNat))).toNat then
        some { dest := d.toNat, src := s.toNat, kind := k.toNat, tag := ofBe [t1, t0], body := rest.take l.toNat }
      else none := rfl

theorem parseFrame_frame (t : Telegram) (hd : t.dest < 128) (hs : t.src < 128) (hk : t.kind < 64) (ht : t.tag < 65536)
    (hb : t.body.length ≤ 240) : parseFrame t.frame = some t := by
  have byte {n : Nat} (h : n < 256) : (BitVec.ofNat 8 n).toNat = n := by
    rw [BitVec.toNat_ofNat]
    exact Nat.mod_eq_of_lt h
  obtain ⟨t1, t0, htag⟩ : ∃ t1 t0, be 2 t.tag = [t1, t0] := ⟨_, _, rfl⟩
  have unchecked := t.unchecked_eq
  rw [htag] at unchecked
  have frame : t.frame = BitVec.ofNat 8 t.dest :: BitVec.ofNat 8 t.src :: BitVec.ofNat 8 t.kind ::
      BitVec.ofNat 8 t.body.length :: t1 :: t0 :: (t.body ++ be 2 (crc t.unchecked).toNat) := by
    rw [Telegram.frame, unchecked]
    rfl
  have checked : t.frame.take (6 + t.body.length) = t.unchecked :=
    List.take_left' (by rw [unchecked]; simp; omega)
  have tag : ofBe [t1, t0] = t.tag := by rw [← htag]; exact ofBe_be 2 t.tag ht
  have check : ofBe (be 2 (crc t.unchecked).toNat) = (crc t.unchecked).toNat := ofBe_be 2 _ (crc t.unchecked).isLt
  have bodyMax : Config.bodyMax = 240 := rfl
  rw [frame] at checked ⊢
  rw [parseFrame_cons, byte (show t.body.length < 256 by omega), byte (show t.dest < 256 by omega),
    byte (show t.src < 256 by omega), byte (show t.kind < 256 by omega), checked, List.drop_left, List.take_left, check, tag]
  refine if_pos ⟨by omega, ?_, hd, hs, hk, rfl⟩
  simp
  omega

/-- A frame is that of the telegram it carries (section 1.1.1, R3). -/
theorem frame_of_parseFrame (f : List Byte) (t : Telegram) (h : parseFrame f = some t) : t.frame = f := by
  unfold parseFrame at h
  split at h
  · next d s k l t1 t0 rest =>
    split at h
    · next hc =>
      obtain ⟨_, hlen, _, _, _, hcrc⟩ := hc
      cases h
      have length : rest.length = l.toNat + 2 := by
        simp only [List.length_cons] at hlen
        omega
      have body : (rest.take l.toNat).length = l.toNat := by rw [List.length_take]; omega
      have tail : (rest.drop l.toNat).length = 2 := by rw [List.length_drop]; omega
      have byte (b : Byte) : BitVec.ofNat 8 b.toNat = b := by rw [BitVec.ofNat_toNat, BitVec.setWidth_eq]
      have unchecked : Telegram.unchecked { dest := d.toNat, src := s.toNat, kind := k.toNat, tag := ofBe [t1, t0]
                                            body := rest.take l.toNat } =
          (d :: s :: k :: l :: t1 :: t0 :: rest).take (6 + l.toNat) := by
        rw [Telegram.unchecked_eq, body, byte, byte, byte, byte, Nat.add_comm 6]
        exact congrArg (fun tag => [d, s, k, l] ++ tag ++ rest.take l.toNat) (be_ofBe [t1, t0])
      have check := be_ofBe (rest.drop l.toNat)
      rw [tail] at check
      rw [Telegram.frame, unchecked, ← hcrc, check, Nat.add_comm 6]
      show d :: s :: k :: l :: t1 :: t0 :: (rest.take l.toNat ++ rest.drop l.toNat) = _
      rw [List.take_append_drop]
    · cases h
  · cases h

/-- Settles O13: the check fed bit by bit, and the frame read back. -/
theorem framesCarryTelegramsBack : Obligations.FramesCarryTelegramsBack := by
  refine ⟨fun w n => ⟨be_length w n, fun k hk => be_getElem? w n k hk⟩, fun t => ?_, parseFrame_frame, frame_of_parseFrame⟩
  intro checked feed bits
  have unchecked : t.unchecked = checked := t.unchecked_eq
  rw [Telegram.frame, crc_eq, unchecked]
  rfl

end Sys2Proof.Machine
end

section
/-! FRAME_ARRIVAL and TRANSMISSION_BEGINS: COMMAND (R20), the arrivals that are not taken (R3 to R6), forwarding (R10, R11,
R13), and transmission (R7, R12). -/

namespace Sys2Proof.Machine

/-! ## COMMAND -/

/-- The command of a name and an argument (R20). -/
def commandNamed (tag : BitVec 16) (name arg : Nat) : TakenUp :=
  match name with
  | 0 => .request (.quiet tag)
  | 1 => .request (.wake tag)
  | 2 => .request (.restart tag)
  | 3 => unitCommand 6 arg (.join tag)
  | 4 => unitCommand 6 arg (.leave tag)
  | 5 => unitCommand 8 arg (.zoneShut tag)
  | 6 => unitCommand 8 arg (.zoneRestore tag)
  | 7 => unitCommand 8 arg (.sealNow tag)
  | 8 => unitCommand 12 arg (.clearFault tag)
  | 9 => unitCommand 12 arg (.flush tag)
  | 10 => .request (.day tag (word 16 arg))
  | _ => .refused .valueRange

theorem commandNamed_other (tag : BitVec 16) {name : Nat} (arg : Nat) (h : 10 < name) :
    commandNamed tag name arg = .refused .valueRange := by
  obtain ⟨n, rfl⟩ := Nat.exists_eq_add_of_le' (show 11 ≤ name from h)
  rfl

/-- The fields of a COMMAND's body are those that it was made of. -/
theorem commandForm_eq (tag : BitVec 16) {name arg : Nat} (hn : name < 256) (ha : arg < 65536) :
    commandForm tag (be 1 name ++ be 2 arg) = commandNamed tag name arg := by
  have fit : Fields.fit [(1, name), (2, arg)] := by
    intro f hf
    simp only [List.mem_cons, List.not_mem_nil, or_false] at hf
    obtain rfl | rfl := hf
    · exact hn
    · exact ha
  have fields : splitFields [1, 2] (be 1 name ++ be 2 arg) = [name, arg] := by
    simpa using splitFields_bytes [(1, name), (2, arg)] [] fit
  have length : (be 1 name ++ be 2 arg).length = 3 := by simp
  unfold commandForm
  rw [fields]
  dsimp only
  rw [if_pos length]
  rfl

/-- Settles O17. -/
theorem commandNamesAndArguments : Obligations.CommandNamesAndArguments := by
  intro tag name arg hn ha taken
  have form : taken = commandNamed tag name arg := by
    have own : word 16 tag.toNat = tag := (BitVec.ofNat_toNat ..).trans (BitVec.setWidth_eq _)
    have kept : taken = commandForm (word 16 tag.toNat) (be 1 name ++ be 2 arg) := rfl
    rw [kept, own, commandForm_eq tag hn ha]
  rw [form]
  refine ⟨?_, ?_, ?_, ?_, ?_, ?_, ?_, ?_, ?_, ?_, ?_, fun h => commandNamed_other tag arg h⟩
  all_goals rintro rfl; rfl

/-! ## Arrivals -/

section
variable {s : State} {f : List Byte} {m : Telegram}

theorem frameArrival_eq (hr : s.running) (p : Port) (f : List Byte) : exec (.frameArrival p f) s = s.arrive p f := if_pos hr

theorem arrive_up_failed (hf : parseFrame f = none) : s.arrive .u f = .next (s.raise 0) := by
  unfold State.arrive
  rw [hf]

theorem arrive_down_failed (hf : parseFrame f = none) : s.arrive .d f = .next (s.raise 1) := by
  unfold State.arrive
  rw [hf]

theorem arrive_up (hf : parseFrame f = some m) : s.arrive .u f = s.routeUp m := by
  unfold State.arrive
  rw [hf]

theorem arrive_down (hf : parseFrame f = some m) : s.arrive .d f = s.routeDown m := by
  unfold State.arrive
  rw [hf]

theorem routeDown_own (hm : m.dest = 126) : s.routeDown m = s.takeDown m :=
  (if_neg (by omega)).trans (if_pos hm)

theorem takeCrane_stray {make : Fin 12 → Instr} {v : AddrEntry} (h : ∀ a, v ≠ .crane a) : s.takeCrane make v = s.stray := by
  cases v with
  | crane a => exact absurd rfl (h a)
  | none => rfl
  | lift l => rfl
  | station st => rfl
  | device z => rfl

theorem takeLift_stray {make : Fin 6 → Instr} {v : AddrEntry} (h : ∀ l, v ≠ .lift l) : s.takeLift make v = s.stray := by
  cases v with
  | lift l => exact absurd rfl (h l)
  | none => rfl
  | crane a => rfl
  | station st => rfl
  | device z => rfl

theorem takeStation_stray {make : Fin 24 → Instr} {v : AddrEntry} (h : ∀ st, v ≠ .station st) :
    s.takeStation make v = s.stray := by
  cases v with
  | station st => exact absurd rfl (h st)
  | none => rfl
  | crane a => rfl
  | lift l => rfl
  | device z => rfl

theorem eq_of_reportForm {n : Nat} {b : List Byte} {r q : Report} (h : reportForm n b r = some q) : r = q := by
  unfold reportForm at h
  split at h
  · exact Option.some.inj h
  · cases h

/-- A word that is not acted on is a crane's or a lift's (log entry 8). -/
theorem takenDown_ignored {role : Nat} (h : takenDown m = some (.ignored role)) : role = 1 ∨ role = 2 := by
  unfold takenDown at h
  split at h
  case h_4 | h_6 =>
    replace h := eq_of_reportForm h
    split at h
    · cases h
    · injection h with h
      omega
  case h_12 => cases h
  all_goals exact absurd (eq_of_reportForm h) nofun

end

/-- Settles O14: each arrival to its counter. -/
theorem arrivalDiscardedAndCounted : Obligations.ArrivalDiscardedAndCounted := by
  intro s hr hc
  have counted (i : Nat) : Counted s (s.raise i) i := counted_raise hc i
  have taken {f : List Byte} {m : Telegram} (hf : parseFrame f = some m) (hm : m.dest = 126) :
      exec (.frameArrival .d f) s = s.takeDown m := by
    rw [frameArrival_eq hr, arrive_down hf, routeDown_own hm]
  refine ⟨fun f hf => ⟨_, ?_, counted 0⟩, fun f hf => ⟨_, ?_, counted 1⟩, fun f m hf hm => ⟨_, ?_, counted 4⟩,
    fun f m hf h0 hm => ⟨_, ?_, counted 4⟩, fun f m hf hm ht => ⟨_, ?_, counted 3⟩,
    fun f m make hf hm ht ha => ⟨_, ?_, counted 5⟩, fun f m make hf hm ht ha => ⟨_, ?_, counted 5⟩,
    fun f m make hf hm ht ha => ⟨_, ?_, counted 5⟩, fun f m role hf hm ht hc hl => ⟨_, ?_, counted 5⟩⟩
  · rw [frameArrival_eq hr, arrive_up_failed hf]
  · rw [frameArrival_eq hr, arrive_down_failed hf]
  · rw [frameArrival_eq hr, arrive_up hf]
    exact if_pos hm
  · rw [frameArrival_eq hr, arrive_down hf]
    exact (if_neg h0).trans (if_neg hm)
  · rw [taken hf hm, State.takeDown, ht]
  · rw [taken hf hm, State.takeDown, ht]
    exact takeCrane_stray ha
  · rw [taken hf hm, State.takeDown, ht]
    exact takeLift_stray ha
  · rw [taken hf hm, State.takeDown, ht]
    exact takeStation_stray ha
  · have other : (s.addr m.src).role ≠ role := by
      obtain rfl | rfl := takenDown_ignored ht
      · cases hs : s.addr m.src with
        | crane a => exact absurd ⟨rfl, hs⟩ (hc a)
        | none => exact nofun
        | lift l => exact nofun
        | station st => exact nofun
        | device z => exact nofun
      · cases hs : s.addr m.src with
        | lift l => exact absurd ⟨rfl, hs⟩ (hl l)
        | none => exact nofun
        | crane a => exact nofun
        | station st => exact nofun
        | device z => exact nofun
    rw [taken hf hm, State.takeDown, ht]
    exact if_neg other

/-! ## Guards -/

theorem State.all_zoneClear_iff (s : State) (xs : List Nat) :
    xs.all s.zoneClear = true ↔ ∀ z ∈ xs, (s.zone z).state = .clear := by
  simp [State.zoneClear]

theorem State.guardPasses_iff (s : State) (d : Nat) : s.guardPasses d = true ↔
    if d = 127 then ∀ z, z < 8 → (s.zone z).state = .clear else ∀ z ∈ s.zonesTouched d, (s.zone z).state = .clear := by
  have every : allZones.all s.zoneClear = true ↔ ∀ z, z < 8 → (s.zone z).state = .clear := by
    rw [s.all_zoneClear_iff]
    exact forall_congr' fun z => imp_congr_left List.mem_range
  by_cases hd : d = 127
  · subst hd
    exact every
  · rw [if_neg hd]
    unfold State.guardPasses
    rw [if_neg (show ¬ d = Config.broadcast from hd)]
    exact s.all_zoneClear_iff _

/-- A guard drop is an event that counts and sends its NOTICE (R11, R12). -/
theorem guardDrop_spec {s : State} (h : s.link.counters.wf) (d k : Nat) :
    ∃ u, s.guardDrop d k = s.closeEvent u none ∧ u.work.up = [.notice (.guardDrop d k)] ∧ u.work.down = [] ∧
      Counted { s with work := u.work } u 6 := by
  refine ⟨(s.beginEvent.raise 6).notice (.guardDrop d k), ?_, rfl, rfl, ?_⟩
  · rw [State.guardDrop, State.event, settle_idle _ rfl]
  · obtain ⟨_, others, own⟩ := counted_raise h 6
    exact ⟨rfl, others, own⟩

/-! ## Transmission -/

section
variable {s : State}

theorem transmitUp_cons {q : Queued} {rest : List Queued} (h : s.ports.uQueue = q :: rest) : s.transmitUp =
    (s.modPorts fun p => { p with uQueue := rest, uLine := some q.telegram.frame }).countForwarded q 9 := by
  unfold State.transmitUp
  rw [h]

theorem transmitDown_cons {q : Queued} {rest : List Queued} (h : s.ports.dQueue = q :: rest) : s.transmitDown =
    if s.headPasses q then
      (s.modPorts fun p => { p with dQueue := rest, dLine := some q.telegram.frame }).countForwarded q 8
    else (s.modPorts fun p => { p with dQueue := rest }).guardDrop q.telegram.dest q.telegram.kind := by
  unfold State.transmitDown
  rw [h]

theorem transmissionBegins_up (h : s.running ∨ s.resets.phase = .restarting) :
    exec (.transmissionBegins .u) s = .next s.transmitUp := by
  show execTransmissionBegins .u s = _
  unfold execTransmissionBegins
  obtain h | h := h
  · rw [h]
  · rw [h]

theorem transmissionBegins_down (h : s.running) : exec (.transmissionBegins .d) s = .next s.transmitDown := by
  show execTransmissionBegins .d s = _
  unfold execTransmissionBegins
  rw [h]

theorem transmissionBegins_down_waits (h : ¬ s.running) : exec (.transmissionBegins .d) s = .next s := by
  show execTransmissionBegins .d s = _
  unfold execTransmissionBegins
  split
  · next h _ => cases h
  · next h _ => cases h
  · next hr => exact absurd hr h
  · rfl

theorem transmissionBegins_up_waits (h : ¬ s.running) (hr : s.resets.phase ≠ .restarting) :
    exec (.transmissionBegins .u) s = .next s := by
  show execTransmissionBegins .u s = _
  unfold execTransmissionBegins
  split
  · next he => exact absurd he h
  · next he => exact absurd he hr
  · next h _ => cases h
  · rfl

end

/-- Settles O18: each queue by its head's class. -/
theorem transmissionTakesTheHead : Obligations.TransmissionTakesTheHead := by
  intro s hc
  refine ⟨s.guardPasses_iff, fun h => ?_, fun h => ?_, transmissionBegins_down_waits, transmissionBegins_up_waits,
    fun q rest hr hq => ⟨_, transmissionBegins_up hr, ?_⟩, fun q rest hr hq => ?_⟩
  · by_cases hr : s.running ∨ s.resets.phase = .restarting
    · rw [transmissionBegins_up hr, State.transmitUp, h]
    · exact transmissionBegins_up_waits (fun h => hr (.inl h)) fun h => hr (.inr h)
  · by_cases hr : s.running
    · rw [transmissionBegins_down hr, State.transmitDown, h]
    · exact transmissionBegins_down_waits hr
  · rw [transmitUp_cons hq]
    unfold State.countForwarded
    cases q.cls with
    | forwarded g =>
      exact counted_raise (s := { s with ports := { s.ports with uQueue := rest, uLine := some q.telegram.frame } }) hc 9
    | kept => rfl
    | notice => rfl
    | move a => rfl
  · intro sent dropped drops
    have sends (h : s.headPasses q = true) : exec (.transmissionBegins .d) s = .next (sent.countForwarded q 8) := by
      rw [transmissionBegins_down hr, transmitDown_cons hq, if_pos h]
      rfl
    have drop (h : ¬ s.headPasses q = true) : drops := by
      obtain ⟨u, closes, up, down, counted⟩ := guardDrop_spec (s := dropped) hc q.telegram.dest q.telegram.kind
      refine ⟨u, ?_, up, down, counted⟩
      rw [← closes, transmissionBegins_down hr, transmitDown_cons hq, if_neg h]
      rfl
    cases hq' : q.cls with
    | forwarded g =>
      have counted : sent.countForwarded q 8 = sent.raise 8 := by
        unfold State.countForwarded
        rw [hq']
      have transmitted (h : s.headPasses q = true) :
          ∃ t, exec (.transmissionBegins .d) s = .next t ∧ Counted sent t 8 :=
        ⟨_, counted ▸ sends h, counted_raise (s := sent) hc 8⟩
      cases g with
      | false => exact transmitted (by unfold State.headPasses; rw [hq'])
      | true =>
        have passes : s.headPasses q = s.guardPasses q.telegram.dest := by unfold State.headPasses; rw [hq']
        rw [passes] at transmitted drop
        show if _ then _ else _
        split
        · next h => exact transmitted h
        · next h => exact drop h
    | move a =>
      have passes : s.headPasses q = true ↔ ∀ z ∈ (s.aisle a).zones, (s.zone z).state = .clear := by
        unfold State.headPasses
        rw [hq']
        exact s.all_zoneClear_iff _
      have idle : sent.countForwarded q 8 = sent := by unfold State.countForwarded; rw [hq']
      rw [passes, idle] at sends
      rw [passes] at drop
      show if _ then _ else _
      split
      · next h => exact sends h
      · next h => exact drop h
    | kept =>
      have idle : sent.countForwarded q 8 = sent := by unfold State.countForwarded; rw [hq']
      exact idle ▸ sends (by unfold State.headPasses; rw [hq'])
    | notice =>
      have idle : sent.countForwarded q 8 = sent := by unfold State.countForwarded; rw [hq']
      exact idle ▸ sends (by unfold State.headPasses; rw [hq'])

end Sys2Proof.Machine
end

section
/-! FRAME_ARRIVAL of a telegram that is forwarded (R4, R10, R11, R13), and the zones that a destination touches (R25, R31). -/

namespace Sys2Proof.Machine

/-! ## The zones of an aisle -/

theorem Aisle.mem_zones_iff (r : Aisle) (z : Nat) : z ∈ r.zones ↔
    1 ≤ r.levels ∧ ∃ l, (1 ≤ l ∧ l ≤ r.levels ∨ l = r.frontLevel ∨ l = r.infeedLevel) ∧
      z = if l < r.split then r.lowerZone else r.upperZone := by
  have owner (l : Nat) : r.zoneOfLevel l = if l < r.split then r.lowerZone else r.upperZone := rfl
  have unfolded : z ∈ r.zones ↔ r.configured = true ∧
      (z = r.zoneOfLevel 1 ∨ z = r.zoneOfLevel r.levels ∨ z = r.zoneOfLevel r.frontLevel ∨ z = r.zoneOfLevel r.infeedLevel) := by
    unfold Aisle.zones
    split
    · next h =>
      simp only [List.mem_dedup, List.mem_cons, List.not_mem_nil, or_false, h, true_and]
      rfl
    · next h => simp [h]
  rw [unfolded, Aisle.configured_iff]
  refine and_congr_right fun hl => ⟨?_, ?_⟩
  · rintro (rfl | rfl | rfl | rfl)
    · exact ⟨1, .inl ⟨Nat.le_refl 1, hl⟩, rfl⟩
    · exact ⟨r.levels, .inl ⟨hl, Nat.le_refl _⟩, rfl⟩
    · exact ⟨r.frontLevel, .inr (.inl rfl), rfl⟩
    · exact ⟨r.infeedLevel, .inr (.inr rfl), rfl⟩
  · rintro ⟨l, hl' | rfl | rfl, rfl⟩
    · by_cases hs : l < r.split
      · exact .inl (by rw [owner, if_pos hs, if_pos (by omega)])
      · exact .inr (.inl (by rw [owner, if_neg hs, if_neg (by omega)]))
    · exact .inr (.inr (.inl rfl))
    · exact .inr (.inr (.inr rfl))

/-! ## Forwarding -/

section
variable {s : State} {m : Telegram}

theorem forwardDown_pass (h : s.treatDown m.kind = .pass) :
    s.forwardDown m = State.handDown { telegram := m, cls := .forwarded false } s := by
  unfold State.forwardDown
  rw [h]

theorem forwardDown_drop (h : s.treatDown m.kind = .drop) : s.forwardDown m = s.raise 7 := by
  unfold State.forwardDown
  rw [h]

theorem forwardDown_guard (h : s.treatDown m.kind = .guard) : s.forwardDown m =
    if s.guardPasses m.dest then State.handDown { telegram := m, cls := .forwarded true } s
    else s.guardDrop m.dest m.kind := by
  unfold State.forwardDown
  rw [h]

/-- A telegram that is only forwarded (R4, R13). -/
theorem routeUp_forwarded (h : 1 ≤ m.dest ∧ m.dest ≤ 125 ∨ m.dest = 127 ∧ ¬ (1 ≤ m.kind ∧ m.kind ≤ 7)) :
    s.routeUp m = .next (s.forwardDown m) := by
  have own : Config.ownAddress = 126 := rfl
  have all : Config.broadcast = 127 := rfl
  unfold State.routeUp
  rw [if_neg (by omega), if_neg (by omega), if_neg]
  rintro ⟨hd, hk⟩
  simp only [requestKind, Bool.and_eq_true, decide_eq_true_eq] at hk
  omega

end

/-- Settles O15: the treatment of each direction, and the zones that a destination touches. -/
theorem arrivalForwarded : Obligations.ArrivalForwarded := by
  refine ⟨fun r z => ⟨rfl, rfl, r.mem_zones_iff z⟩, fun s f m hr hc hf => ?_, fun s m hr hc hd => ?_, fun s d z => ?_⟩
  · have down (h0 : m.dest = 0) : exec (.frameArrival .d f) s = .next (s.forwardUp m) := by
      rw [frameArrival_eq hr, arrive_down hf]
      exact if_pos h0
    refine ⟨fun h0 ht => ?_, fun h0 ht => ?_, fun h0 ht => ⟨_, ?_, counted_raise hc 7⟩, fun hd => ?_⟩
    · rw [down h0, State.forwardUp, ht]
    · rw [down h0, State.forwardUp, ht]
    · rw [down h0, State.forwardUp, ht]
    have up : exec (.frameArrival .u f) s = .next (s.forwardDown m) := by
      rw [frameArrival_eq hr, arrive_up hf, routeUp_forwarded hd]
    refine ⟨fun ht => by rw [up, forwardDown_pass ht], fun ht => ⟨_, by rw [up, forwardDown_drop ht], counted_raise hc 7⟩,
      fun ht hz => ?_, fun ht hz => ?_⟩
    · rw [up, forwardDown_guard ht, if_pos ((s.guardPasses_iff m.dest).2 hz)]
    · obtain ⟨u, closes, up', down', counted⟩ := guardDrop_spec hc m.dest m.kind
      refine ⟨u, ?_, up', down', counted⟩
      rw [up, forwardDown_guard ht, if_neg (mt (s.guardPasses_iff m.dest).1 hz), closes]
  · intro clear
    have passes : s.guardPasses m.dest = true ↔ clear := by
      rw [s.guardPasses_iff, if_pos hd]
    refine ⟨forwardDown_pass, fun ht => forwardDown_drop ht ▸ counted_raise hc 7,
      fun ht hz => by rw [forwardDown_guard ht, if_pos (passes.2 hz)], fun ht hz => ?_⟩
    rw [forwardDown_guard ht, if_neg (mt passes.1 hz), hd]
    exact guardDrop_spec hc 127 m.kind
  · unfold State.zonesTouched
    cases s.addr d with
    | none => exact iff_of_false nofun id
    | crane a => exact (s.aisle a).mem_zones_iff z
    | lift l => exact List.mem_singleton
    | station st => exact List.mem_singleton
    | device e => exact List.mem_singleton

end Sys2Proof.Machine
end

section
/-! PROOF (O12). What an event hands over: its ANSWER, its NOTICEs and HOLDOFFs, its telegrams to the field
(R7, R21, R22). -/

namespace Sys2Proof.Machine

/-! ## Hand-overs to queues with room -/

/-- A telegram handed to a U send queue with room is appended, and no overflow counted (R7). -/
theorem handUp_room (x : Queued) (s : State) (h : s.ports.uQueue.length < 64) :
    State.handUp x s = s.modPorts fun p => { p with uQueue := p.uQueue ++ [x] } := by
  unfold State.handUp
  simp only [State.modPorts, enqueue_room _ _ h]
  rfl

/-- A telegram handed to a D send queue with room is appended, and no overflow counted (R7). -/
theorem handDown_room (x : Queued) (s : State) (h : s.ports.dQueue.length < 64) :
    State.handDown x s = s.modPorts fun p => { p with dQueue := p.dQueue ++ [x] } := by
  unfold State.handDown
  simp only [State.modPorts, enqueue_room _ _ h]
  rfl

/-- A U send queue and the notice sequence with these sends behind what the queue holds. -/
def Ports.withSends (p : Ports) (ms : List UpMsg) : Ports :=
  { p with uQueue := p.uQueue ++ telegramsUp p.noticeSeq ms, noticeSeq := sequenceAfter p.noticeSeq ms }

/-- A NOTICE or HOLDOFF handed to a queue with room. -/
theorem handMsg_room (m : UpMsg) (s : State) (h : s.ports.uQueue.length < 64) :
    State.handMsg m s = s.modPorts fun p => p.withSends [m] := by
  cases m with
  | notice n => simp only [State.handMsg, handUp_room _ _ h]; rfl
  | holdoff ms => simp only [State.handMsg, handUp_room _ _ h]; rfl

/-- One send, then the others. -/
theorem Ports.withSends_cons (p : Ports) (m : UpMsg) (ms : List UpMsg) :
    (p.withSends [m]).withSends ms = p.withSends (m :: ms) := by
  cases m with
  | notice n => simp [Ports.withSends, telegramsUp, sequenceAfter]
  | holdoff n => simp [Ports.withSends, telegramsUp, sequenceAfter]

/-- A send puts one telegram in the queue. -/
theorem Ports.withSends_length (p : Ports) (m : UpMsg) : (p.withSends [m]).uQueue.length = p.uQueue.length + 1 := by
  cases m with
  | notice n => simp [Ports.withSends, telegramsUp]
  | holdoff n => simp [Ports.withSends, telegramsUp]

/-- What an event sends up, handed to a queue with room for all of it (R22). -/
theorem forEach_handMsg_room (ms : List UpMsg) (s : State) (h : s.ports.uQueue.length + ms.length ≤ 64) :
    forEach ms State.handMsg s = s.modPorts fun p => p.withSends ms := by
  induction ms generalizing s with
  | nil => simp [forEach, State.modPorts, Ports.withSends, telegramsUp, sequenceAfter]
  | cons m ms ih =>
    have hlen : s.ports.uQueue.length + ms.length + 1 ≤ 64 := by simpa [Nat.add_assoc] using h
    rw [forEach_cons, handMsg_room m s (by omega), ih]
    · exact congrArg (fun p => { s with ports := p }) (s.ports.withSends_cons m ms)
    · show (s.ports.withSends [m]).uQueue.length + _ ≤ _
      rw [s.ports.withSends_length]
      omega

/-- What an event sends down, handed to a queue with room for all of it. -/
theorem forEach_handDown_room (xs : List Queued) (s : State) (h : s.ports.dQueue.length + xs.length ≤ 64) :
    forEach xs State.handDown s = s.modPorts fun p => { p with dQueue := p.dQueue ++ xs } := by
  induction xs generalizing s with
  | nil => simp [forEach, State.modPorts]
  | cons x xs ih =>
    have hlen : s.ports.dQueue.length + xs.length + 1 ≤ 64 := by simpa [Nat.add_assoc] using h
    rw [forEach_cons, handDown_room x s (by omega), ih]
    · simp [State.modPorts]
    · simp only [State.modPorts, List.length_append, List.length_singleton]
      omega

/-! ## What the hand-overs of the other port leave -/

/-- What stays over hand-overs to the D send queue: the U send queue, the notice sequence and the U overflow counter. -/
structure SameUp (s t : State) : Prop where
  queue : t.ports.uQueue = s.ports.uQueue
  seq : t.ports.noticeSeq = s.ports.noticeSeq
  counter : t.counter 10 = s.counter 10

/-- What stays over hand-overs to the U send queue: the D send queue and its overflow counter. -/
structure SameDown (s t : State) : Prop where
  queue : t.ports.dQueue = s.ports.dQueue
  counter : t.counter 11 = s.counter 11

/-- A rise of one overflow counter leaves the other. -/
theorem raiseIf_counter_ne (s : State) (b : Bool) (i j : Nat) (h : j ≠ i) : (s.raiseIf b i).counter j = s.counter j := by
  unfold State.raiseIf
  split
  · exact s.setCounter_counter_ne i j _ h
  · rfl

theorem handDown_sameUp (x : Queued) (s : State) : SameUp s (State.handDown x s) where
  queue := by rw [handDown_ports]
  seq := by rw [handDown_ports]
  counter := raiseIf_counter_ne _ _ 11 10 (by decide)

theorem handUp_sameDown (x : Queued) (s : State) : SameDown s (State.handUp x s) where
  queue := by rw [handUp_ports]
  counter := raiseIf_counter_ne _ _ 10 11 (by decide)

theorem handMsg_sameDown (m : UpMsg) (s : State) : SameDown s (State.handMsg m s) := by
  cases m with
  | notice n => exact ⟨(handUp_sameDown _ s).queue, (handUp_sameDown _ s).counter⟩
  | holdoff n => exact handUp_sameDown _ s

theorem forEach_handDown_sameUp (xs : List Queued) (s : State) : SameUp s (forEach xs State.handDown s) :=
  forEach_induct (SameUp s) _
    (fun x u hu =>
      have hx := handDown_sameUp x u
      ⟨hx.queue.trans hu.queue, hx.seq.trans hu.seq, hx.counter.trans hu.counter⟩)
    _ _ ⟨rfl, rfl, rfl⟩

theorem forEach_handMsg_sameDown (ms : List UpMsg) (s : State) : SameDown s (forEach ms State.handMsg s) :=
  forEach_induct (SameDown s) _
    (fun m u hu =>
      have hm := handMsg_sameDown m u
      ⟨hm.queue.trans hu.queue, hm.counter.trans hu.counter⟩)
    _ _ ⟨rfl, rfl⟩

/-! ## The event as a whole -/

/-- The telegrams of the ANSWER of an event, if it answers. -/
def answerTelegrams : Option Answer → List Queued
  | some a => [a.queued]
  | none => []

/-- The ANSWER handed to a queue with room. -/
theorem handAnswer_room (s : State) (a : Option Answer) (h : s.ports.uQueue.length + (answerTelegrams a).length ≤ 64) :
    s.handAnswer a = s.modPorts fun p => { p with uQueue := p.uQueue ++ answerTelegrams a } := by
  cases a with
  | none => simp [State.handAnswer, answerTelegrams, State.modPorts]
  | some a => exact handUp_room _ _ (by simpa [answerTelegrams] using h)

theorem handAnswer_sameDown (s : State) (a : Option Answer) : SameDown s (s.handAnswer a) := by
  cases a with
  | none => exact ⟨rfl, rfl⟩
  | some a => exact handUp_sameDown _ s

/-- What an event hands up to a U send queue with room for all of it (R21, R22). -/
theorem closeEvent_up (s u : State) (a : Option Answer)
    (h : s.ports.uQueue.length + (answerTelegrams a).length + u.work.up.length ≤ 64) :
    (s.closeEvent u a).ports.uQueue =
        s.ports.uQueue ++ answerTelegrams a ++ telegramsUp s.ports.noticeSeq u.work.up ∧
      (s.closeEvent u a).ports.noticeSeq = sequenceAfter s.ports.noticeSeq u.work.up ∧
      (s.closeEvent u a).counter 10 = u.counter 10 := by
  have ha : (s.eventLeaves u).handAnswer a = (s.eventLeaves u).modPorts fun p =>
      { p with uQueue := p.uQueue ++ answerTelegrams a } :=
    handAnswer_room _ a (by show s.ports.uQueue.length + _ ≤ _; omega)
  have hup := forEach_handMsg_room u.work.up ((s.eventLeaves u).handAnswer a) (by
    rw [ha]
    show (s.ports.uQueue ++ answerTelegrams a).length + _ ≤ _
    rw [List.length_append]
    exact h)
  have hclose : SameUp _ (s.closeEvent u a) := forEach_handDown_sameUp u.work.down _
  rw [hup, ha] at hclose
  exact ⟨hclose.queue, hclose.seq, hclose.counter⟩

/-- What an event hands down to a D send queue with room for all of it. -/
theorem closeEvent_down (s u : State) (a : Option Answer) (h : s.ports.dQueue.length + u.work.down.length ≤ 64) :
    (s.closeEvent u a).ports.dQueue = s.ports.dQueue ++ u.work.down ∧
      (s.closeEvent u a).counter 11 = u.counter 11 := by
  let v := forEach u.work.up State.handMsg ((s.eventLeaves u).handAnswer a)
  have hm := forEach_handMsg_sameDown u.work.up ((s.eventLeaves u).handAnswer a)
  have ha := handAnswer_sameDown (s.eventLeaves u) a
  have hq : v.ports.dQueue = s.ports.dQueue := hm.queue.trans ha.queue
  have hc : v.counter 11 = u.counter 11 := hm.counter.trans ha.counter
  have hd : s.closeEvent u a = v.modPorts fun p => { p with dQueue := p.dQueue ++ u.work.down } :=
    forEach_handDown_room _ _ (by rw [hq]; exact h)
  rw [hd]
  exact ⟨congrArg (· ++ u.work.down) hq, hc⟩

/-- What an event leaves, but for its sends and the overflow counters. -/
theorem closeEvent_rest (s u : State) (a : Option Answer) :
    s.closeEvent u a = { u with
      link := { u.link with counters := (s.closeEvent u a).link.counters }
      ports := { s.ports with
        uQueue := (s.closeEvent u a).ports.uQueue, dQueue := (s.closeEvent u a).ports.dQueue
        noticeSeq := (s.closeEvent u a).ports.noticeSeq }
      outputs := outputsAfter s u
      resets := { u.resets with phase := .running }
      now := s.now, work := Work.empty, pending := s.pending } := by
  have hports : (s.closeEvent u a).ports = { s.ports with
      uQueue := (s.closeEvent u a).ports.uQueue, dQueue := (s.closeEvent u a).ports.dQueue
      noticeSeq := (s.closeEvent u a).ports.noticeSeq } := by
    let SameLines (t : State) : Prop := t.ports.uLine = s.ports.uLine ∧ t.ports.dLine = s.ports.dLine
    have hlines : SameLines (s.closeEvent u a) := by
      unfold State.closeEvent
      refine forEach_induct SameLines _ (fun x v h => ?_) _ _ (forEach_induct SameLines _ (fun m v h => ?_) _ _ ?_)
      · simp only [SameLines, handDown_ports]; exact h
      · cases m with
        | notice n => simp only [SameLines, State.handMsg, State.modPorts, handUp_ports]; exact h
        | holdoff n => simp only [SameLines, State.handMsg, handUp_ports]; exact h
      · cases a with
        | none => exact ⟨rfl, rfl⟩
        | some a => simp only [SameLines, State.handAnswer, handUp_ports]; exact ⟨rfl, rfl⟩
    obtain ⟨hu, hd⟩ := hlines
    dsimp only
    rw [← hu, ← hd]
  have hrest := (closeEvent_handed s u a).rest
  calc s.closeEvent u a
      = { s.eventLeaves u with
          ports := (s.closeEvent u a).ports
          link := { (s.eventLeaves u).link with counters := (s.closeEvent u a).link.counters } } := hrest
    _ = _ := by rw [hports]; rfl

/-- Settles O12: the hand-overs in order, by induction over what is sent up and down; then the bodies, by the NOTICE. -/
theorem eventHandsOverItsSends : Obligations.EventHandsOverItsSends := by
  unfold Obligations.EventHandsOverItsSends
  refine ⟨fun s u a h => ?_, fun a => rfl, fun tag kind fields r => ⟨rfl, rfl⟩, ⟨rfl, rfl, rfl⟩, fun s n ms => ⟨rfl, rfl⟩,
    fun n => ?_, fun seq body => rfl, closeEvent_down, closeEvent_answers, fun s u a => ⟨fun i hi => ?_, ?_⟩⟩
  · cases a with
    | none => exact closeEvent_up s u none h
    | some a => exact closeEvent_up s u (some a) h
  · cases n with
    | craneFault a c code job => cases code <;> cases job <;> rfl
    | recoveryQueued a b origin => cases origin <;> rfl
    | zoneState z st c fault => cases c <;> rfl
    | _ => rfl
  · exact closeEvent_counter s u a i (by omega) (by omega)
  · exact closeEvent_rest s u a

end Sys2Proof.Machine
end

section
/-! PROOF (O16). What a telegram that the part takes carries (R1, R5, R15, R16, R23). -/

namespace Sys2Proof.Machine

/-! ## Fields of a body -/

/-- A value of a field is its own word. -/
theorem word_toNat {w : Nat} (x : BitVec w) : word w x.toNat = x := (BitVec.ofNat_toNat ..).trans (BitVec.setWidth_eq _)

theorem Fields.fit_nil : Fields.fit [] := nofun

theorem Fields.fit_cons (f : Nat × Nat) (fs : Fields) : Fields.fit (f :: fs) ↔ f.2 < 256 ^ f.1 ∧ Fields.fit fs :=
  List.forall_mem_cons

/-- The fields of a body that carries nothing else. -/
theorem splitFields_own {fs : Fields} (h : fs.fit) : splitFields (fs.map (·.1)) fs.bytes = fs.map (·.2) := by
  simpa using splitFields_bytes fs [] h

theorem Fields.bytes_flatMap {α : Type} (xs : List α) (g : α → Fields) :
    Fields.bytes (xs.flatMap g) = (xs.map fun x => (g x).bytes).flatten := by
  rw [Fields.bytes, List.flatMap_assoc, List.flatMap_def]
  rfl

/-! ## Requests -/

/-- What a request of this kind carries in this body (R1, R5). -/
def formUp (kind : Nat) (tag : BitVec 16) (b : List Byte) : TakenUp :=
  match kind with
  | 1 => orderForm tag b
  | 2 => cancelForm tag b
  | 3 => renewForm tag b
  | 4 => shiftForm tag b
  | 5 => writeForm tag b
  | 6 => readForm tag b
  | 7 => commandForm tag b
  | _ => .badForm

theorem takenUp_eq (m : Telegram) : takenUp m = formUp m.kind (word 16 m.tag) m.body := rfl

theorem formUp_other {kind : Nat} (tag : BitVec 16) (b : List Byte) (h : kind = 0 ∨ 7 < kind) :
    formUp kind tag b = .badForm := by
  unfold formUp
  split
  case h_8 => rfl
  all_goals omega

/-- A body of one number. -/
theorem ofBe_bytes {w n : Nat} (h : n < 256 ^ w) : ofBe (Fields.bytes [(w, n)]) = n := by
  simpa using ofBe_be w n h

/-- What the form of a kind makes of a body is what the telegrams of that kind give. -/
theorem givesUp_of_form {kind : Nat} {tag : BitVec 16} {body : List Byte} {x : TakenUp} (h : formUp kind tag body = x) :
    GivesUp kind tag.toNat body x := by
  intro m hk ht hb
  rw [takenUp_eq, hk, ht, hb, word_toNat, h]

/-- An item of an ORDER, as its body carries it. -/
def orderItemFields (x : OrderItem) : Fields := [(6, x.item.toNat), (2, x.bin.toNat), (1, x.category.toNat)]

theorem itemOf_fields (x : OrderItem) : itemOf (orderItemFields x).bytes = x := by
  have fit : (orderItemFields x).fit := by
    simp only [orderItemFields, Fields.fit_cons, Fields.fit_nil, and_true]
    bv_omega
  have fields : splitFields [6, 2, 1] (orderItemFields x).bytes = [x.item.toNat, x.bin.toNat, x.category.toNat] := splitFields_own fit
  unfold itemOf
  rw [fields]
  simp

/-- Bodies of one length together. -/
theorem flatten_length {w : Nat} {es : List (List Byte)} (h : ∀ e ∈ es, e.length = w) : es.flatten.length = w * es.length := by
  rw [List.length_flatten, List.map_congr_left h]
  simp [Nat.mul_comm]

theorem orderForm_carried (tag n : BitVec 16) (st : BitVec 8) (p : BitVec 32) {items : List OrderItem}
    (h1 : 1 ≤ items.length) (h8 : items.length ≤ 8) :
    orderForm tag (Fields.bytes ([(2, n.toNat), (1, st.toNat), (4, p.toNat)] ++ items.flatMap orderItemFields)) =
      .request (.order tag n st p items) := by
  have fit : Fields.fit [(2, n.toNat), (1, st.toNat), (4, p.toNat)] := by
    simp only [Fields.fit_cons, Fields.fit_nil, and_true]
    bv_omega
  have fields (rest : List Byte) : splitFields [2, 1, 4] (Fields.bytes [(2, n.toNat), (1, st.toNat), (4, p.toNat)] ++ rest) =
      [n.toNat, st.toNat, p.toNat] := splitFields_bytes _ rest fit
  have each : ∀ e ∈ items.map fun x => (orderItemFields x).bytes, e.length = 9 := by
    intro e he
    obtain ⟨x, -, rfl⟩ := List.mem_map.1 he
    exact (orderItemFields x).bytes_length
  have entries : (splitEntries 9 items.length (items.map fun x => (orderItemFields x).bytes).flatten).map itemOf = items := by
    have cut := splitEntries_flatten 9 (items.map fun x => (orderItemFields x).bytes) each
    rw [List.length_map] at cut
    rw [cut, List.map_map]
    exact (List.map_congr_left fun x _ => itemOf_fields x).trans (List.map_id _)
  have length : (items.map fun x => (orderItemFields x).bytes).flatten.length = 9 * items.length := by
    rw [flatten_length each, List.length_map]
  have head : (Fields.bytes [(2, n.toNat), (1, st.toNat), (4, p.toNat)]).length = 7 := Fields.bytes_length _
  rw [Fields.bytes_append, Fields.bytes_flatMap]
  unfold orderForm
  rw [fields, List.length_append, head, length, List.drop_left' head]
  dsimp only
  rw [Nat.add_sub_cancel_left, Nat.mul_div_cancel_left _ (by decide), if_pos ⟨rfl, h1, h8⟩, entries]
  simp

theorem cancelForm_carried (tag n : BitVec 16) : cancelForm tag (Fields.bytes [(2, n.toNat)]) = .request (.cancel tag n) := by
  have own : ofBe (Fields.bytes [(2, n.toNat)]) = n.toNat := ofBe_bytes (by bv_omega)
  unfold cancelForm
  rw [own, word_toNat]
  exact if_pos (Fields.bytes_length _)

theorem renewForm_carried (tag : BitVec 16) (t : BitVec 48) :
    renewForm tag (Fields.bytes [(6, t.toNat)]) = .request (.renew tag t) := by
  have own : ofBe (Fields.bytes [(6, t.toNat)]) = t.toNat := ofBe_bytes (by bv_omega)
  unfold renewForm
  rw [own, word_toNat]
  exact if_pos (Fields.bytes_length _)

theorem shiftForm_carried (tag b : BitVec 16) (t : RawSlot) :
    shiftForm tag (Fields.bytes [(2, b.toNat), (1, t.aisle.toNat), (1, t.face.toNat), (1, t.level.toNat),
      (1, t.column.toNat)]) = .request (.shift tag b t) := by
  have fit : Fields.fit [(2, b.toNat), (1, t.aisle.toNat), (1, t.face.toNat), (1, t.level.toNat), (1, t.column.toNat)] := by
    simp only [Fields.fit_cons, Fields.fit_nil, and_true]
    bv_omega
  have fields : splitFields [2, 1, 1, 1, 1] _ = [b.toNat, t.aisle.toNat, t.face.toNat, t.level.toNat, t.column.toNat] :=
    splitFields_own fit
  unfold shiftForm
  rw [fields]
  dsimp only
  refine (if_pos (Fields.bytes_length _)).trans ?_
  simp [slotAt]

theorem readForm_carried (tag first : BitVec 16) (t count : BitVec 8) :
    readForm tag (Fields.bytes [(1, t.toNat), (2, first.toNat), (1, count.toNat)]) =
      .request (if t = 18 then .resetRead tag first count else .read tag t first count) := by
  have fit : Fields.fit [(1, t.toNat), (2, first.toNat), (1, count.toNat)] := by
    simp only [Fields.fit_cons, Fields.fit_nil, and_true]
    bv_omega
  have fields : splitFields [1, 2, 1] _ = [t.toNat, first.toNat, count.toNat] := splitFields_own fit
  have table : t.toNat = 18 ↔ t = 18 := (BitVec.toNat_inj (y := 18#8))
  unfold readForm
  rw [fields]
  dsimp only
  refine (if_pos (Fields.bytes_length _)).trans ?_
  simp only [List.getD_cons_zero, List.getD_cons_succ, word_toNat, table, apply_ite TakenUp.request]

/-! ## WRITE -/

/-- The entry lengths, in the order of the tables (R15; log entry 7). -/
theorem entryLength_eq {table : Nat} (h : 1 ≤ table) : entryLength table =
    [5, 1, 4, 4, 33, 16, 50, 46, 55, 47, 20, 4, 12, 30, 8, 1, 12, 4][table - 1]? := by
  by_cases h18 : table ≤ 18
  · interval_cases table <;> rfl
  · obtain ⟨n, rfl⟩ := Nat.exists_eq_add_of_le' (show 19 ≤ table by omega)
    rfl

theorem entryLength_none {table : Nat} (h : table = 0 ∨ 18 < table) : entryLength table = none := by
  obtain rfl | h := h
  · rfl
  · obtain ⟨n, rfl⟩ := Nat.exists_eq_add_of_le' (show 19 ≤ table from h)
    rfl

/-- A WRITE whose body begins with a table and a first index. -/
theorem writeForm_fixed (tag first : BitVec 16) {table : Nat} (ht : table < 256) (rest : List Byte) :
    writeForm tag (Fields.bytes [(1, table), (2, first.toNat)] ++ rest) =
      match entryLength table with
      | none => .writeRefused .unknownTable
      | some w =>
        if 3 + rest.length = 3 + w * (rest.length / w) ∧ 1 ≤ rest.length / w then
          writeOf tag table first (splitEntries w (rest.length / w) rest)
        else .badForm := by
  have fit : Fields.fit [(1, table), (2, first.toNat)] := by
    simp only [Fields.fit_cons, Fields.fit_nil, and_true]
    bv_omega
  have fields : splitFields [1, 2] (Fields.bytes [(1, table), (2, first.toNat)] ++ rest) = [table, first.toNat] :=
    splitFields_bytes _ rest fit
  have head : (Fields.bytes [(1, table), (2, first.toNat)]).length = 3 := Fields.bytes_length _
  unfold writeForm
  rw [fields, List.length_append, head, List.drop_left' head]
  dsimp only
  rw [if_neg (by omega), Nat.add_sub_cancel_left]
  simp only [List.getD_cons_zero, List.getD_cons_succ, word_toNat] <;> rfl

/-- The entries of a WRITE's table, read field by field, are those that its body was made of. -/
theorem entriesGive {α : Type} {table before after w : Nat} {ws : List Nat} {carried : α → Fields}
    {make : List α → Instr} {of : List Byte → α} {tag first : BitVec 16} (hw : entryLength table = some w)
    (ht : table < 256) (hpos : 0 < w) (hsum : before + ws.sum + after = w) (hws : ∀ a, (carried a).map (·.1) = ws)
    (hread : ∀ bs a, bs.length = w → splitFields ws (bs.drop before) = (carried a).map (·.2) → of bs = a)
    (hmake : ∀ es, writeOf tag table first es = .request (make (es.map of))) :
    EntriesGive tag first table before after carried make := by
  intro es hne hes
  let whole (e : List Byte × α × List Byte) : List Byte := e.1 ++ (carried e.2.1).bytes ++ e.2.2
  have length (e) (he : e ∈ es) : (whole e).length = w := by
    obtain ⟨hb, -, ha⟩ := hes e he
    rw [List.length_append, List.length_append, Fields.bytes_length, hws, hb, ha, hsum]
  have read (e) (he : e ∈ es) : of (whole e) = e.2.1 := by
    obtain ⟨hb, hfit, -⟩ := hes e he
    refine hread _ _ (length e he) ?_
    rw [show whole e = e.1 ++ ((carried e.2.1).bytes ++ e.2.2) from List.append_assoc .., List.drop_left' hb, ← hws]
    exact splitFields_bytes _ _ hfit
  have lengths : ∀ b ∈ es.map whole, b.length = w := by
    intro b hb
    obtain ⟨e, he, rfl⟩ := List.mem_map.1 hb
    exact length e he
  have total : (es.map whole).flatten.length = w * es.length := by
    rw [flatten_length lengths, List.length_map]
  have cut : splitEntries w es.length (es.map whole).flatten = es.map whole := by
    simpa using splitEntries_flatten w (es.map whole) lengths
  refine givesUp_of_form ?_
  show writeForm tag (Fields.bytes [(1, table), (2, first.toNat)] ++ es.flatMap whole) = _
  rw [writeForm_fixed tag first ht, hw, List.flatMap_def, total]
  dsimp only
  rw [Nat.mul_div_cancel_left _ hpos, cut, if_pos ⟨rfl, List.length_pos_iff.2 hne⟩, hmake, List.map_map]
  exact congrArg (fun xs => TakenUp.request (make xs)) (List.map_congr_left read)

/-- A table whose entries are one number. -/
theorem valuesGive {table w : Nat} {make : List Nat → Instr} {tag first : BitVec 16} (hw : entryLength table = some w)
    (ht : table < 256) (hpos : 0 < w) (hmake : ∀ es, writeOf tag table first es = .request (make (es.map ofBe))) :
    EntriesGive tag first table 0 0 (fun v => [(w, v)]) make := by
  refine entriesGive (ws := [w]) hw ht hpos (by simp) (fun _ => rfl) (fun bs a length read => ?_) hmake
  have value : [ofBe (bs.take w)] = [a] := read
  rw [← length, List.take_length] at value
  exact List.singleton_inj.1 value

/-- The tables that a WRITE may name, each with the command that its entries make (R15, R16). -/
theorem writesGive (tag first : BitVec 16) :
    EntriesGive tag first 1 0 0
      (fun e : AddressEntry => [(1, e.role), (1, e.unitPresence), (1, e.unit), (1, e.zonePresence), (1, e.zone)])
      (.addressWrite tag first) ∧
    EntriesGive tag first 2 0 0 (fun v => [(1, v)]) (.trafficWrite tag first) ∧
    EntriesGive tag first 3 0 0 (fun v => [(4, v)]) (.countersWrite tag first) ∧
    EntriesGive tag first 4 0 0 (fun v => [(4, v)]) (.paramsWrite tag first) ∧
    EntriesGive tag first 5 0 0
      (fun e : AisleEntry => [(1, e.levels), (1, e.columns), (2, e.frontOffset), (2, e.columnPitch), (2, e.levelPitch),
        (1, e.leftMirrored), (1, e.rightMirrored), (1, e.frontLevel), (1, e.infeedLevel), (1, e.frontSize),
        (1, e.infeedSize), (1, e.parkColumn), (1, e.parkLevel), (2, e.travelVmax), (2, e.travelAccel), (2, e.hoistVmax),
        (2, e.hoistAccel), (2, e.handling), (1, e.lowerZone), (1, e.upperZone), (1, e.split), (1, e.mode),
        (1, e.patronWeight), (1, e.restoreWeight), (1, e.houseWeight)]) (.aisleWrite tag first) ∧
    EntriesGive tag first 6 0 10
      (fun e : BinEntry => [(1, e.presence), (1, e.aisle), (1, e.face), (1, e.level), (1, e.column), (1, e.state)])
      (.binWrite tag first) ∧
    EntriesGive tag first 8 0 40
      (fun e : StationEntry => [(1, e.kind), (1, e.zone), (1, e.laneSize), (3, e.slack)]) (.stationWrite tag first) ∧
    EntriesGive tag first 10 0 37
      (fun e : LiftEntry => [(1, e.zone), (3, e.mask), (1, e.carriers), (3, e.carryLimit), (2, e.answerLimit)])
      (.liftWrite tag first) ∧
    EntriesGive tag first 11 0 0
      (fun e : ItemEntry => [(1, e.presence), (6, e.item), (2, e.bin), (1, e.category), (1, e.state), (2, e.order),
        (2, e.lendDay), (2, e.dueDay), (1, e.renewals), (2, e.scanDay)]) (.itemWrite tag first) ∧
    EntriesGive tag first 12 0 0 (fun e : ClassEntry => [(1, e.cls), (2, e.period), (1, e.renewLimit)])
      (.classWrite tag first) ∧
    EntriesGive tag first 14 8 10
      (fun e : ZoneEntry => [(2, e.debounce), (2, e.parkAllowance), (2, e.brakeSettle), (3, e.shutterLimit),
        (3, e.readyLimit)]) (.zoneWrite tag first) ∧
    EntriesGive tag first 15 0 5 (fun e : LineEntry => [(1, e.selection), (1, e.polarity), (1, e.output)])
      (.lineWrite tag first) ∧
    EntriesGive tag first 16 0 0 (fun v => [(1, v)]) (.pullWrite tag first) := by
  have values {table w : Nat} {make : List Nat → Instr} (hw : entryLength table = some w) (ht : table < 256)
      (hpos : 0 < w) (hmake : ∀ es, writeOf tag table first es = .request (make (es.map ofBe))) :=
    valuesGive hw ht hpos hmake
  refine ⟨?address, values rfl (by decide) (by decide) fun _ => rfl, values rfl (by decide) (by decide) fun _ => rfl,
    values rfl (by decide) (by decide) fun _ => rfl, ?aisle, ?bin, ?station, ?lift, ?item, ?cls, ?zone, ?line,
    values rfl (by decide) (by decide) fun _ => rfl⟩
  case address =>
    refine entriesGive (ws := [1, 1, 1, 1, 1]) rfl (by decide) (by decide) rfl (fun _ => rfl) ?_ fun _ => rfl
    intro bs a _ (read : splitFields _ bs = _)
    rw [addressEntryOf, read]
    rfl
  case aisle =>
    refine entriesGive (ws := [1, 1, 2, 2, 2, 1, 1, 1, 1, 1, 1, 1, 1, 2, 2, 2, 2, 2, 1, 1, 1, 1, 1, 1, 1]) rfl
      (by decide) (by decide) rfl (fun _ => rfl) ?_ fun _ => rfl
    intro bs a _ (read : splitFields _ bs = _)
    rw [aisleEntryOf, read]
    rfl
  case bin =>
    refine entriesGive (ws := [1, 1, 1, 1, 1, 1]) rfl (by decide) (by decide) rfl (fun _ => rfl) ?_ fun _ => rfl
    intro bs a _ (read : splitFields _ bs = _)
    rw [binEntryOf, read]
    rfl
  case station =>
    refine entriesGive (ws := [1, 1, 1, 3]) rfl (by decide) (by decide) rfl (fun _ => rfl) ?_ fun _ => rfl
    intro bs a _ (read : splitFields _ bs = _)
    rw [stationEntryOf, read]
    rfl
  case lift =>
    refine entriesGive (ws := [1, 3, 1, 3, 2]) rfl (by decide) (by decide) rfl (fun _ => rfl) ?_ fun _ => rfl
    intro bs a _ (read : splitFields _ bs = _)
    rw [liftEntryOf, read]
    rfl
  case item =>
    refine entriesGive (ws := [1, 6, 2, 1, 1, 2, 2, 2, 1, 2]) rfl (by decide) (by decide) rfl (fun _ => rfl) ?_
      fun _ => rfl
    intro bs a _ (read : splitFields _ bs = _)
    rw [itemEntryOf, read]
    rfl
  case cls =>
    refine entriesGive (ws := [1, 2, 1]) rfl (by decide) (by decide) rfl (fun _ => rfl) ?_ fun _ => rfl
    intro bs a _ (read : splitFields _ bs = _)
    rw [classEntryOf, read]
    rfl
  case zone =>
    refine entriesGive (ws := [2, 2, 2, 3, 3]) rfl (by decide) (by decide) rfl (fun _ => rfl) ?_ fun _ => rfl
    intro bs a _ read
    rw [zoneEntryOf, read]
    rfl
  case line =>
    refine entriesGive (ws := [1, 1, 1]) rfl (by decide) (by decide) rfl (fun _ => rfl) ?_ fun _ => rfl
    intro bs a _ (read : splitFields _ bs = _)
    rw [lineEntryOf, read]
    rfl

/-! ## Bad form -/

/-- A WRITE whose body is long enough to begin with a table and a first index. -/
theorem writeForm_cons {tag : BitVec 16} {table : Byte} {rest : List Byte} (hl : 3 ≤ rest.length + 1) :
    writeForm tag (table :: rest) =
      match entryLength table.toNat with
      | none => .writeRefused .unknownTable
      | some w =>
        if rest.length + 1 = 3 + w * ((rest.length + 1 - 3) / w) ∧ 1 ≤ (rest.length + 1 - 3) / w then
          writeOf tag table.toNat (word 16 (ofBe (rest.take 2)))
            (splitEntries w ((rest.length + 1 - 3) / w) ((table :: rest).drop 3))
        else .badForm := by
  have byte : ofBe [table] = table.toNat := by simp [ofBe]
  have fields : splitFields [1, 2] (table :: rest) = [table.toNat, ofBe (rest.take 2)] := congrArg (· :: _) byte
  unfold writeForm
  rw [fields]
  exact if_neg (Nat.not_lt.2 hl)

section
variable {tag : BitVec 16} {table : Byte} {rest : List Byte} {w : Nat}

theorem writeForm_unknown (hl : 3 ≤ rest.length + 1) (ht : table.toNat = 0 ∨ 18 < table.toNat) :
    writeForm tag (table :: rest) = .writeRefused .unknownTable := by
  rw [writeForm_cons hl, entryLength_none ht]

/-- A body that is no whole number of a table's entries has bad form (R5). -/
theorem writeForm_badForm (hl : 3 ≤ rest.length + 1) (hw : entryLength table.toNat = some w)
    (h : ∀ k, 1 ≤ k → rest.length + 1 ≠ 3 + w * k) : writeForm tag (table :: rest) = .badForm := by
  rw [writeForm_cons hl, hw]
  exact if_neg fun ⟨whole, one⟩ => h _ one whole

/-- A whole number of entries of a table that is read only is refused (R16). -/
theorem writeForm_readOnly (hw : entryLength table.toNat = some w) (ht : table.toNat ∈ [7, 9, 13, 17, 18]) {k : Nat}
    (hk : 1 ≤ k) (h : rest.length + 1 = 3 + w * k) : writeForm tag (table :: rest) = .writeRefused .unknownTable := by
  have hpos : 0 < w ∧ ∀ first es, writeOf tag table.toNat first es = .writeRefused .unknownTable := by
    simp only [List.mem_cons, List.not_mem_nil, or_false] at ht
    obtain ht | ht | ht | ht | ht := ht <;> rw [ht] at hw ⊢ <;> cases hw <;> exact ⟨by decide, fun _ _ => rfl⟩
  obtain ⟨hpos, refused⟩ := hpos
  rw [writeForm_cons (by omega), hw, h, Nat.add_sub_cancel_left]
  dsimp only
  rw [Nat.mul_div_cancel_left _ hpos]
  exact (if_pos ⟨rfl, hk⟩).trans (refused _ _)

end

/-! ## Field reports -/

/-- The report that a kind makes of a body (R1, R5). -/
def formDown (kind : Nat) (tag : BitVec 16) (b : List Byte) : Option Report :=
  takenDown { dest := 0, src := 0, kind, tag := tag.toNat, body := b }

theorem takenDown_eq (m : Telegram) : takenDown m = formDown m.kind (word 16 m.tag) m.body := by
  unfold formDown takenDown
  dsimp only
  rw [word_toNat]

/-- A point as a report carries it. -/
def pointFields (p : RawPoint) : Fields := [(1, p.kind.toNat), (1, p.face.toNat), (1, p.level.toNat), (1, p.column.toNat)]

/-- The values of a point's fields. -/
def pointValues (p : RawPoint) : List Nat := [p.kind.toNat, p.face.toNat, p.level.toNat, p.column.toNat]

theorem pointFields_fit (p : RawPoint) : (pointFields p).fit := by
  simp only [pointFields, Fields.fit_cons, Fields.fit_nil, and_true]
  bv_omega

theorem Fields.fit.append {fs gs : Fields} (hf : fs.fit) (hg : gs.fit) : Fields.fit (fs ++ gs) :=
  List.forall_mem_append.2 ⟨hf, hg⟩

theorem Fields.fit_one {w n : Nat} (h : n < 256 ^ w) : Fields.fit [(w, n)] := List.forall_mem_singleton.2 h

theorem Fields.fit_two (x : BitVec 16) : Fields.fit [(2, x.toNat)] := Fields.fit_one x.isLt

section
variable (tag : BitVec 16)

theorem formDown_done (job load : BitVec 16) (p : RawPoint) :
    formDown 40 tag (Fields.bytes ([(2, job.toNat)] ++ pointFields p ++ [(2, load.toNat)])) =
      some (.crane fun a => .done a job p load) := by
  have fields : splitFields [2, 1, 1, 1, 1, 2] _ = [job.toNat] ++ pointValues p ++ [load.toNat] :=
    splitFields_own (((Fields.fit_two job).append (pointFields_fit p)).append (Fields.fit_two load))
  unfold formDown takenDown
  dsimp only
  rw [fields]
  refine (if_pos (Fields.bytes_length _)).trans ?_
  simp [pointAt, pointValues]

theorem formDown_fault (code present : BitVec 8) (job : BitVec 16) :
    formDown 41 tag (Fields.bytes [(1, code.toNat), (1, present.toNat), (2, job.toNat)]) =
      some (.crane fun a => .fault a code (if present = 0 then some job else none)) := by
  have fit : Fields.fit [(1, code.toNat), (1, present.toNat), (2, job.toNat)] := by
    simp only [Fields.fit_cons, Fields.fit_nil, and_true]
    bv_omega
  have fields : splitFields [1, 1, 2] _ = [code.toNat, present.toNat, job.toNat] := splitFields_own fit
  have named : present.toNat = 0 ↔ present = 0 := BitVec.toNat_inj (y := 0#8)
  unfold formDown takenDown
  dsimp only
  rw [fields]
  refine (if_pos (Fields.bytes_length _)).trans ?_
  simp [named]

theorem formDown_parked (load : BitVec 16) (p : RawPoint) :
    formDown 42 tag (Fields.bytes (pointFields p ++ [(2, load.toNat)])) = some (.crane fun a => .parked a p load) := by
  have fields : splitFields [1, 1, 1, 1, 2] _ = pointValues p ++ [load.toNat] :=
    splitFields_own ((pointFields_fit p).append (Fields.fit_two load))
  unfold formDown takenDown
  dsimp only
  rw [fields]
  refine (if_pos (Fields.bytes_length _)).trans ?_
  simp [pointAt, pointValues]

theorem formDown_status {word : Nat} (hw : word ≤ 1) (load : BitVec 16) (p : RawPoint) :
    formDown 43 tag (Fields.bytes ([(1, word)] ++ pointFields p ++ [(2, load.toNat)])) =
      some (.crane fun a => .status a (decide (word = 0)) p load) := by
  have fields : splitFields [1, 1, 1, 1, 1, 2] _ = [word] ++ pointValues p ++ [load.toNat] :=
    splitFields_own (((Fields.fit_one (by omega)).append (pointFields_fit p)).append (Fields.fit_two load))
  unfold formDown takenDown
  dsimp only
  rw [fields]
  refine (if_pos (Fields.bytes_length _)).trans ?_
  simp [pointAt, pointValues, hw]

theorem formDown_infeed (b : BitVec 16) :
    formDown 44 tag (Fields.bytes [(2, b.toNat)]) = some (.crane fun a => .infeed a b) := by
  unfold formDown takenDown
  dsimp only
  rw [ofBe_bytes (n := b.toNat) b.isLt, word_toNat]
  exact if_pos (Fields.bytes_length _)

theorem formDown_carried (t : BitVec 16) :
    formDown 46 tag (Fields.bytes [(2, t.toNat)]) = some (.lift fun l => .carried l t) := by
  unfold formDown takenDown
  dsimp only
  rw [ofBe_bytes (n := t.toNat) t.isLt, word_toNat]
  exact if_pos (Fields.bytes_length _)

theorem formDown_binDone (b : BitVec 16) :
    formDown 50 tag (Fields.bytes [(2, b.toNat)]) = some (.station fun st => .binDone st b) := by
  unfold formDown takenDown
  dsimp only
  rw [ofBe_bytes (n := b.toNat) b.isLt, word_toNat]
  exact if_pos (Fields.bytes_length _)

theorem formDown_item (t : BitVec 48) :
    formDown 48 tag (Fields.bytes [(6, t.toNat)]) = some (.station fun st => .itemOut st tag t) ∧
      formDown 49 tag (Fields.bytes [(6, t.toNat)]) = some (.station fun st => .intoBin st tag t) ∧
      formDown 51 tag (Fields.bytes [(6, t.toNat)]) = some (.station fun st => .itemIn st tag t) := by
  unfold formDown takenDown
  dsimp only
  rw [ofBe_bytes (n := t.toNat) t.isLt, word_toNat, word_toNat]
  exact ⟨if_pos (Fields.bytes_length _), if_pos (Fields.bytes_length _), if_pos (Fields.bytes_length _)⟩

/-- A STATUS of another word (log entry 8). -/
theorem formDown_status_other {word : Byte} {rest : List Byte} (hw : 1 < word.toNat) (hl : rest.length = 6) :
    formDown 43 tag (word :: rest) = some (.ignored 1) := by
  have byte : ofBe [word] = word.toNat := by simp [ofBe]
  have value : (splitFields [1, 1, 1, 1, 1, 2] (word :: rest)).getD 0 0 = word.toNat := byte
  unfold formDown takenDown
  dsimp only
  rw [value, if_neg (Nat.not_le.2 hw)]
  exact if_pos (congrArg (· + 1) hl)

/-- A FITNESS of another word (log entry 8). -/
theorem formDown_fitness_other {word : Byte} (hw : 1 < word.toNat) : formDown 45 tag [word] = some (.ignored 2) := by
  have byte : ofBe [word] = word.toNat := by simp [ofBe]
  unfold formDown takenDown
  dsimp only
  rw [byte, if_neg (Nat.not_le.2 hw)]
  rfl

end

theorem reportForm_eq_none {n : Nat} {b : List Byte} {r : Report} : reportForm n b r = none ↔ b.length ≠ n := by
  unfold reportForm
  split
  · next h => exact ⟨nofun, fun hn => absurd h hn⟩
  · next h => exact ⟨fun _ => h, fun _ => rfl⟩

/-- The reports, with the lengths of their bodies (R1). -/
def reportLengths : List (Nat × Nat) :=
  [(40, 8), (41, 4), (42, 6), (43, 7), (44, 2), (45, 1), (46, 2), (48, 6), (49, 6), (50, 2), (51, 6)]

/-- A report has bad form where its kind is none, or its body not of the length of its kind (R5). -/
theorem takenDown_eq_none (m : Telegram) :
    takenDown m = none ↔ ∀ n, (m.kind, n) ∈ reportLengths → m.body.length ≠ n := by
  unfold takenDown
  dsimp only
  split
  case h_12 =>
    refine ⟨fun _ n hn => False.elim ?_, fun _ => rfl⟩
    have kinds : m.kind ∈ reportLengths.map (·.1) := List.mem_map.2 ⟨_, hn, rfl⟩
    simp only [reportLengths, List.map_cons, List.map_nil, List.mem_cons, List.not_mem_nil, or_false] at kinds
    grind
  all_goals
    rename_i hk
    rw [reportForm_eq_none, hk]
    simp [reportLengths]

/-! ## Taking -/

section
variable {s : State} {m : Telegram} {f : List Byte}

/-- A counter that has risen, and nothing else, however the counters are listed. -/
theorem counted_raise_any (s : State) (i : Nat) : Counted s (s.raise i) i := by
  refine ⟨rfl, fun j hj => s.setCounter_counter_ne i j _ hj, ?_⟩
  have listed : countUp (s.counter i) ≠ 0 := by
    unfold countUp
    split
    · exact Nat.succ_ne_zero _
    · next h => exact fun h0 => h (h0 ▸ by decide)
  show Tab.get (Tab.set s.link.counters 0 i (countUp (s.counter i))) 0 i = _
  rw [Tab.set, if_neg listed, Tab.get, Tab.find_put, if_pos rfl]
  rfl

/-- The commands that a request's form makes are taken as themselves. -/
def TakesItsCommand (x : TakenUp) : Prop := ∀ c, x = .request c → ∀ s, runTaken c s = exec c s

theorem takesItsCommand {c : Instr} (h : ∀ s, runTaken c s = exec c s) : TakesItsCommand (.request c) := by
  rintro _ ⟨⟩
  exact h

theorem takesItsCommand_badForm : TakesItsCommand .badForm := nofun

theorem takesItsCommand_ite {p : Prop} [Decidable p] {x : TakenUp} (h : TakesItsCommand x) :
    TakesItsCommand (if p then x else .badForm) := by
  split
  · exact h
  · exact nofun

theorem takesItsCommand_unit {n arg : Nat} {make : Fin n → Instr} (h : ∀ i s, runTaken (make i) s = exec (make i) s) :
    TakesItsCommand (unitCommand n arg make) := by
  unfold unitCommand
  split
  · exact takesItsCommand (h _)
  · exact nofun

theorem takesItsCommand_command (tag : BitVec 16) (name arg : Nat) : TakesItsCommand (commandNamed tag name arg) := by
  unfold commandNamed
  split
  case h_12 => exact nofun
  case h_1 | h_2 | h_3 | h_11 => exact takesItsCommand fun _ => rfl
  all_goals exact takesItsCommand_unit fun _ _ => rfl

theorem takesItsCommand_write (tag first : BitVec 16) (table : Nat) (es : List (List Byte)) :
    TakesItsCommand (writeOf tag table first es) := by
  unfold writeOf
  split
  case h_14 => exact nofun
  all_goals exact takesItsCommand fun _ => rfl

theorem takesItsCommand_up (m : Telegram) : TakesItsCommand (takenUp m) := by
  unfold takenUp
  dsimp only
  split
  · exact takesItsCommand_ite (takesItsCommand fun _ => rfl)
  · exact takesItsCommand_ite (takesItsCommand fun _ => rfl)
  · exact takesItsCommand_ite (takesItsCommand fun _ => rfl)
  · exact takesItsCommand_ite (takesItsCommand fun _ => rfl)
  · unfold writeForm
    dsimp only
    split
    · exact nofun
    · split
      · exact nofun
      · exact takesItsCommand_ite (takesItsCommand_write _ _ _ _)
  · refine takesItsCommand_ite ?_
    split
    · exact takesItsCommand fun _ => rfl
    · exact takesItsCommand fun _ => rfl
  · exact takesItsCommand_ite (takesItsCommand_command _ _ _)
  · exact nofun

theorem takeUp_request {c : Instr} (h : takenUp m = .request c) (s : State) : s.takeUp m = exec c s := by
  unfold State.takeUp
  rw [h]
  exact takesItsCommand_up m c h s

theorem takeUp_badForm (hr : s.running) (h : takenUp m = .badForm) :
    s.takeUp m = .next (s.closeEvent (s.beginEvent.raise 2) (some m.badFormAnswer)) := by
  unfold State.takeUp
  rw [h]
  dsimp only
  rw [live_running _ hr, State.request]
  dsimp only
  rw [settle_idle _ rfl]

theorem badFormAnswer_eq (m : Telegram) : m.badFormAnswer =
    { tag := m.tag, kind := m.kind, outcome := .refused, reason := some .badForm
      fields := if m.kind = 5 then [0#8, 1#8] else [] } := by
  unfold Telegram.badFormAnswer
  by_cases hk : m.kind = 5
  · rw [if_pos (show m.kind = kindWrite from hk), if_pos hk, hk]
    rfl
  · rw [if_neg (show ¬ m.kind = kindWrite from hk), if_neg hk]
    rfl

theorem takeUp_refused (hr : s.running) {r : Reason} (h : takenUp m = .refused r) :
    s.takeUp m = .next (s.onlyAnswers (.refused m.tag m.kind r)) := by
  unfold State.takeUp
  rw [h]
  exact request_answers (a := fun _ => .refused m.tag m.kind r) hr rfl

theorem takeUp_writeRefused (hr : s.running) {r : Reason} (h : takenUp m = .writeRefused r) :
    s.takeUp m = .next (s.onlyAnswers (noneApplied (word 16 m.tag) r)) := by
  unfold State.takeUp
  rw [h]
  refine request_answers (a := fun _ => noneApplied (word 16 m.tag) r) hr ?_
  exact Prod.ext rfl (funext fun _ => answer_noneApplied _ _ _)

theorem Handed.running {s t : State} (h : Handed s t) (hr : s.running) : t.running := by
  unfold State.running
  rw [h.resets]
  exact hr

/-- Forwarding leaves the part running. -/
theorem forwardDown_running (hr : s.running) : (s.forwardDown m).running := by
  cases h : s.treatDown m.kind with
  | pass => rw [forwardDown_pass h]; exact (handDown_handed _ s).running hr
  | drop => rw [forwardDown_drop h]; exact hr
  | guard =>
    rw [forwardDown_guard h]
    split
    · exact (handDown_handed _ s).running hr
    · exact congrArg (·.phase) (closeEvent_resets s _ none)

/-- The commands that a report makes are taken as themselves. -/
def TakesItsReport : Option Report → Prop
  | some (.crane make) => ∀ a s, runTaken (make a) s = exec (make a) s
  | some (.lift make) => ∀ l s, runTaken (make l) s = exec (make l) s
  | some (.station make) => ∀ st s, runTaken (make st) s = exec (make st) s
  | some (.ignored _) => True
  | none => True

theorem takesItsReport_form {n : Nat} {b : List Byte} {r : Report} (h : TakesItsReport (some r)) :
    TakesItsReport (reportForm n b r) := by
  unfold reportForm
  split
  · exact h
  · trivial

theorem takesItsReport_down (m : Telegram) : TakesItsReport (takenDown m) := by
  unfold takenDown
  dsimp only
  split
  case h_12 => trivial
  case h_4 | h_6 =>
    refine takesItsReport_form ?_
    split
    · exact fun _ _ => rfl
    · trivial
  all_goals exact takesItsReport_form fun _ _ => rfl

theorem takeDown_crane {make : Fin 12 → Instr} (h : takenDown m = some (.crane make)) {a : Nat}
    (hs : s.addr m.src = .crane a) (ha : a < 12) : s.takeDown m = exec (make ⟨a, ha⟩) s := by
  have own : TakesItsReport (some (.crane make)) := h ▸ takesItsReport_down m
  rw [State.takeDown, h]
  dsimp only
  rw [hs, State.takeCrane, dif_pos ha]
  exact own _ s

theorem takeDown_lift {make : Fin 6 → Instr} (h : takenDown m = some (.lift make)) {l : Nat}
    (hs : s.addr m.src = .lift l) (hl : l < 6) : s.takeDown m = exec (make ⟨l, hl⟩) s := by
  have own : TakesItsReport (some (.lift make)) := h ▸ takesItsReport_down m
  rw [State.takeDown, h]
  dsimp only
  rw [hs, State.takeLift, dif_pos hl]
  exact own _ s

theorem takeDown_station {make : Fin 24 → Instr} (h : takenDown m = some (.station make)) {st : Nat}
    (hs : s.addr m.src = .station st) (hst : st < 24) : s.takeDown m = exec (make ⟨st, hst⟩) s := by
  have own : TakesItsReport (some (.station make)) := h ▸ takesItsReport_down m
  rw [State.takeDown, h]
  dsimp only
  rw [hs, State.takeStation, dif_pos hst]
  exact own _ s

theorem takeDown_ignored {role : Nat} (h : takenDown m = some (.ignored role)) (hs : (s.addr m.src).role = role) :
    s.takeDown m = .next s := by
  rw [State.takeDown, h]
  exact if_pos hs

end

/-- Settles O16: the requests by their kinds, the reports by theirs, and the arrival by its port and destination. -/
theorem arrivalRunsItsCommand : Obligations.ArrivalRunsItsCommand := by
  refine ⟨fun tag first => ⟨fun n st p items h1 h8 => ?_, fun n => ?_, fun t => ?_, fun b t => ?_, fun t count => ?_,
    writesGive tag first⟩, fun m => ⟨fun h => ?_, fun hk h => ?_, fun k w hkw hk h => ?_, fun hk h => ?_,
      fun table hk hl ht => ⟨fun hu => ?_, fun w hw h1 => ⟨fun h => ?_, fun hr k hk1 h => ?_⟩⟩⟩, fun m => ?_,
      fun s f m hr hf => ?_⟩
  · exact givesUp_of_form (orderForm_carried tag n st p h1 h8)
  · exact givesUp_of_form (cancelForm_carried tag n)
  · exact givesUp_of_form (renewForm_carried tag t)
  · exact givesUp_of_form (shiftForm_carried tag b t)
  · exact givesUp_of_form (readForm_carried tag first t count)
  · rw [takenUp_eq, formUp_other _ _ h]
  · rw [takenUp_eq, hk]
    exact if_neg fun ⟨whole, one, eight⟩ => h _ one eight whole
  · simp only [List.mem_cons, Prod.mk.injEq, List.not_mem_nil, or_false] at hkw
    obtain ⟨rfl, rfl⟩ | ⟨rfl, rfl⟩ | ⟨rfl, rfl⟩ | ⟨rfl, rfl⟩ | ⟨rfl, rfl⟩ := hkw <;> rw [takenUp_eq, hk] <;>
      exact if_neg h
  · rw [takenUp_eq, hk]
    exact if_pos h
  · obtain ⟨rest, hb⟩ := List.head?_eq_some_iff.1 ht
    rw [hb] at hl
    rw [takenUp_eq, hk, hb]
    exact writeForm_unknown hl hu
  · obtain ⟨rest, hb⟩ := List.head?_eq_some_iff.1 ht
    rw [hb] at hl h
    rw [takenUp_eq, hk, hb]
    exact writeForm_badForm hl ((entryLength_eq h1).trans hw) h
  · obtain ⟨rest, hb⟩ := List.head?_eq_some_iff.1 ht
    rw [hb] at hl h
    rw [takenUp_eq, hk, hb]
    exact writeForm_readOnly ((entryLength_eq h1).trans hw) hr hk1 h
  · intro gives tag point
    have gives_of {kind : Nat} {fs : Fields} {r : Report} (h : formDown kind tag fs.bytes = some r) : gives kind fs r :=
      fun hk hb => by rw [takenDown_eq, hk, hb, h]
    refine ⟨fun job load p => gives_of (formDown_done tag job load p), fun code present job =>
      gives_of (formDown_fault tag code present job), fun load p => ⟨gives_of (formDown_parked tag load p),
        gives_of (formDown_status tag (Nat.zero_le _) load p), gives_of (formDown_status tag (Nat.le_refl _) load p)⟩,
      fun b => gives_of (formDown_infeed tag b), gives_of rfl, gives_of rfl, fun t => gives_of (formDown_carried tag t),
      fun t => ?_, fun b => gives_of (formDown_binDone tag b), fun word rest hw hb => ⟨fun hk hl => ?_, fun hk hl => ?_⟩,
      (takenDown_eq_none m).symm⟩
    · obtain ⟨out, into, back⟩ := formDown_item tag t
      exact ⟨gives_of out, gives_of into, gives_of back⟩
    · rw [takenDown_eq, hk, hb]
      exact formDown_status_other _ hw hl
    · rw [takenDown_eq, hk, hb, hl]
      exact formDown_fitness_other _ hw
  · intro taken
    have takes (v : State) (hv : v.running) (h : exec (.frameArrival .u f) s = v.takeUp m) : taken v := by
      refine ⟨fun c hc => h.trans (takeUp_request hc v), fun hb => ⟨_, counted_raise_any _ 2, ?_⟩,
        fun r hr => h.trans (takeUp_refused hv hr), fun r hr => h.trans (takeUp_writeRefused hv hr)⟩
      rw [h, takeUp_badForm hv hb, badFormAnswer_eq]
    have down (hm : m.dest = 126) : exec (.frameArrival .d f) s = s.takeDown m := by
      rw [frameArrival_eq hr, arrive_down hf, routeDown_own hm]
    refine ⟨fun hm h1 h7 => takes _ (forwardDown_running hr) ?_, fun hm => takes s hr ?_, fun hm =>
      ⟨fun role hi hu => (down hm).trans (takeDown_ignored hi ?_), fun make a hi hs ha => (down hm).trans
        (takeDown_crane hi hs ha), fun make l hi hs hl => (down hm).trans (takeDown_lift hi hs hl), fun make st hi hs hst =>
          (down hm).trans (takeDown_station hi hs hst)⟩⟩
    · have own : requestKind m.kind = true := by simp [requestKind, h1, h7]
      rw [frameArrival_eq hr, arrive_up hf, State.routeUp, if_neg (by omega), if_neg (by rw [hm]; decide)]
      exact if_pos ⟨hm, own⟩
    · rw [frameArrival_eq hr, arrive_up hf, State.routeUp, if_neg (by omega)]
      exact if_pos hm
    · obtain ⟨a, rfl, hs⟩ | ⟨l, rfl, hs⟩ := hu
      · rw [hs]; rfl
      · rw [hs]; rfl

end Sys2Proof.Machine
end

section
/-! PROOF (O39, O43). Mode Control's thresholds, its drain test, park wait and ready test (R186 to R190); the gather test
and its timer, and the hold-off (R93, R104). -/

namespace Sys2Proof.Machine

/-! ## Telegrams to units -/

/-- A telegram to a unit is sent where the unit has an address (R8). -/
theorem State.sendUnit_eq (s : State) (address : Option Nat) (kind : Nat) (body : List Byte) (cls : QueueClass) :
    s.sendUnit address kind body cls = s.modWork fun w => { w with down := w.down ++ toUnit address kind body cls } := by
  cases address with
  | some a => rfl
  | none => exact congrArg (fun d => s.modWork fun w => { w with down := d }) (List.append_nil _).symm

/-! ## Park requests -/

/-- From `s` to `t` only cranes and the workspace have changed. -/
def CranesAlone (s t : State) : Prop :=
  t = { s with dispatch := { s.dispatch with cranes := t.dispatch.cranes }, work := t.work }

theorem CranesAlone.refl (s : State) : CranesAlone s s := rfl

theorem CranesAlone.trans {s t u : State} (h : CranesAlone s t) (k : CranesAlone t u) : CranesAlone s u :=
  Eq.trans k (congrArg
    (fun v : State => { v with dispatch := { v.dispatch with cranes := u.dispatch.cranes }, work := u.work }) h)

section
variable {s : State} {a : Nat}

theorem setCraneState_cranesAlone (s : State) (a : Nat) (st : CraneState) : CranesAlone s (s.setCraneState a st) := by
  unfold State.setCraneState
  split
  · exact .refl s
  · rfl

theorem sendPark_cranesAlone (s : State) (a : Nat) : CranesAlone s (s.sendPark a) := by
  unfold State.sendPark
  rw [State.sendUnit_eq]
  rfl

/-- A crane that is not configured, has no address, or is neither READY nor BUSY is not parked (R74). -/
theorem parkCrane_idle (h : (s.aisle a).configured = false ∨ s.craneAddress a = none ∨
    ((s.crane a).state ≠ .ready ∧ (s.crane a).state ≠ .busy)) : State.parkCrane a s = s := by
  unfold State.parkCrane
  split
  · next hc =>
    obtain ⟨configured, address⟩ := Bool.and_eq_true_iff.1 hc
    obtain h | h | ⟨hr, hb⟩ := h
    · rw [configured] at h; cases h
    · rw [h] at address; cases address
    · split
      · next h => exact absurd h hr
      · next h => exact absurd h hb
      · rfl
  · rfl

/-- Crane `a` has become PARKING and PARK is sent to it (R74). -/
def State.parking (s : State) (a : Nat) : State :=
  (s.modCrane a fun c => { c with state := .parking }).modWork fun w =>
    { w with control := true, down := w.down ++ toUnit (s.craneAddress a) 25 Point.park.bytes .kept }

/-- A READY or BUSY crane is parked (R74). -/
theorem parkCrane_eq (hc : (s.aisle a).configured = true) (ha : s.craneAddress a ≠ none)
    (h : (s.crane a).state = .ready ∨ (s.crane a).state = .busy) :
    State.parkCrane a s = s.parking a := by
  have parks : (s.setCraneState a .parking).sendPark a = s.parking a := by
    unfold State.setCraneState State.sendPark
    rw [if_neg (by obtain h | h := h <;> rw [h] <;> decide), State.sendUnit_eq]
    rfl
  unfold State.parkCrane
  rw [if_pos (by rw [hc, Option.isSome_iff_ne_none.2 ha]; rfl)]
  obtain h | h := h
  · rw [h]; exact parks
  · rw [h]; exact parks

theorem parkCrane_cranesAlone (s : State) (a : Nat) : CranesAlone s (State.parkCrane a s) := by
  unfold State.parkCrane
  split
  · split
    · exact (setCraneState_cranesAlone _ _ _).trans (sendPark_cranesAlone _ _)
    · exact (setCraneState_cranesAlone _ _ _).trans (sendPark_cranesAlone _ _)
    · exact .refl s
  · exact .refl s

theorem parkRequest_cranesAlone (s : State) (xs : List Nat) : CranesAlone s (s.parkRequest xs) :=
  forEach_induct (CranesAlone s) _ (fun a u h => h.trans (parkCrane_cranesAlone u a)) _ _ (.refl s)

end

/-! ## Drain, park wait and wake -/

theorem State.drained_iff (s : State) :
    s.drained = true ↔ (∀ p ∈ s.desk.orders, p.2.state = .waiting) ∧ s.jobs = [] ∧ s.carries = [] := by
  simp [State.drained, and_assoc]

theorem CraneState.unparked_iff (x : CraneState) : x.unparked = true ↔ x ∈ [CraneState.ready, .busy, .parking] := by
  cases x <;> decide

theorem State.counted_iff (s : State) (a : Nat) : s.counted a = true ↔
    (s.aisle a).configured = true ∧ s.craneAddress a ≠ none ∧ s.driveLevel a = true ∧ (s.crane a).state ≠ .faulted := by
  simp [State.counted, Option.isSome_iff_ne_none, and_assoc]

theorem State.stillAwaited_iff (s : State) (xs : List Nat) :
    s.stillAwaited xs = true ↔ ∃ a ∈ xs, (s.crane a).state ∈ [CraneState.ready, .busy, .parking] := by
  simp only [State.stillAwaited, List.any_eq_true, CraneState.unparked_iff]

/-- The cranes that the park wait parks, having been parked (R187). -/
theorem parkWaitTest_eq {s : State} (h : s.mode.mode = .draining ∧ s.mode.phase = some .parkWait) :
    let waited := forEach
      ((List.range 12).filter fun a => decide ((s.crane a).state = .ready ∨ (s.crane a).state = .busy)) State.parkCrane s
    s.parkWaitTest =
      if waited.stillAwaited s.mode.awaited then waited else waited.changeMode .quiet .drained := by
  intro waited
  have parks : s.parkRequest (allAisles.filter fun a =>
      decide ((s.crane a).state = .ready) || decide ((s.crane a).state = .busy)) = waited :=
    congrArg (forEach · State.parkCrane s) (List.filter_congr fun a _ => by simp)
  have mode : waited.mode = s.mode := congrArg (·.mode) (parkRequest_cranesAlone s _)
  unfold State.parkWaitTest
  rw [if_pos h, parks]
  dsimp only
  rw [mode]

/-- Settles O39: each test by its condition. -/
theorem thresholdsWakeTheQuietPart : Obligations.ThresholdsWakeTheQuietPart := by
  refine ⟨fun s => ⟨fun h => ?_, fun h => ?_⟩, State.counted_iff, fun s a ht => ⟨parkCrane_idle, fun hc ha h => ?_⟩,
    fun s => ?_⟩
  · have idle (u : State) (hu : u.mode.mode = s.mode.mode) : u.thresholdTest = u := if_neg (hu ▸ h)
    exact ⟨idle _ rfl, idle _ rfl, idle _ rfl⟩
  · have wakes (u : State) (hu : u.mode.mode = s.mode.mode) : u.thresholdTest = _ := if_pos (hu.trans h)
    exact ⟨wakes _ rfl, wakes _ rfl, wakes _ rfl⟩
  · refine ⟨_, fun k => ?_, ?_, parkCrane_eq hc ha h⟩
    · exact s.modCrane_crane a k (fun c => { c with state := .parking }) ht.cranes.1
    · rfl
  · intro moving drained draining configured parked awaited waited unready
    have hdrained := s.drained_iff
    refine ⟨fun h => if_neg fun ⟨hm, hp, hd⟩ => h ⟨⟨hm, hp⟩, hdrained.1 hd⟩, fun ⟨hm, hp⟩ hd =>
      (if_pos ⟨hm, hp, hdrained.2 hd⟩).trans ?_, fun h => if_neg h, fun h => ⟨fun hw => ?_, fun hw => ?_⟩, fun h => ?_,
        fun hm hu => ?_⟩
    · have frame : CranesAlone _ parked := parkRequest_cranesAlone _ _
      have now : parked.now = s.now := congrArg (·.now) frame
      have params : parked.params = s.params := congrArg (·.params) frame
      have address (a : Nat) : parked.craneAddress a = s.craneAddress a := congrArg (·.craneAddress a) frame
      have awaits : (configured.filter fun a => parked.awaitable a && decide ((parked.crane a).state ≠ .busy)) = awaited := by
        refine List.filter_congr fun a _ => ?_
        rw [State.awaitable, address]
        simp [← Option.isSome_iff_ne_none, Bool.and_assoc]
      have timer : parked.after (parked.parkDeadline configured parked.params.moveAllowance) =
          some (s.now + parked.parkDeadline configured s.params.moveAllowance) := by
        rw [params, State.after, now]
      exact congrArg₂ (fun x y => (parked.modMode fun c => { c with timer := x, awaited := y }).oweMode) timer awaits
    · rw [parkWaitTest_eq h, if_pos ((State.stillAwaited_iff waited _).2 hw)]
    · rw [parkWaitTest_eq h, if_neg fun still => ?_]
      obtain ⟨a, ha, moves⟩ := (State.stillAwaited_iff waited _).1 still
      exact hw a ha moves
    · unfold State.wakeTest
      split
      · next hm =>
        refine if_neg fun every => h.elim (fun hn => hn hm) fun ⟨a, ha, hc, hr⟩ => hr ?_
        exact of_decide_eq_true (List.all_eq_true.1 every a (List.mem_filter.2 ⟨List.mem_range.2 ha, hc⟩))
      · rfl
    · unfold State.wakeTest
      refine (if_pos hm).trans (if_pos (List.all_eq_true.2 fun a ha => decide_eq_true ?_))
      obtain ⟨range, counted⟩ := List.mem_filter.1 ha
      exact Classical.not_not.1 fun hr => hu ⟨a, List.mem_range.1 range, counted, hr⟩

/-! ## Gathers -/

/-- From `s` to `u` the gather of the order `num` has completed: it is at the end of its station's presentation queue. -/
structure GatherCompleted (s : State) (num st : Nat) (u : State) : Prop where
  orders : ∀ k, u.order k = (s.order k).map fun p =>
    if k = num then { p with gatherTimer := none, gathered := true } else p
  stations : ∀ k, u.station k = if k = st then
    { s.station k with presQueue := (s.station k).presQueue ++ [num] } else s.station k
  rest : u = { s with desk := { s.desk with orders := u.desk.orders, stations := u.desk.stations } }

/-- What a change of an order makes of each order, by its number. -/
theorem State.modOrder_order_of (s : State) (num k : Nat) (f : Order → Order) (hf : ∀ o, (f o).number = o.number) :
    (s.modOrder num f).order k = (s.order k).map fun o => if k = num then f o else o := by
  rw [s.modOrder_order num k f hf]
  refine Option.map_congr fun o ho => ?_
  rw [s.order_number k o ho]

theorem completeGather_completes {s : State} (ht : s.Tidy) (num st : Nat) :
    GatherCompleted s num st (s.completeGather num st) where
  orders k := by
    rw [State.completeGather, State.modStation_order, State.modOrder_order_of]
    exact fun o => rfl
  stations k := by
    refine (State.modStation_station (s.modOrder num _) st k _ ht.stations.1).trans ?_
    split
    · next h => rw [h]; rfl
    · rfl
  rest := rfl

theorem MemberState.live_iff (x : MemberState) : x.live = true ↔ x ∉ [MemberState.done, .stranded, .failed, .cancelled] := by
  cases x <;> decide

theorem MemberState.expected_iff (x : MemberState) :
    x.expected = true ↔ x ∈ [MemberState.waitBin, .queued, .fetching, .atFront, .carrying] := by
  cases x <;> decide

section
variable {s : State} {num : Nat} {o : Order}

theorem gatherTest_idle (ho : s.order num = some o) (h : ¬ (o.state = .admitted ∧ o.gathered = false)) :
    s.gatherTest num = s := by
  rw [State.gatherTest, ho]
  exact if_neg h

theorem gatherTest_gathers (ho : s.order num = some o) (h : o.state = .admitted ∧ o.gathered = false) :
    s.gatherTest num =
      if o.members.filter (·.state.live) = [] then s.stopGather num
      else if (o.members.filter (·.state.live)).all fun m => decide (m.state = .inLane) then
        s.completeGather num o.station
      else s := by
  rw [State.gatherTest, ho]
  exact if_pos h

end

/-- The hold-off comparison by its branches (R104). -/
theorem holdTest_eq (s : State) : s.holdTest =
    if s.params.watermark ≤ s.waitingCount then
      if s.desk.holding = true then s else
        { s with
          desk := { s.desk with holding := true, holdTimer := some (s.now + min s.params.holdRepeat s.params.holdTime) }
          work := { s.work with up := s.work.up ++ [.holdoff s.params.holdTime] } }
    else if s.desk.holding = true then
      { s with
        desk := { s.desk with holding := false, holdTimer := none }
        work := { s.work with up := s.work.up ++ [.holdoff 0] } }
    else s := rfl

/-- Settles O43. -/
theorem gatherAndHoldOffTimers : Obligations.GatherAndHoldOffTimers := by
  refine ⟨fun s number hr ht => ⟨fun h => ?_, fun o ho htimer => ?_⟩, fun s hr => ⟨fun h => ?_, fun h => ?_⟩,
    fun s => ⟨rfl, fun hw hh => ?_, fun hw hh => ?_, fun h => ?_, fun h => if_pos h, fun h => if_neg (by rw [h]; exact nofun)⟩,
    fun s num o ht ho => ⟨gatherTest_idle ho, fun h hl => ?_, fun h hl hm => ?_, fun h hl => ?_⟩⟩
  · refine hasNoEffect_of_ends_at_begin (event_ends hr ?_)
    cases ho : s.order number.toNat with
    | none => rw [State.beginEvent_order, ho]
    | some o =>
      rw [State.beginEvent_order, ho]
      exact if_neg (by rw [h o ho]; exact nofun)
  · intro inLane expected
    have named : o.number = number.toNat := s.order_number _ o ho
    obtain ⟨orders, stations, rest⟩ := completeGather_completes (s := s.beginEvent) { ht with } number.toNat o.station
    let u := (s.beginEvent.completeGather number.toNat o.station).notice (.gatherPartial number.toNat inLane expected)
    refine ⟨u, orders, stations, ?_, event_ends hr ?_⟩
    · exact congrArg (fun v : State => v.notice (.gatherPartial number.toNat inLane expected)) rest
    · have counted : (o.members.countP fun m => m.state.expected) = expected :=
        congrArg (o.members.countP ·) (funext fun m => Bool.eq_iff_iff.2 (by
          rw [MemberState.expected_iff, decide_eq_true_iff]))
      rw [State.beginEvent_order, ho]
      refine (if_pos (Option.isSome_iff_ne_none.2 htimer)).trans ?_
      unfold State.expireGather
      dsimp only
      rw [counted, named]
  · refine hasNoEffect_of_ends_at_begin (event_ends hr (if_neg ?_))
    rwa [Option.isSome_iff_ne_none]
  · refine (event_ends hr (if_pos ?_)).trans ?_
    · rwa [Option.isSome_iff_ne_none]
    · rw [State.eventEnds, settle_idle _ rfl]
      rfl
  · rw [holdTest_eq, if_pos hw, if_neg (by rw [hh]; exact nofun)]
  · rw [holdTest_eq, if_neg (Nat.not_le.2 hw), if_pos hh]
  · rw [holdTest_eq]
    split
    · next hw => exact if_pos (h.1 hw)
    · next hw => exact if_neg fun hh => hw (h.2 hh)
  · have none : o.members.filter (·.state.live) = [] :=
      List.filter_eq_nil_iff.2 fun m hm live => hl m hm ((MemberState.live_iff _).1 live)
    refine ⟨s.stopGather num, fun k => s.modOrder_order_of num k _ fun _ => rfl, rfl, ?_⟩
    rw [gatherTest_gathers ho h, if_pos none]
  · obtain ⟨m, hmem, live⟩ := hl
    have some : o.members.filter (·.state.live) ≠ [] :=
      List.ne_nil_of_mem (List.mem_filter.2 ⟨hmem, (MemberState.live_iff _).2 live⟩)
    have all : ((o.members.filter (·.state.live)).all fun m => decide (m.state = .inLane)) = true := by
      refine List.all_eq_true.2 fun m hx => decide_eq_true ?_
      obtain ⟨hmem, live⟩ := List.mem_filter.1 hx
      exact hm m hmem ((MemberState.live_iff _).1 live)
    obtain ⟨orders, stations, rest⟩ := completeGather_completes ht num o.station
    refine ⟨_, orders, stations, rest, ?_⟩
    rw [gatherTest_gathers ho h, if_neg some, if_pos all]
  · obtain ⟨m, hmem, live, hm⟩ := hl
    have listed : m ∈ o.members.filter (·.state.live) := List.mem_filter.2 ⟨hmem, (MemberState.live_iff _).2 live⟩
    rw [gatherTest_gathers ho h, if_neg (List.ne_nil_of_mem listed), if_neg]
    exact fun all => hm (of_decide_eq_true (List.all_eq_true.1 all m listed))

end Sys2Proof.Machine
end

section
/-! PROOF (O40). ORDER: the outcomes of the listed items and the record that it takes (R85, R86, R125); the admission of the
head of an order queue (R88, R89). -/

namespace Sys2Proof.Machine

/-! ## The outcomes of the listed items -/

/-- The outcome of a listed item from the state ahead of the ORDER, with the tags listed before it and the number of the
items taken before it (R86). -/
def State.itemOutcome (s : State) (earlier : List Nat) (taken : Nat) (x : OrderItem) : Option Reason :=
  if x.item.toNat = 0 ∨ 15 < x.category.toNat then some .valueRange
  else if x.item.toNat ∈ earlier then some .duplicate
  else
    match s.binState x.bin.toNat with
    | none => some .binUnknown
    | some w =>
      if w = .blocked ∨ w = .stranded ∨ w = .adrift then some .binBusy
      else if s.item x.item.toNat ≠ none then some .itemBusy
      else if 65536 ≤ s.loans.items.length + taken then some .itemTableFull
      else none

/-- An item is judged on the state that those before it have left. -/
theorem State.judgeItem_eq (s : State) (earlier : List Nat) (x : OrderItem) :
    s.judgeItem earlier x = s.itemOutcome earlier 0 x := by
  unfold State.judgeItem State.itemOutcome State.judgeItemBin
  split
  · rfl
  · split
    · rfl
    · cases s.binState x.bin.toNat with
      | none => rfl
      | some w =>
        have room : (if (s.item x.item.toNat).isSome then some Reason.itemBusy
            else if Config.itemCapacity ≤ s.loans.items.length then some .itemTableFull else none) =
            if s.item x.item.toNat ≠ none then some .itemBusy
            else if 65536 ≤ s.loans.items.length + 0 then some .itemTableFull else none := by
          cases s.item x.item.toNat with
          | none => rfl
          | some e => rfl
        cases w with
        | blocked | stranded | adrift => rfl
        | _ => exact room

/-- The REQUESTED entry of a listed item (R86). -/
def requestedEntry (num : Nat) (x : OrderItem) : Item :=
  { bin := x.bin.toNat, category := x.category.toNat, state := .requested num }

/-- A listed item is taken (R125). -/
def State.takenItem (s : State) (num : Nat) (x : OrderItem) : State := s.createItem x.item.toNat (requestedEntry num x)

section
variable {s : State} {num : Nat} {x : OrderItem}

theorem State.takenItem_binState (b : Nat) : (s.takenItem num x).binState b = s.binState b := by
  unfold State.binState State.takenItem
  rw [State.createItem_bin]
  split
  · next h => rw [h, Option.map_map]; rfl
  · rfl

theorem State.takenItem_item (k : Nat) :
    (s.takenItem num x).item k = if k = x.item.toNat then some (requestedEntry num x) else s.item k := by
  rw [State.takenItem, State.createItem, State.modBin_item, State.putItem_item]

theorem Tab.length_put {α : Type} {t : Tab α} {k : Nat} (v : α) (h : t.find k = none) :
    (t.put k v).length = t.length + 1 := by
  simpa using Tab.countP_put_new (q := fun _ => true) v h

theorem State.takenItem_length (h : s.item x.item.toNat = none) :
    (s.takenItem num x).loans.items.length = s.loans.items.length + 1 := by
  rw [State.takenItem, State.createItem, State.modBin_loans]
  exact Tab.length_put _ h

/-- An item that is taken names no entry. -/
theorem State.itemOutcome_none {earlier : List Nat} {n : Nat} (h : s.itemOutcome earlier n x = none) :
    x.item.toNat ∉ earlier ∧ s.item x.item.toNat = none := by
  unfold State.itemOutcome at h
  split at h
  · cases h
  · split at h
    · cases h
    · next hd =>
      split at h
      · cases h
      · split at h
        · cases h
        · split at h
          · cases h
          · next hi => exact ⟨hd, Classical.not_not.1 hi⟩

/-- What the items listed after a taken one see of it: its tag among those before them, and one entry more. -/
theorem State.takenItem_outcome {earlier : List Nat} (n : Nat) (y : OrderItem) (hx : x.item.toNat ∈ earlier)
    (hn : s.item x.item.toNat = none) :
    (s.takenItem num x).itemOutcome earlier n y = s.itemOutcome earlier (n + 1) y := by
  unfold State.itemOutcome
  rw [State.takenItem_binState, State.takenItem_length hn, State.takenItem_item, Nat.add_assoc, Nat.add_comm 1 n]
  split
  · rfl
  · split
    · rfl
    · next hy => rw [if_neg fun h : y.item.toNat = x.item.toNat => hy (h ▸ hx)]

end

/-! ## The items taken one by one -/

/-- What a list of items makes of the state and of the outcomes. -/
structure ItemsTaken (s : State) (num : Nat) (earlier : List Nat) (items : List OrderItem)
    (r : State × List (Option Reason)) : Prop where
  length : r.2.length = items.length
  outcome : ∀ k x, items[k]? = some x → r.2[k]? = some
    (s.itemOutcome (earlier ++ (items.take k).map (·.item.toNat)) ((r.2.take k).countP Option.isNone) x)
  fresh : ∀ x ∈ acceptedItems items r.2, x.item.toNat ∉ earlier
  entry : ∀ x ∈ acceptedItems items r.2, r.1.item x.item.toNat = some (requestedEntry num x)
  others : ∀ t, (∀ x ∈ acceptedItems items r.2, x.item.toNat ≠ t) → r.1.item t = s.item t
  bins : ∀ b, r.1.bin b = (s.bin b).map fun q =>
    { q with itemRefs := q.itemRefs + (acceptedItems items r.2).countP fun x => decide (x.bin.toNat = b) }
  rest : r.1 = { s with
    loans := { s.loans with items := r.1.loans.items }, store := { s.store with bins := r.1.store.bins } }

theorem acceptedItems_none (x : OrderItem) (items : List OrderItem) (outcomes : List (Option Reason)) :
    acceptedItems (x :: items) (none :: outcomes) = x :: acceptedItems items outcomes := rfl

theorem acceptedItems_some (x : OrderItem) (items : List OrderItem) (r : Reason) (outcomes : List (Option Reason)) :
    acceptedItems (x :: items) (some r :: outcomes) = acceptedItems items outcomes := rfl

section
variable {s : State} {num : Nat} {earlier : List Nat} {x : OrderItem} {items : List OrderItem}
  {r : State × List (Option Reason)}

/-- The first item is refused. -/
theorem ItemsTaken.refused (later : ItemsTaken s num (earlier ++ [x.item.toNat]) items r) {e : Reason}
    (hx : s.itemOutcome earlier 0 x = some e) : ItemsTaken s num earlier (x :: items) (r.1, some e :: r.2) where
  length := congrArg (· + 1) later.length
  outcome k y hy := by
    cases k with
    | zero =>
      obtain rfl : x = y := by simpa using hy
      simpa using hx.symm
    | succ k =>
      have at_k := later.outcome k y (by simpa using hy)
      simpa using at_k
  fresh y hy ht := later.fresh y hy (List.mem_append_left _ ht)
  entry := later.entry
  others := later.others
  bins := later.bins
  rest := later.rest

/-- The first item is taken. -/
theorem ItemsTaken.accepted (later : ItemsTaken (s.takenItem num x) num (earlier ++ [x.item.toNat]) items r)
    (hx : s.itemOutcome earlier 0 x = none) : ItemsTaken s num earlier (x :: items) (r.1, none :: r.2) where
  length := congrArg (· + 1) later.length
  outcome k y hy := by
    cases k with
    | zero =>
      obtain rfl : x = y := by simpa using hy
      simpa using hx.symm
    | succ k =>
      have at_k := later.outcome k y (by simpa using hy)
      rw [State.takenItem_outcome _ _ (by simp) (State.itemOutcome_none hx).2] at at_k
      simpa using at_k
  fresh y hy := by
    rw [acceptedItems_none] at hy
    obtain rfl | hy := List.mem_cons.1 hy
    · exact (State.itemOutcome_none hx).1
    · exact fun ht => later.fresh y hy (List.mem_append_left _ ht)
  entry y hy := by
    rw [acceptedItems_none] at hy
    obtain rfl | hy := List.mem_cons.1 hy
    · rw [later.others _ fun z hz h => later.fresh z hz (by simp [h]), State.takenItem_item, if_pos rfl]
    · exact later.entry y hy
  others t ht := by
    rw [acceptedItems_none] at ht
    rw [later.others t fun z hz => ht z (List.mem_cons_of_mem _ hz), State.takenItem_item,
      if_neg (ht x (List.mem_cons_self ..)).symm]
  bins b := by
    rw [later.bins, acceptedItems_none, State.takenItem, State.createItem_bin, List.countP_cons]
    by_cases hb : b = x.bin.toNat
    · subst hb
      rw [if_pos (show x.bin.toNat = (requestedEntry num x).bin from rfl)]
      simp [requestedEntry, Nat.add_assoc, Nat.add_comm, Function.comp_def]
    · rw [if_neg (show ¬ b = (requestedEntry num x).bin from hb)]
      simp [Ne.symm hb]
  rest := by
    have taken : s.takenItem num x = { s with
        loans := { s.loans with items := (s.takenItem num x).loans.items }
        store := { s.store with bins := (s.takenItem num x).store.bins } } := by
      unfold State.takenItem State.createItem
      rw [State.modBin_eq]
      rfl
    exact later.rest.trans (congrArg (fun v : State => { v with
      loans := { v.loans with items := r.1.loans.items }, store := { v.store with bins := r.1.store.bins } }) taken)

end

/-- The items are taken one by one, in list order. -/
theorem takeItems_taken (num : Nat) (items : List OrderItem) (earlier : List Nat) (s : State) :
    ItemsTaken s num earlier items (State.takeItems num items earlier s) := by
  induction items generalizing earlier s with
  | nil =>
    refine ⟨rfl, fun k x h => absurd h (by simp), nofun, nofun, fun _ _ => rfl, fun b => ?_, rfl⟩
    show s.bin b = (s.bin b).map fun q => { q with itemRefs := q.itemRefs + 0 }
    simp
  | cons x items ih =>
    have judged : s.judgeItem earlier x = s.itemOutcome earlier 0 x := s.judgeItem_eq earlier x
    unfold State.takeItems
    rw [judged]
    cases hx : s.itemOutcome earlier 0 x with
    | none => exact (ih (earlier ++ [x.item.toNat]) (s.takenItem num x)).accepted hx
    | some e => exact (ih (earlier ++ [x.item.toNat]) s).refused hx

/-! ## ORDER as a whole -/

section
variable {s : State} {num address : Nat} {items : List OrderItem}

theorem judgeOrder_range (h : ¬ (num ≤ 32767 ∧ address ≤ 127)) : s.judgeOrder num address items = .inr .valueRange :=
  if_pos (by omega)

theorem judgeOrder_exists (h : num ≤ 32767 ∧ address ≤ 127) (ho : s.order num ≠ none) :
    s.judgeOrder num address items = .inr .orderExists :=
  (if_neg (by omega)).trans (if_pos (Option.isSome_iff_ne_none.2 ho))

/-- An ORDER in range whose number is free is judged by its station. -/
theorem judgeOrder_free (h : num ≤ 32767 ∧ address ≤ 127) (ho : s.order num = none) :
    s.judgeOrder num address items =
      match s.stationOf address with
      | none => .inr .stationUnfit
      | some st =>
        if (s.station st).kind ≠ .pick then .inr .stationUnfit
        else if !s.zoneClear (s.station st).zone then .inr .zoneShut
        else
          match freeIndex s.desk.orders Config.orderRecords with
          | none => .inr .orderTableFull
          | some i => if (s.station st).laneSize < distinctBins items then .inr .tooLarge else .inl (st, i) :=
  (if_neg (by omega)).trans (if_neg (by rw [ho]; exact nofun))

theorem stationOf_eq_some {st : Nat} : s.stationOf address = some st ↔ s.addr address = .station st := by
  unfold State.stationOf
  split
  · next k hk => simp [hk]
  · next hk => exact ⟨nofun, fun h => absurd h (hk st)⟩

theorem judgeOrder_unfit (h : num ≤ 32767 ∧ address ≤ 127) (ho : s.order num = none)
    (hs : ¬ ∃ st, s.addr address = .station st ∧ (s.station st).kind = .pick) :
    s.judgeOrder num address items = .inr .stationUnfit := by
  rw [judgeOrder_free h ho]
  cases hst : s.stationOf address with
  | none => rfl
  | some st => exact if_pos fun hk => hs ⟨st, stationOf_eq_some.1 hst, hk⟩

/-- An ORDER for a PICK station is judged by its zone, the table and the lane (R85). -/
theorem judgeOrder_pick {st : Nat} (h : num ≤ 32767 ∧ address ≤ 127) (ho : s.order num = none)
    (hs : s.addr address = .station st) (hk : (s.station st).kind = .pick) :
    s.judgeOrder num address items =
      if (s.zone (s.station st).zone).state = .clear then
        match freeIndex s.desk.orders Config.orderRecords with
        | none => .inr .orderTableFull
        | some i => if (s.station st).laneSize < distinctBins items then .inr .tooLarge else .inl (st, i)
      else .inr .zoneShut := by
  rw [judgeOrder_free h ho, stationOf_eq_some.2 hs]
  refine (if_neg (not_not_intro hk)).trans ?_
  by_cases hz : (s.zone (s.station st).zone).state = .clear
  · rw [if_pos hz, if_neg (by simp [State.zoneClear, hz])]
  · rw [if_neg hz, if_pos (by simp [State.zoneClear, hz])]

end

/-- The record that an ORDER takes (R86). -/
theorem placeOrder_spec {s : State} (ht : s.desk.stations.wf) (i : Nat) (o : Order) :
    (∀ j, j ≠ i → (s.placeOrder i o).desk.orders.find j = s.desk.orders.find j) ∧
      (s.placeOrder i o).desk.orders.find i = some o ∧
      (∀ k, (s.placeOrder i o).station k = if k = o.station then
        { s.station o.station with orderQueue := (s.station o.station).orderQueue ++ [o.number] } else s.station k) ∧
      s.placeOrder i o = { s with
        desk := { s.desk with
          orders := (s.placeOrder i o).desk.orders, stations := (s.placeOrder i o).desk.stations }
        work := { s.work with waiting := true, hold := true } } := by
  refine ⟨fun j hj => (Tab.find_put ..).trans (if_neg hj), (Tab.find_put ..).trans (if_pos rfl), fun k => ?_, rfl⟩
  exact Tab.get_set s.desk.stations Station.powerOn o.station k _ ht

/-- The outcome of an ORDER that took a record, by the outcomes of its items (R86). -/
theorem orderAnswer_eq (tag num i : Nat) (outcomes : List (Option Reason)) :
    orderAnswer tag num i outcomes =
      { tag, kind := 1, outcome := if ∀ o ∈ outcomes, o = none then .done else .partially
        reason := (outcomes.filterMap fun o => o).head?
        fields := be 2 num ++ be 1 i ++ outcomes.flatMap fun o => be 1 (reasonCode o) } := by
  unfold orderAnswer
  have none_iff : (∀ o ∈ outcomes, o = none) ↔ outcomes.filterMap (fun o => o) = [] := by
    rw [List.filterMap_eq_nil_iff]
  cases h : outcomes.filterMap fun o => o with
  | nil => rw [if_pos (none_iff.2 h)]; rfl
  | cons r rs => rw [if_neg fun all => by rw [none_iff.1 all] at h; cases h]; rfl

/-- The outcome of an item where an earlier listed one is told by another condition. -/
theorem State.itemOutcome_iff {s : State} {earlier : List Nat} {n : Nat} {x : OrderItem} {P : Prop} [Decidable P]
    (h : x.item.toNat ∈ earlier ↔ P) :
    s.itemOutcome earlier n x =
      if x.item.toNat = 0 ∨ 15 < x.category.toNat then some .valueRange
      else if P then some .duplicate
      else
        match s.binState x.bin.toNat with
        | none => some .binUnknown
        | some w =>
          if w = .blocked ∨ w = .stranded ∨ w = .adrift then some .binBusy
          else if s.item x.item.toNat ≠ none then some .itemBusy
          else if 65536 ≤ s.loans.items.length + n then some .itemTableFull
          else none := by
  unfold State.itemOutcome
  simp only [h] <;> rfl

theorem acceptedItems_eq (items : List OrderItem) (outcomes : List (Option Reason)) :
    acceptedItems items outcomes = (items.zip outcomes).filterMap fun p => if p.2 = none then some p.1 else none :=
  List.filterMap_congr fun p _ => by cases p.2 <;> rfl

theorem acceptedItems_eq_nil {items : List OrderItem} {outcomes : List (Option Reason)}
    (h : ∀ o ∈ outcomes, o ≠ none) : acceptedItems items outcomes = [] := by
  rw [acceptedItems_eq]
  exact List.filterMap_eq_nil_iff.2 fun p hp => if_neg (h p.2 (List.of_mem_zip hp).2)

theorem acceptedItems_ne_nil {items : List OrderItem} {outcomes : List (Option Reason)}
    (hl : outcomes.length = items.length) (h : none ∈ outcomes) : acceptedItems items outcomes ≠ [] := by
  intro hnil
  rw [acceptedItems_eq, List.filterMap_eq_nil_iff] at hnil
  rw [← List.map_snd_zip (l₁ := items) (l₂ := outcomes) hl.le] at h
  obtain ⟨p, hp, hn⟩ := List.mem_map.1 h
  have := hnil p hp
  rw [if_pos hn] at this
  cases this

/-- The record of an ORDER, its members one for each distinct bin (R86). -/
theorem newOrder_formMembers (num st patron : Nat) (accepted : List OrderItem) :
    newOrder num .patron st patron (formMembers accepted) false =
      { number := num, kind := .patron, station := st, patron, state := .waiting
        gathered := false, gatherLimit := none, gatherStart := none, gatherTimer := none, taken := 0
        notTaken := 0, admission := 0, listOpen := false
        members := (firstOnly [] (accepted.map fun x => x.bin.toNat)).map fun b =>
          { bin := b, state := .waitBin, held := 0
            items := (accepted.filter fun x => decide (x.bin.toNat = b)).map fun x => x.item.toNat } } := by
  simp [newOrder, formMembers, Function.comp_def]

section
variable {s : State} {tag number : BitVec 16} {station : BitVec 8} {patron : BitVec 32} {items : List OrderItem}

theorem order_refused (hr : s.running) {r : Reason} {outcomes : List (Option Reason)}
    (h : s.beginEvent.takeOrder tag.toNat number.toNat station.toNat patron.toNat items =
      (s.beginEvent, fun _ => .refused tag.toNat kindOrder r (orderFields number.toNat 0 outcomes))) :
    exec (.order tag number station patron items) s = .next (s.onlyAnswers (.refused tag.toNat 1 r
      (be 2 number.toNat ++ be 1 0 ++ outcomes.flatMap fun o => be 1 (reasonCode o)))) :=
  request_answers (body := fun u => u.takeOrder tag.toNat number.toNat station.toNat patron.toNat items)
    (a := fun _ => .refused tag.toNat kindOrder r (orderFields number.toNat 0 outcomes)) hr h

theorem order_refused_whole (hr : s.running) {r : Reason}
    (h : s.beginEvent.judgeOrder number.toNat station.toNat items = .inr r) :
    exec (.order tag number station patron items) s = .next (s.onlyAnswers (.refused tag.toNat 1 r
      (be 2 number.toNat ++ be 1 0 ++ (items.map fun _ => some r).flatMap fun o => be 1 (reasonCode o)))) :=
  order_refused hr (by rw [State.takeOrder, h])

end

/-- What the listed items and the record of an ORDER make of the state (R86, R125). -/
theorem orderPlaced {s : State} {num : Nat} {items : List OrderItem} {r : State × List (Option Reason)} (ht : s.Tidy)
    (taken : ItemsTaken s.beginEvent num [] items r) (i : Nat) (o : Order) :
    let accepted := acceptedItems items r.2
    let u := (r.1.placeOrder i o).oweAdmission
    (∀ x ∈ accepted, u.item x.item.toNat = some
      { bin := x.bin.toNat, category := x.category.toNat, state := .requested num }) ∧
    (∀ t, (∀ x ∈ accepted, x.item.toNat ≠ t) → u.item t = s.item t) ∧
    (∀ b, u.bin b = (s.bin b).map fun q =>
      { q with itemRefs := q.itemRefs + accepted.countP fun x => decide (x.bin.toNat = b) }) ∧
    (∀ j, j ≠ i → u.desk.orders.find j = s.desk.orders.find j) ∧
    u.desk.orders.find i = some o ∧
    (∀ k, u.station k = if k = o.station then
      { s.station o.station with orderQueue := (s.station o.station).orderQueue ++ [o.number] } else s.station k) ∧
    u = { s with
      loans := { s.loans with items := u.loans.items }
      store := { s.store with bins := u.store.bins }
      desk := { s.desk with orders := u.desk.orders, stations := u.desk.stations }
      work := { Work.empty with admission := true, waiting := true, hold := true } } := by
  intro accepted u
  have desk : r.1.desk = s.desk := congrArg (·.desk) taken.rest
  have ordered : r.1.desk.stations.wf := by rw [desk]; exact ht.stations.1
  obtain ⟨orders, record, stations, -⟩ := placeOrder_spec ordered i o
  have station (k : Nat) : r.1.station k = s.station k := congrArg (·.stations.get Station.powerOn k) desk
  refine ⟨taken.entry, taken.others, taken.bins, fun j hj => (orders j hj).trans ?_, record, fun k => (stations k).trans ?_, ?_⟩
  · rw [desk]
  · rw [station, station]
  · have whole : u = { r.1 with
        desk := { r.1.desk with orders := u.desk.orders, stations := u.desk.stations }
        work := { r.1.work with admission := true, waiting := true, hold := true } } := rfl
    exact whole.trans (congrArg (fun v : State => { v with
      desk := { v.desk with orders := u.desk.orders, stations := u.desk.stations }
      work := { v.work with admission := true, waiting := true, hold := true } }) taken.rest)

/-! ## Admission -/

theorem State.admissible_iff (s : State) (st : Nat) (o : Order) :
    s.admissible st o = true ↔ s.mode.mode = .run ∧ (s.zone (s.station st).zone).state = .clear ∧
      o.members.length + ((s.station st).lane.length + (s.station st).reservations) ≤ (s.station st).laneSize ∧
      32 + 2 * o.members.length ≤ 512 - s.recordsTaken := by
  have free : s.freeCount = 512 - s.recordsTaken := rfl
  simp [State.admissible, State.zoneClear, free, Config.poolReserve, and_assoc]

/-- An order as its admission leaves it (R89). -/
def Order.asAdmitted (p : Order) (limit admission : Nat) : Order :=
  { p with
    state := .admitted, admission, gatherLimit := some limit
    members := p.members.map fun m => { m with held := 2, state := .waitBin } }

/-- The head `o` of a station's order queue has been admitted, its members not yet asked for (R89). -/
def State.admitted (s : State) (st : Nat) (o : Order) (rest : List Nat) : State :=
  (((s.modStation st fun w =>
      { w with orderQueue := rest, reservations := w.reservations + o.members.length }).modOrder o.number fun p =>
        p.asAdmitted (s.gatherLimit (o.members.map (·.bin)) (s.station st).slack) s.desk.admissions).modDesk fun d =>
    { d with admissions := s.desk.admissions + 1 }).oweWaiting

section
variable {s : State} {st n : Nat} {rest : List Nat} {o : Order}

theorem admissionStep_eq (hq : (s.station st).orderQueue = n :: rest) (ho : s.order n = some o) :
    State.admissionStep st s =
      if s.admissible st o then forEach o.refs State.admitMember (s.admitted st o rest) else s := by
  rw [State.admissionStep, hq]
  dsimp only
  rw [ho]
  rfl

theorem admitted_stations (ht : s.Tidy) (j : Nat) : (s.admitted st o rest).station j = if j = st then
    { s.station st with orderQueue := rest, reservations := (s.station st).reservations + o.members.length }
    else s.station j :=
  Tab.get_set s.desk.stations Station.powerOn st j _ ht.stations.1

theorem admitted_orders (j : Nat) : (s.admitted st o rest).order j = (s.order j).map fun p => if j = o.number then
    p.asAdmitted (s.gatherLimit (o.members.map (·.bin)) (s.station st).slack) s.desk.admissions else p :=
  State.modOrder_order_of (s.modStation st _) o.number j (·.asAdmitted _ _) fun _ => rfl

/-- An admission takes no lane over its size (R83, R88). -/
theorem admitted_laneFits (ht : s.Tidy)
    (h : o.members.length + ((s.station st).lane.length + (s.station st).reservations) ≤ (s.station st).laneSize) :
    (s.admitted st o rest).laneFits st := by
  unfold State.laneFits
  rw [admitted_stations ht, if_pos rfl]
  dsimp only
  omega

end

/-- Settles O40. -/
theorem orderTakesARecord : Obligations.OrderTakesARecord := by
  refine ⟨fun s tag number station patron items hr ht hne => ?_, fun s st n rest o ht hq ho => ?_, fun s st h => ?_,
    fun s r m hm => ⟨fun h => ?_, fun h => ?_⟩, fun s => rfl⟩
  · intro c num refused whole ranged bins full
    refine ⟨fun h => order_refused_whole hr (judgeOrder_range h), fun h ho => order_refused_whole hr (judgeOrder_exists h ho),
      fun h ho hs => order_refused_whole hr (judgeOrder_unfit h ho hs), fun st h ho hs hk => ?_⟩
    have judged : s.beginEvent.judgeOrder number.toNat station.toNat items = _ :=
      judgeOrder_pick (s := s.beginEvent) h ho hs hk
    refine ⟨fun hz => order_refused_whole hr (judged.trans (if_neg hz)), fun hz hf => ?_, fun hz hf hl => ?_,
      fun hz hl i hi hn hb => ?_⟩
    · have none : freeIndex s.beginEvent.desk.orders Config.orderRecords = none := freeIndex_eq_none.2 hf
      refine order_refused_whole hr ?_
      rw [judged, none]
      exact if_pos hz
    · obtain ⟨i, hi⟩ : ∃ i, freeIndex s.beginEvent.desk.orders Config.orderRecords = some i :=
        Option.ne_none_iff_exists'.1 fun none => hf (freeIndex_eq_none.1 none)
      refine order_refused_whole hr ?_
      rw [judged, hi]
      exact (if_pos hz).trans (if_pos hl)
    · have takes : s.beginEvent.judgeOrder number.toNat station.toNat items = .inl (st, i) := by
        have free : freeIndex s.beginEvent.desk.orders Config.orderRecords = some i := freeIndex_eq_some.2 ⟨hi, hn, hb⟩
        rw [judged, free]
        exact (if_pos hz).trans (if_neg (Nat.not_lt.2 hl))
      have taken := takeItems_taken num items [] s.beginEvent
      let r := State.takeItems num items [] s.beginEvent
      have taking : s.beginEvent.takeOrder tag.toNat num station.toNat patron.toNat items =
          if acceptedItems items r.2 = [] then
            (s.beginEvent, fun _ => .refused tag.toNat kindOrder ((r.2.head?.getD none).getD .valueRange) (orderFields num 0 r.2))
          else ((r.1.placeOrder i (newOrder num .patron st patron.toNat (formMembers (acceptedItems items r.2)) false)).oweAdmission,
            fun _ => orderAnswer tag.toNat num i r.2) := by
        rw [State.takeOrder, takes]
      refine ⟨r.2, taken.length, fun k x hx => ?_, fun e he hh => ?_, fun ⟨o, ho, hnone⟩ => ?_⟩
      · refine (taken.outcome k x hx).trans (congrArg some ?_)
        rw [State.itemOutcome_iff (P := ∃ y ∈ items.take k, y.item = x.item)]
        · rfl
        · simp only [List.nil_append, List.mem_map, BitVec.toNat_inj]
      · refine order_refused hr ?_
        rw [taking, if_pos (acceptedItems_eq_nil he), hh]
        rfl
      · subst hnone
        intro accepted
        have same : accepted = acceptedItems items r.2 := (acceptedItems_eq items r.2).symm
        rw [if_neg (acceptedItems_ne_nil taken.length ho), newOrder_formMembers, ← same] at taking
        obtain ⟨entry, others, bins, orders, record, stations, rest⟩ := orderPlaced ht taken i
          { number := num, kind := .patron, station := st, patron := patron.toNat, state := .waiting
            gathered := false, gatherLimit := none, gatherStart := none, gatherTimer := none, taken := 0
            notTaken := 0, admission := 0, listOpen := false
            members := (firstOnly [] (accepted.map fun x => x.bin.toNat)).map fun b =>
              { bin := b, state := .waitBin, held := 0
                items := (accepted.filter fun x => decide (x.bin.toNat = b)).map fun x => x.item.toNat } }
        rw [← same] at entry others bins
        refine ⟨_, entry, others, bins, orders, record, stations, rest, ?_⟩
        rw [← orderAnswer_eq]
        exact request_ends (body := fun v => v.takeOrder tag.toNat num station.toNat patron.toNat items)
          (a := fun _ => orderAnswer tag.toNat num i r.2) hr taking
  · intro w k admits
    have named : o.number = n := s.order_number _ o ho
    rw [admissionStep_eq hq ho]
    refine ⟨fun h => if_neg fun ha => h ((s.admissible_iff st o).1 ha), fun h => ?_⟩
    have ⟨_, _, room, _⟩ := h
    refine ⟨s.admitted st o rest, admitted_stations ht, ?_, rfl, fun _ => admitted_laneFits ht room, ?_⟩
    · rw [← named]
      exact admitted_orders
    · rw [if_pos ((s.admissible_iff st o).2 h), ← named]
      rfl
  · rw [State.admissionStep, h]
  · rw [State.admitMember, hm]
    exact if_neg h
  · rw [State.admitMember, hm]
    exact if_pos h

end Sys2Proof.Machine
end

section
/-! PROOF (O52). SHIFT and FLUSH (R33, R58, R79). -/

namespace Sys2Proof.Machine

/-! ## SHIFT -/

/-- The fields of a target slot, as an entry carries them. -/
def targetEntry (t : RawSlot) : BinEntry :=
  { presence := 0, aisle := t.aisle.toNat, face := t.face.toNat, level := t.level.toNat, column := t.column.toNat, state := 0 }

section
variable {s : State} {b : Nat} {r : Bin} {target : RawSlot}

/-- The target of a SHIFT is a slot of the bin's own aisle (R58). -/
theorem shiftTarget_fits (ha : target.aisle.toNat = r.home.aisle) (h : BinSlotFits s (targetEntry target)) :
    s.shiftTarget r target = some { binSlot (targetEntry target) with aisle := r.home.aisle } := by
  rw [State.shiftTarget, if_pos ha, ← ha]
  exact slotOf_fits h

theorem shiftTarget_unfit (h : ¬ (target.aisle.toNat = r.home.aisle ∧ BinSlotFits s (targetEntry target))) :
    s.shiftTarget r target = none := by
  rw [State.shiftTarget]
  split
  · next ha => exact slotOf_unfit (e := targetEntry target) fun hf => h ⟨ha, hf⟩
  · rfl

theorem judgeShift_absent (hb : s.bin b = none) : s.judgeShift b target = .inr .binUnknown := by
  rw [State.judgeShift, hb]

theorem judgeShift_unranged (hb : s.bin b = some r) (h : s.shiftTarget r target = none) :
    s.judgeShift b target = .inr .valueRange := by
  rw [State.judgeShift, hb]
  dsimp only
  rw [h]

theorem judgeShift_ranged {t : Slot} (hb : s.bin b = some r) (h : s.shiftTarget r target = some t) :
    s.judgeShift b target =
      if r.state ≠ .stored then .inr .binBusy
      else if s.slotClaimed t then .inr .slotTaken
      else if s.freeCount < 33 then .inr .queueFull
      else .inl t := by
  rw [State.judgeShift, hb]
  dsimp only
  rw [h]
  rfl

variable {tag bin : BitVec 16}

/-- What SHIFT does (R58). -/
def shiftBody (tag bin : BitVec 16) (target : RawSlot) (s : State) : State × (State → Answer) :=
  match s.judgeShift bin.toNat target with
  | .inl t => (s.queueRelocate bin.toNat t, fun _ => .done tag.toNat kindShift (be 2 bin.toNat))
  | .inr r => (s, fun _ => .refused tag.toNat kindShift r)

theorem exec_shift (tag bin : BitVec 16) (target : RawSlot) (s : State) :
    exec (.shift tag bin target) s = s.live (s.request (shiftBody tag bin target)) := rfl

theorem shift_refused (hr : s.running) {x : Reason} (h : s.beginEvent.judgeShift bin.toNat target = .inr x) :
    exec (.shift tag bin target) s = .next (s.onlyAnswers (.refused tag.toNat 4 x)) :=
  request_answers (a := fun _ => .refused tag.toNat 4 x) hr (by rw [h]; rfl)

/-- A bin's RELOCATE has been queued, its aisle not yet tested (R58). -/
def State.shifting (s : State) (b : Nat) (r : Bin) (t : Slot) : State :=
  (s.putBin b { r with state := .reserved, target := some t }).modCrane r.home.aisle fun c =>
    { c with houseQueue := c.houseQueue ++
      [{ kind := .relocate, cls := .house, bin := b, origin := r.home.point, dest := t.point, owner := .shift }] }

theorem queueRelocate_eq (hb : s.bin b = some r) (t : Slot) :
    s.queueRelocate b t = (s.shifting b r t).dispatchTest r.home.aisle := by
  have marked : (s.modBin b fun r => { r with state := .reserved, target := some t }) =
      s.putBin b { r with state := .reserved, target := some t } := by
    rw [State.modBin, hb]
  have home : s.homePoint b = r.home.point := by rw [State.homePoint, hb]
  have aisle : s.binAisle b = r.home.aisle := by rw [State.binAisle, hb]
  rw [State.queueRelocate, marked, home, aisle]
  rfl

theorem shift_queued (hr : s.running) {t : Slot} (hb : s.bin bin.toNat = some r)
    (h : s.beginEvent.judgeShift bin.toNat target = .inl t) :
    exec (.shift tag bin target) s = .next (s.requestEnds ((s.beginEvent.shifting bin.toNat r t).dispatchTest r.home.aisle)
      (.done tag.toNat 4 (be 2 bin.toNat))) := by
  refine request_ends (a := fun _ => .done tag.toNat 4 (be 2 bin.toNat)) hr ?_
  rw [h]
  dsimp only
  rw [queueRelocate_eq (s := s.beginEvent) hb]
  rfl

end

/-! ## FLUSH -/

/-- What FLUSH does (R79). -/
def flushBody (tag : BitVec 16) (a : Fin 12) (s : State) : State × (State → Answer) :=
  let c := s.crane a
  if c.state = .busy ∨ c.state = .parking then (s, fun _ => .refused tag.toNat kindCommand .aisleBusy)
  else
    (((forEach c.queued (State.flushJob a) (s.holdTests true)).holdTests false).dispatchTest a,
      fun _ => .done tag.toNat kindCommand (be 2 c.queued.length))

theorem exec_flush (tag : BitVec 16) (a : Fin 12) (s : State) :
    exec (.flush tag a) s = s.live (s.request (flushBody tag a)) := rfl

/-- A queued job has left its queue, its record free (R79). -/
def State.unqueued (s : State) (a : Nat) (j : Job) : State :=
  (s.modCrane a fun c => c.setQueue j.cls ((c.queue j.cls).erase j)).recordsFreed

/-- From `s` to `u` a queued job has been removed at FLUSH, but for what becomes of its bin and its member (R79). -/
structure Unjobbed (s : State) (a : Nat) (j : Job) (u : State) : Prop where
  cranes : ∀ k, u.crane k = if k = a then (s.crane a).setQueue j.cls (((s.crane a).queue j.cls).erase j) else s.crane k
  bins : ∀ b, u.bin b = (s.bin b).map fun r => if b = j.bin then
    { r with
      state := if j.kind = .store then .adrift else r.state
      target := if j.kind = .relocate then none else r.target } else r
  rest : u = { s with
    store := { s.store with bins := u.store.bins }
    dispatch := { s.dispatch with cranes := u.dispatch.cranes }
    work := { s.work with admission := true, drain := true } }

section
variable {s : State} {a : Nat} {j : Job}

theorem unqueued_cranes (ht : s.Tidy) (k : Nat) : (s.unqueued a j).crane k =
    if k = a then (s.crane a).setQueue j.cls (((s.crane a).queue j.cls).erase j) else s.crane k :=
  Tab.get_set s.dispatch.cranes Crane.idle a k _ ht.cranes.1

/-- A FETCH leaves its bin as it is, ahead of its becoming STORED. -/
theorem unqueued_fetch (ht : s.Tidy) (h : j.kind = .fetch) : Unjobbed s a j (s.unqueued a j) where
  cranes := unqueued_cranes ht
  bins b := by
    show s.bin b = _
    simp [h]
  rest := rfl

/-- A STORE leaves its bin ADRIFT. -/
theorem unqueued_store (ht : s.Tidy) (h : j.kind = .store) : Unjobbed s a j ((s.unqueued a j).setBinState j.bin .adrift) where
  cranes k := by rw [State.setBinState_crane]; exact unqueued_cranes ht k
  bins b := by
    rw [State.setBinState_bin]
    show (if b = j.bin then (s.bin j.bin).map _ else s.bin b) = _
    split
    · next hb => subst hb; simp [h]
    · simp
  rest := by rw [State.setBinState, State.modBin_eq]; rfl

/-- A RELOCATE releases the target of its bin. -/
theorem unqueued_relocate (ht : s.Tidy) (h : j.kind = .relocate) :
    Unjobbed s a j ((s.unqueued a j).releaseTarget j.bin) where
  cranes k := by rw [State.releaseTarget, State.modBin_crane]; exact unqueued_cranes ht k
  bins b := by
    rw [State.releaseTarget, State.modBin_bin]
    show (if b = j.bin then (s.bin j.bin).map _ else s.bin b) = _
    split
    · next hb => subst hb; simp [h]
    · simp
  rest := by rw [State.releaseTarget, State.modBin_eq]; rfl

theorem flushJob_eq : State.flushJob a j s =
    match j.kind with
    | .fetch => ((s.unqueued a j).becomeStored j.bin).tellFetchLost j .failed
    | .store => ((s.unqueued a j).setBinState j.bin .adrift).tellStoreLost j
    | .relocate =>
      (((s.unqueued a j).releaseTarget j.bin).becomeStored j.bin).notice (.shiftEnded j.bin .stored .flush) := rfl

end

theorem tellFetchLost_eq (s : State) (j : Job) (st : MemberState) : s.tellFetchLost j st =
    match j.owner with
    | .member r => s.fetchLost r st
    | _ => s := by
  unfold State.tellFetchLost
  cases j.owner <;> rfl

theorem tellStoreLost_eq (s : State) (j : Job) : s.tellStoreLost j =
    match j.owner with
    | .member r => s.storeLost r
    | _ => s := by
  unfold State.tellStoreLost
  cases j.owner <;> rfl

/-- Settles O52. -/
theorem shiftAndFlush : Obligations.ShiftAndFlush := by
  refine ⟨fun s tag bin target hr ht => ⟨fun hb => shift_refused hr (judgeShift_absent hb), fun r hb => ?_⟩,
    fun s tag a hr ht => ⟨fun h => ?_, fun hbusy hpark => ?_⟩, fun s a j ht => ?_⟩
  · intro a y ranged t taken
    have fits : ranged ↔ target.aisle.toNat = r.home.aisle ∧ BinSlotFits s (targetEntry target) := by
      refine and_congr_right fun ha => ?_
      have own : (targetEntry target).aisle = a := ha
      rw [BinSlotFits, own]
      rfl
    have claimed : s.slotClaimed t = true ↔ taken := by simp [State.slotClaimed, taken]
    have judged (h : ranged) := judgeShift_ranged (s := s.beginEvent) (b := bin.toNat) (target := target) hb
      (shiftTarget_fits (s := s.beginEvent) (fits.1 h).1 (fits.1 h).2)
    refine ⟨fun h => shift_refused hr (judgeShift_unranged (s := s.beginEvent) hb (shiftTarget_unfit fun hf => h (fits.2 hf))),
      fun h hs => shift_refused hr ((judged h).trans (if_pos hs)),
      fun h hs hc => shift_refused hr ((judged h).trans ((if_neg (not_not_intro hs)).trans (if_pos (claimed.2 hc)))),
      fun h hs hc hf => shift_refused hr ((judged h).trans ((if_neg (not_not_intro hs)).trans
        ((if_neg fun h => hc (claimed.1 h)).trans (if_pos hf)))), fun h hs hc hf => ?_⟩
    intro j
    refine ⟨s.beginEvent.shifting bin.toNat r t, fun k => ?_, fun k => ?_, rfl, shift_queued hr hb ((judged h).trans
      ((if_neg (not_not_intro hs)).trans ((if_neg fun h => hc (claimed.1 h)).trans (if_neg (Nat.not_lt.2 hf)))))⟩
    · exact State.putBin_bin _ _ _ _
    · exact Tab.get_set s.dispatch.cranes Crane.idle a k _ ht.cranes.1
  · have refuses : flushBody tag a s.beginEvent =
        (s.beginEvent, fun _ => .refused tag.toNat kindCommand .aisleBusy) := if_pos h
    rw [exec_flush, request_answers hr refuses]
    rfl
  · intro u
    have flushes : flushBody tag a s.beginEvent = ((u.holdTests false).dispatchTest a,
        fun _ => .done tag.toNat kindCommand (be 2 (s.crane a).queued.length)) := if_neg fun h => h.elim hbusy hpark
    rw [exec_flush, request_ends hr flushes]
    rfl
  · rw [flushJob_eq]
    cases hk : j.kind with
    | fetch =>
      obtain ⟨cranes, bins, rest⟩ := unqueued_fetch (a := a) ht hk
      rw [hk] at bins
      refine ⟨_, cranes, bins, rest, ?_⟩
      dsimp only
      rw [tellFetchLost_eq]
      cases j.owner <;> rfl
    | store =>
      obtain ⟨cranes, bins, rest⟩ := unqueued_store (a := a) ht hk
      rw [hk] at bins
      refine ⟨_, cranes, bins, rest, ?_⟩
      dsimp only
      rw [tellStoreLost_eq]
      cases j.owner <;> rfl
    | relocate =>
      obtain ⟨cranes, bins, rest⟩ := unqueued_relocate (a := a) ht hk
      rw [hk] at bins
      refine ⟨_, cranes, bins, rest, ?_⟩
      cases j.owner <;> rfl

end Sys2Proof.Machine
end

section
/-! PROOF (O44). JOIN and LEAVE (R108, R109, R111, R112, R120). -/

namespace Sys2Proof.Machine

/-! ## Held records -/

section
variable {s : State} {r : MemberRef}

/-- A member's records are given up, whether it holds any or none (R55). -/
theorem releaseHeld_order (k : Nat) : (s.releaseHeld r).order k = (s.order k).map fun p =>
    if k = r.order then { p with members := p.members.modify r.pos fun x => { x with held := 0 } } else p := by
  have given := s.modMember_order r (fun m => { m with held := 0 }) k
  have same (h : ∀ m, s.member r = some m → m.held = 0) : s.order k = (s.order k).map fun p =>
      if k = r.order then { p with members := p.members.modify r.pos fun x => { x with held := 0 } } else p := by
    cases ho : s.order k with
    | none => rfl
    | some p =>
      refine congrArg some ?_
      split
      · next hk =>
        have unheld : p.members.modify r.pos (fun x => { x with held := 0 }) = p.members := by
          refine List.ext_getElem? fun i => ?_
          rw [List.getElem?_modify]
          split
          · next hi =>
            cases hm : p.members[i]? with
            | none => rfl
            | some m =>
              have hz : m.held = 0 := h m (by rw [State.member, ← hk, ho, hi]; exact hm)
              simp [← hz]
          · simp
        dsimp only
        rw [unheld]
      · rfl
  unfold State.releaseHeld
  split
  · next m hm =>
    split
    · next hz => exact same fun x hx => by rw [Option.some.inj (hx.symm.trans hm)]; exact hz
    · exact given
  · next hm => exact same fun x hx => by rw [hm] at hx; cases hx

/-- What giving up held records brings about: the tests owed where a record was held. -/
theorem releaseHeld_rest : s.releaseHeld r = { s with
    desk := { s.desk with orders := (s.releaseHeld r).desk.orders }
    work := { s.work with admission := (s.releaseHeld r).work.admission, drain := (s.releaseHeld r).work.drain } } := by
  unfold State.releaseHeld
  split
  · split <;> rfl
  · rfl

theorem releaseHeld_owed : (s.releaseHeld r).work.admission =
      (s.work.admission || decide (∃ m, s.member r = some m ∧ m.held ≠ 0)) ∧
    (s.releaseHeld r).work.drain = (s.work.drain || decide (∃ m, s.member r = some m ∧ m.held ≠ 0)) := by
  unfold State.releaseHeld
  cases hm : s.member r with
  | none => simp
  | some m =>
    by_cases hz : m.held = 0
    · simp [hz]
    · simp [hz, State.recordsFreed, State.oweAdmission, State.oweDrain]

end

/-! ## JOIN -/

/-- A lift without the carry of a tag. -/
def Lift.dropCarry (tag : Nat) (r : Lift) : Lift := { r with carries := r.carries.filter fun d => decide (d.tag ≠ tag) }

/-- A carry has left its lift, and its reservation at a station it was for (R120). -/
def State.carryLeft (s : State) (l : Nat) (c : Carry) : State :=
  match c.leg with
  | .up => (s.modLift l (Lift.dropCarry c.tag)).releaseReservation c.station
  | .down => s.modLift l (Lift.dropCarry c.tag)

/-- A carry of a lift given up, ahead of the tests of its order (R120). -/
def State.carryDropped (s : State) (l : Nat) (c : Carry) : State :=
  ((s.carryLeft l c).releaseHeld c.ref).notice (.carryGivenUp l c.tag c.bin)

theorem giveUpCarry_eq (l : Nat) (c : Carry) (s : State) :
    State.giveUpCarry l c s = ((s.carryDropped l c).settleOrder c.ref.order).oweScan.oweDrain := rfl

theorem Settles.giveUpCarry {s₀ s : State} (h : Settles s₀ s) (l : Nat) (c : Carry) : Settles s₀ (State.giveUpCarry l c s) := by
  have dropped : Settles s₀ (s.modLift l fun r => { r with carries := r.carries.filter fun d => ¬ d.tag = c.tag }) :=
    h.modLift _ _
  rw [giveUpCarry_eq, State.carryDropped, State.carryLeft]
  cases c.leg with
  | up => exact (((((dropped.releaseReservation _).releaseHeld _).work _).settleOrder _).work _).work _
  | down => exact ((((dropped.releaseHeld _).work _).settleOrder _).work _).work _

section
variable {s : State} {l : Nat} {c : Carry}

theorem carryLeft_lift (ht : s.Tidy) (k : Nat) : (s.carryLeft l c).lift k =
    if k = l then (s.lift l).dropCarry c.tag else s.lift k := by
  have left := s.modLift_lift l k (Lift.dropCarry c.tag) ht.lifts.1
  unfold State.carryLeft
  cases c.leg with
  | up => exact left
  | down => exact left

theorem carryLeft_station (ht : s.Tidy) (k : Nat) : (s.carryLeft l c).station k = if k = c.station ∧ c.leg = .up then
    { s.station k with reservations := (s.station k).reservations - 1 } else s.station k := by
  unfold State.carryLeft
  cases c.leg with
  | up =>
    refine (Tab.get_set s.desk.stations Station.powerOn c.station k _ ht.stations.1).trans ?_
    by_cases hk : k = c.station
    · subst hk
      rw [if_pos rfl, if_pos ⟨rfl, rfl⟩]
      rfl
    · rw [if_neg hk, if_neg fun h => hk h.1]
      rfl
  | down => exact (if_neg fun h => nomatch h.2).symm

theorem carryLeft_rest : s.carryLeft l c = { s with
    pool := { s.pool with lifts := (s.carryLeft l c).pool.lifts }
    desk := { s.desk with stations := (s.carryLeft l c).desk.stations }
    work := { s.work with admission := s.work.admission || decide (c.leg = .up) } } := by
  unfold State.carryLeft
  cases c.leg with
  | up =>
    have owed : (s.work.admission || decide (Leg.up = .up)) = true := Bool.or_true _
    dsimp only
    rw [owed]
    rfl
  | down =>
    have owed : (s.work.admission || decide (Leg.down = .up)) = s.work.admission := Bool.or_false _
    dsimp only
    rw [owed]
    rfl

theorem carryDropped_spec (ht : s.Tidy) :
    let u := s.carryDropped l c
    let held := ∃ m, s.member c.ref = some m ∧ m.held ≠ 0
    (∀ k, u.lift k = if k = l then { s.lift l with carries := (s.lift l).carries.filter fun y => decide (y.tag ≠ c.tag) }
      else s.lift k) ∧
    (∀ k, u.station k = if k = c.station ∧ c.leg = .up then
      { s.station k with reservations := (s.station k).reservations - 1 } else s.station k) ∧
    (∀ k, u.order k = (s.order k).map fun p => if k = c.ref.order then
      { p with members := p.members.modify c.ref.pos fun x => { x with held := 0 } } else p) ∧
    u.work.admission = (s.work.admission || decide (c.leg = .up ∨ held)) ∧
    u.work.drain = (s.work.drain || decide held) ∧
    u = { s with
      pool := { s.pool with lifts := u.pool.lifts }
      desk := { s.desk with stations := u.desk.stations, orders := u.desk.orders }
      work := { s.work with
        up := s.work.up ++ [.notice (.carryGivenUp l c.tag c.bin)]
        admission := u.work.admission, drain := u.work.drain } } := by
  intro u held
  let t := s.carryLeft l c
  have left : t = _ := carryLeft_rest
  have given : t.releaseHeld c.ref = _ := releaseHeld_rest
  have orders (k : Nat) : t.order k = s.order k := congrArg (·.order k) left
  have member : t.member c.ref = s.member c.ref := congrArg (·.member c.ref) left
  obtain ⟨admission, drain⟩ := releaseHeld_owed (s := t) (r := c.ref)
  rw [member] at admission drain
  refine ⟨fun k => (congrArg (·.lift k) given).trans (carryLeft_lift ht k),
    fun k => (congrArg (·.station k) given).trans (carryLeft_station ht k),
    fun k => (releaseHeld_order k).trans (congrArg _ (orders k)), ?_, ?_, ?_⟩
  · refine admission.trans ?_
    rw [congrArg (·.work.admission) left, Bool.or_assoc, Bool.decide_or]
  · exact drain.trans (congrArg (·.work.drain || _) left)
  · have rest : u = { t with
        desk := { t.desk with orders := u.desk.orders }
        work := { t.work with
          up := t.work.up ++ [UpMsg.notice (.carryGivenUp l c.tag c.bin)]
          admission := u.work.admission, drain := u.work.drain } } :=
      congrArg (fun v : State => v.notice (.carryGivenUp l c.tag c.bin)) given
    have lifts : u.pool.lifts = t.pool.lifts := congrArg (·.pool.lifts) rest
    have stations : u.desk.stations = t.desk.stations := congrArg (·.desk.stations) rest
    rw [lifts, stations]
    exact rest.trans (congrArg (fun v : State => { v with
      desk := { v.desk with orders := u.desk.orders }
      work := { v.work with
        up := v.work.up ++ [UpMsg.notice (.carryGivenUp l c.tag c.bin)]
        admission := u.work.admission, drain := u.work.drain } }) left)

end

/-! ## Words -/

theorem Word.seq_eq_some (w : Word) (q : Nat) : w.seq = some q ↔ w = .on q ∨ w = .tail q := by
  cases w <;> simp [Word.seq]

theorem Word.member_eq (w : Word) : w.member = w.seq.isSome := by cases w <;> rfl

theorem State.rotationSize_eq (s : State) : s.rotationSize = (List.range 6).countP fun l => (s.lift l).word.seq.isSome :=
  congrArg (List.countP · (List.range 6)) (funext fun l => (s.lift l).word.member_eq)

section
variable {s : State} {l : Nat}

/-- What JOIN does (R109). -/
def joinBody (tag : BitVec 16) (l : Fin 6) (s : State) : State × (State → Answer) :=
  match s.judgeJoin l with
  | some r => (s, fun _ => .refused tag.toNat kindCommand r)
  | none => (s.askLift l, fun _ => .done tag.toNat kindCommand (be 1 (s.lift l).givenUp.length))

theorem exec_join (tag : BitVec 16) (l : Fin 6) (s : State) : exec (.join tag l) s = s.live (s.request (joinBody tag l)) := rfl

theorem join_refused (hr : s.running) {tag : BitVec 16} {l : Fin 6} {r : Reason} (h : s.beginEvent.judgeJoin l = some r) :
    exec (.join tag l) s = .next (s.onlyAnswers (.refused tag.toNat 7 r)) := by
  have refuses : joinBody tag l s.beginEvent = (s.beginEvent, fun _ => .refused tag.toNat 7 r) := by
    unfold joinBody
    rw [h]
    rfl
  rw [exec_join, request_answers hr refuses]

theorem judgeJoin_wrong (h : ¬ (((s.lift l).word = .off ∨ (s.lift l).word = .bar) ∧ ∃ a, s.liftAddress l = some a)) :
    s.judgeJoin l = some .wrongState := by
  refine if_pos ?_
  cases ha : s.liftAddress l with
  | none => exact .inr (.inr rfl)
  | some a =>
    cases hw : (s.lift l).word with
    | off => exact absurd ⟨.inl hw, a, ha⟩ h
    | bar => exact absurd ⟨.inr hw, a, ha⟩ h
    | ask => exact .inl rfl
    | on q => exact .inr (.inl rfl)
    | tail q => exact .inr (.inl rfl)

theorem judgeJoin_joinable {a : Nat} (hw : (s.lift l).word = .off ∨ (s.lift l).word = .bar) (ha : s.liftAddress l = some a) :
    s.judgeJoin l = if (s.zone (s.lift l).zone).state = .clear then none else some .zoneShut := by
  refine (if_neg ?_).trans ?_
  · rw [ha]
    obtain hw | hw := hw <;> simp [hw, Word.member]
  · simp [State.zoneClear]

/-- A lift asked to join, its carries given up (R109). -/
theorem askLift_spec (ht : s.Tidy) {a : Nat} (ha : s.liftAddress l = some a) :
    let t := forEach (s.lift l).givenUp (State.giveUpCarry l) s
    (∀ k, (s.askLift l).lift k = if k = l then
      { t.lift l with word := .ask, answerTimer := some (s.now + (s.lift l).answerLimit) } else t.lift k) ∧
    s.askLift l = { t with
      pool := { t.pool with lifts := (s.askLift l).pool.lifts }
      work := { t.work with
        down := t.work.down ++
          [{ telegram := { dest := a, src := 126, kind := 26, tag := 0, body := [1#8, 0#8] }, cls := .kept }]
        scan := true } } := by
  intro t
  have given : Settles s t := forEach_induct (Settles s) _ (fun c u h => h.giveUpCarry l c) _ _ (.refl ht)
  have limit : (t.lift l).answerLimit = (s.lift l).answerLimit :=
    congrArg (fun x : Standing => (x.lift l).answerLimit) given.standing
  have address : t.liftAddress l = some a := (congrArg (fun x : Standing => addressOf (.lift l) x.link.addresses) given.standing).trans ha
  let v := t.modLift l fun r => { r with word := .ask, answerTimer := s.after r.answerLimit }
  have asked (k : Nat) : v.lift k = if k = l then
      { t.lift l with word := .ask, answerTimer := some (s.now + (s.lift l).answerLimit) } else t.lift k := by
    rw [← limit]
    exact t.modLift_lift l k _ given.tidy.lifts.1
  have sent : s.askLift l = (v.modWork fun w => { w with down := w.down ++
      [{ telegram := { dest := a, src := 126, kind := 26, tag := 0, body := [1#8, 0#8] }, cls := .kept }] }).oweScan := by
    have own : v.liftAddress l = some a := address
    have word : (v.lift l).word = .ask := by rw [asked, if_pos rfl]
    show (v.sendMember l).oweScan = _
    rw [State.sendMember, own, word]
    rfl
  rw [sent]
  exact ⟨asked, rfl⟩

/-! ## LEAVE -/

/-- What LEAVE does (R112). -/
def leaveBody (tag : BitVec 16) (l : Fin 6) (s : State) : State × (State → Answer) :=
  if (s.lift l).word = .off ∨ (s.lift l).word = .bar then (s, fun _ => .refused tag.toNat kindCommand .wrongState)
  else (s.releaseLift l, fun _ => .done tag.toNat kindCommand (be 1 (s.lift l).carries.length))

theorem exec_leave (tag : BitVec 16) (l : Fin 6) (s : State) : exec (.leave tag l) s = s.live (s.request (leaveBody tag l)) := rfl

/-- A lift has left, the field not yet told (R112). -/
def State.leaving (s : State) (l : Nat) : State := (s.removeLift l .off).modLift l fun r => { r with answerTimer := none }

/-- From `s` to `t` only lifts have changed. -/
def LiftsAlone (s t : State) : Prop := t = { s with pool := { s.pool with lifts := t.pool.lifts } }

theorem LiftsAlone.trans {s t u : State} (h : LiftsAlone s t) (k : LiftsAlone t u) : LiftsAlone s u :=
  Eq.trans k (congrArg (fun v : State => { v with pool := { v.pool with lifts := u.pool.lifts } }) h)

theorem forEachLift_alone (xs : List Nat) (f : Nat → Lift → Lift) (s : State) :
    LiftsAlone s (forEach xs (fun k t => t.modLift k (f k)) s) :=
  forEach_induct (LiftsAlone s) _ (fun k u h => h.trans (show LiftsAlone u (u.modLift k (f k)) from rfl)) _ _ rfl

theorem LiftsAlone.setPointer {s t : State} (h : LiftsAlone s t) (n : Nat) :
    (t.modPool fun p => { p with pointer := n }) =
      { s with pool := { s.pool with lifts := t.pool.lifts, pointer := n } } :=
  congrArg (fun v : State => v.modPool fun p => { p with pointer := n }) h

/-- A removal from the rotation changes lifts and the pointer alone (R111). -/
theorem removeLift_rest {q : Nat} {w : Word} (hq : (s.lift l).word.seq = some q) :
    s.removeLift l w = { s with pool := { s.pool with
      lifts := (s.removeLift l w).pool.lifts, pointer := pointerAfter s.pool.pointer q s.rotationSize } } := by
  have alone := LiftsAlone.trans (show LiftsAlone s (s.setWord l w) from rfl)
    (forEachLift_alone allLifts (fun _ r => { r with word := r.word.renumber q (s.rotationSize - 2) }) (s.setWord l w))
  have rest := alone.setPointer (pointerAfter s.pool.pointer q s.rotationSize)
  have removed := removeLift_member (w := w) hq
  rw [← removed] at rest
  have lifts := congrArg (·.pool.lifts) rest
  dsimp only at lifts
  rw [← lifts] at rest
  exact rest

/-- A lift that is none of the part's. -/
theorem removeLift_lift_other (ht : s.Tidy) (hl : l < 6) {q : Nat} {w : Word} (hq : (s.lift l).word.seq = some q) {k : Nat}
    (hk : 6 ≤ k) : (s.removeLift l w).lift k = s.lift k := by
  have set : (s.setWord l w).Tidy := Kept.tidy_setLift ht l _
  have beyond : k ∉ allLifts := fun h => absurd (mem_allLifts.1 h) (by omega)
  have others := forEachLift_lift set (fun _ r => { r with word := r.word.renumber q (s.rotationSize - 2) })
    (ls := allLifts) List.nodup_range k
  rw [if_neg beyond] at others
  rw [removeLift_member hq, setPointer_lift, others, State.setWord]
  exact s.modLift_lift_ne l k _ (by omega)

/-- A lift in ASK that leaves (R112). -/
theorem leaving_asked (ht : s.Tidy) (hw : (s.lift l).word = .ask) :
    (∀ k, (s.leaving l).lift k = if k = l then { s.lift l with word := .off, answerTimer := none } else s.lift k) ∧
      LiftsAlone s (s.leaving l) := by
  have idle : s.removeLift l .off = s.setWord l .off := removeLift_idle (by rw [hw]; rfl)
  have set : (s.setWord l .off).Tidy := Kept.tidy_setLift ht l _
  rw [State.leaving, idle]
  refine ⟨fun k => ?_, rfl⟩
  rw [State.modLift_lift _ _ _ _ set.lifts.1, State.setWord, State.modLift_lift _ _ _ _ ht.lifts.1,
    State.modLift_lift _ _ _ _ ht.lifts.1, if_pos rfl]
  split <;> rfl

/-- A lift in rotation that leaves, the others renumbered (R111, R112). -/
theorem leaving_member (ht : s.Tidy) (hl : l < 6) {q : Nat} (hq : (s.lift l).word.seq = some q) :
    (∀ k, k < 6 → (s.leaving l).lift k =
      if k = l then { s.lift l with word := .off, answerTimer := none }
      else { s.lift k with word := (s.lift k).word.renumber q (s.rotationSize - 2) }) ∧
    (∀ k, 6 ≤ k → (s.leaving l).lift k = s.lift k) ∧
    s.leaving l = { s with pool := { s.pool with
      lifts := (s.leaving l).pool.lifts, pointer := pointerAfter s.pool.pointer q s.rotationSize } } := by
  have removed : (s.removeLift l .off).Tidy := Kept.tidy_removeLift ht l .off
  have rest := removeLift_rest (w := .off) hq
  refine ⟨fun k hk => ?_, fun k hk => ?_, ?_⟩
  · rw [State.leaving, State.modLift_lift _ _ _ _ removed.lifts.1, removeLift_lift ht hq rfl hl, if_pos rfl,
      removeLift_lift ht hq rfl hk]
    split
    · rfl
    · rfl
  · rw [State.leaving, State.modLift_lift_ne _ _ _ _ (by omega), removeLift_lift_other ht hl hq hk]
  · exact (show s.leaving l = { s.removeLift l .off with pool := { (s.removeLift l .off).pool with
      lifts := (s.leaving l).pool.lifts } } from rfl).trans (congrArg (fun v : State => { v with pool := { v.pool with
        lifts := (s.leaving l).pool.lifts } }) rest)

theorem leave_ends (hr : s.running) {tag : BitVec 16} {l : Fin 6} (h : ¬ ((s.lift l).word = .off ∨ (s.lift l).word = .bar)) :
    exec (.leave tag l) s = .next (s.requestEnds ((s.beginEvent.leaving l).tellWords s)
      (.done tag.toNat 7 (be 1 (s.lift l).carries.length))) := by
  have leaves : leaveBody tag l s.beginEvent = ((s.beginEvent.leaving l).tellWords s,
      fun _ => .done tag.toNat 7 (be 1 (s.lift l).carries.length)) := if_neg h
  rw [exec_leave, request_ends hr leaves]

end

/-- Settles O44. -/
theorem joinAndLeave : Obligations.JoinAndLeave := by
  refine ⟨Word.seq_eq_some, State.rotationSize_eq, fun s tag l hr ht => ⟨fun h => join_refused hr (judgeJoin_wrong h),
    fun ⟨hw, a, ha⟩ hz => join_refused hr ?_, fun a hw ha hz => ?_⟩, fun s l c ht => ?_, fun s tag l hr ht =>
      ⟨fun h => ?_, fun h => ?_, fun q hq => ?_⟩⟩
  · exact (judgeJoin_joinable (s := s.beginEvent) hw ha).trans (if_neg hz)
  · obtain ⟨lifts, rest⟩ := askLift_spec (s := s.beginEvent) { ht with } ha
    refine ⟨_, lifts, rest, ?_⟩
    have asks : joinBody tag l s.beginEvent = (s.beginEvent.askLift l,
        fun _ => .done tag.toNat 7 (be 1 (s.lift l).givenUp.length)) := by
      unfold joinBody
      rw [(judgeJoin_joinable (s := s.beginEvent) hw ha).trans (if_pos hz)]
      rfl
    rw [exec_join, request_ends hr asks]
    rfl
  · obtain ⟨lifts, stations, orders, admission, drain, rest⟩ := carryDropped_spec (l := l) (c := c) ht
    exact ⟨_, lifts, stations, orders, admission, drain, rest, giveUpCarry_eq l c s⟩
  · have refuses : leaveBody tag l s.beginEvent = (s.beginEvent, fun _ => .refused tag.toNat 7 .wrongState) := if_pos h
    rw [exec_leave, request_answers hr refuses]
  · obtain ⟨lifts, alone⟩ := leaving_asked (s := s.beginEvent) (l := l) { ht with } h
    refine ⟨_, lifts, alone, leave_ends hr ?_⟩
    rw [h]
    exact fun h => nomatch h
  · obtain ⟨lifts, others, rest⟩ := leaving_member (s := s.beginEvent) { ht with } l.isLt hq
    refine ⟨_, fun k hk => (lifts k hk).trans ?_, others, rest, leave_ends hr ?_⟩
    · split
      · rfl
      · show ({ s.lift k with word := (s.lift k).word.renumber q (s.rotationSize - 2) } : Lift) = _
        cases hw : (s.lift k).word.seq with
        | none =>
          have idle : (s.lift k).word.member = false := by rw [Word.member_eq, hw]; rfl
          rw [Word.renumber_idle _ _ idle]
        | some m =>
          rw [Word.renumber_member _ _ hw]
          rfl
    · rintro (h | h) <;> rw [h] at hq <;> cases hq

end Sys2Proof.Machine
end

section
/-! PROOF (O50). PARKED: what becomes of the job in flight, and the crane's rest (R75, R76, R101). -/

namespace Sys2Proof.Machine

/-! ## Bins changed twice -/

theorem Tab.put_put {α : Type} (t : Tab α) (k : Nat) (v w : α) : (t.put k v).put k w = t.put k w := by
  induction t with
  | nil => simp [Tab.put]
  | cons p t ih =>
    obtain ⟨i, x⟩ := p
    by_cases hlt : k < i
    · simp [Tab.put, hlt]
    · by_cases hk : k = i
      · simp [Tab.put, hk]
      · simp [Tab.put, hlt, hk, ih]

theorem State.putBin_putBin (s : State) (b : Nat) (x y : Bin) : (s.putBin b x).putBin b y = s.putBin b y := by
  simp only [State.putBin, Tab.put_put]

/-- Two changes of one bin are one. -/
theorem State.modBin_modBin (s : State) (b : Nat) (f g : Bin → Bin) :
    (s.modBin b f).modBin b g = s.modBin b fun r => g (f r) := by
  cases hb : s.bin b with
  | none => simp [State.modBin, hb]
  | some r =>
    have put : s.modBin b f = s.putBin b (f r) := by rw [State.modBin, hb]
    have found : (s.putBin b (f r)).bin b = some (f r) := by rw [State.putBin_bin, if_pos rfl]
    have direct : s.modBin b (fun r => g (f r)) = s.putBin b (g (f r)) := by rw [State.modBin, hb]
    rw [put, direct, State.modBin, found]
    exact s.putBin_putBin b _ _

theorem releaseTarget_setBinState (s : State) (b : Nat) (st : BinState) :
    (s.releaseTarget b).setBinState b st = (s.setBinState b st).releaseTarget b :=
  (s.modBin_modBin b _ _).trans
    (s.modBin_modBin b (fun r => { r with state := st }) fun r => { r with target := none }).symm

theorem releaseTarget_requeue (s : State) (a b : Nat) (j : Job) :
    (s.releaseTarget b).requeue a j = (s.requeue a j).releaseTarget b := by
  rw [State.releaseTarget, State.releaseTarget, State.modBin_eq, State.modBin_eq]
  rfl

theorem homePoint_slot {s : State} {b : Nat} {x : Bin} (h : s.bin b = some x) :
    s.homePoint b = .slot x.home.face x.home.level x.home.column := by
  rw [State.homePoint, h]
  rfl

theorem releaseTarget_spec (s : State) (b : Nat) :
    (∀ c, (s.releaseTarget b).bin c = (s.bin c).map fun x => if c = b then { x with target := none } else x) ∧
    s.releaseTarget b = { s with store := { s.store with bins := (s.releaseTarget b).store.bins } } := by
  refine ⟨fun c => ?_, by rw [State.releaseTarget, State.modBin_eq]⟩
  rw [State.releaseTarget, State.modBin_bin]
  split
  · next hc => subst hc; simp
  · simp

theorem removeCancelled_eq (s : State) (j : Job) : s.removeCancelled j =
    match j.owner with
    | .member r => if s.memberState r = some .cancelled then (s.cancelFetch r j.bin).settleOrder r.order else s
    | _ => s := by
  unfold State.removeCancelled
  cases j.owner <;> rfl

/-! ## The job in flight disposed of -/

/-- A change of a bin's state, if any. -/
def State.binTurned (s : State) (b : Nat) : Option BinState → State
  | some st => s.setBinState b st
  | none => s

/-- A job in flight has left its crane: it waits again as `queued`, or its record is free; its bin's state has become
`state`, if that is given (R76). -/
def State.landed (s : State) (a b : Nat) (queued : Option Job) (state : Option BinState) : State :=
  let t := s.modCrane a fun c => { c with flight := none }
  match queued with
  | some q => (t.binTurned b state).requeue a q
  | none => t.recordsFreed.binTurned b state

section
variable {s : State}

theorem binTurned_crane (b : Nat) (state : Option BinState) (k : Nat) : (s.binTurned b state).crane k = s.crane k := by
  cases state with
  | none => rfl
  | some st => exact State.setBinState_crane _ _ _ _

theorem binTurned_bin (b : Nat) (state : Option BinState) (k : Nat) : (s.binTurned b state).bin k =
    (s.bin k).map fun r => if k = b then { r with state := state.getD r.state } else r := by
  cases state with
  | none => simp [State.binTurned]
  | some st =>
    rw [State.binTurned, State.setBinState_bin]
    split
    · next hk => subst hk; simp
    · simp

theorem binTurned_eq (b : Nat) (state : Option BinState) :
    s.binTurned b state = { s with store := { s.store with bins := (s.binTurned b state).store.bins } } := by
  cases state with
  | none => rfl
  | some st => rw [State.binTurned, State.setBinState, State.modBin_eq]

variable {a b : Nat} {queued : Option Job} {state : Option BinState}

theorem landed_crane (ht : s.Tidy) (k : Nat) : (s.landed a b queued state).crane k = if k = a then
    match queued with
    | some q => { s.crane a with flight := none }.setQueue q.cls (q :: { s.crane a with flight := none }.queue q.cls)
    | none => { s.crane a with flight := none }
    else s.crane k := by
  have hw := ht.cranes.1
  have empty (i : Nat) := s.modCrane_crane a i (fun c => { c with flight := none }) hw
  cases queued with
  | none => exact (binTurned_crane b state k).trans (empty k)
  | some q =>
    have ordered : ((s.modCrane a fun c => { c with flight := none }).binTurned b state).dispatch.cranes.wf := by
      rw [binTurned_eq]
      exact Tab.wf_set _ _ _ _ hw
    refine (State.modCrane_crane _ a k _ ordered).trans ?_
    rw [binTurned_crane, binTurned_crane, empty, empty, if_pos rfl]
    split <;> rfl

theorem landed_bin (k : Nat) : (s.landed a b queued state).bin k =
    (s.bin k).map fun r => if k = b then { r with state := state.getD r.state } else r := by
  cases queued with
  | none => exact binTurned_bin b state k
  | some q => exact binTurned_bin b state k

theorem landed_rest : s.landed a b queued state = { s with
    dispatch := { s.dispatch with cranes := (s.landed a b queued state).dispatch.cranes }
    store := { s.store with bins := (s.landed a b queued state).store.bins }
    work := if queued = none then { s.work with admission := true, drain := true } else s.work } := by
  cases queued with
  | none =>
    rw [if_pos rfl]
    dsimp only [State.landed]
    rw [binTurned_eq]
    rfl
  | some q =>
    rw [if_neg nofun]
    dsimp only [State.landed]
    rw [binTurned_eq]
    rfl

end

section
variable {s : State} {a : Fin 12} {position : RawPoint} {load : BitVec 16}

/-! ## PARKED -/

theorem parked_unaddressed (hr : s.running) (ha : s.craneAddress a = none) : HasNoEffect (.parked a position load) s :=
  event_idle hr (if_neg (by simpa [State.craneAddress] using ha))

/-- What PARKED records of the crane's place (R75). -/
def seenAt (x : Crane) (q : Option Point) (l : Option Nat) : Crane :=
  match q with
  | some p => { x with place := some { point := p, load := l } }
  | none => { x with place := none, rejected := countUp x.rejected }

/-- PARKED has recorded the crane's place. -/
def State.seeing (s : State) (a : Nat) (q : Option Point) (l : Option Nat) : State :=
  match q with
  | some p => s.recordPlace a p l
  | none => (s.modCrane a fun c => { c with place := none }).rejectReport a

theorem OnlyCrane.seeing {s u : State} {a : Nat} {x : Crane} {w : Work} (h : OnlyCrane s a x w u) (q : Option Point)
    (l : Option Nat) : OnlyCrane s a (seenAt x q l) w (u.seeing a q l) := by
  cases q with
  | some p => exact h.recordPlace p l
  | none => exact (h.modCrane fun c => { c with place := none }).rejectReport

theorem exec_parked (hr : s.running) (ha : s.craneAddress a ≠ none) : exec (.parked a position load) s =
    .next (s.eventEnds (s.beginEvent.takeParked a ((s.aisle a).position position) (loadOf load))) :=
  event_ends hr (if_pos (Option.isSome_iff_ne_none.2 ha))

theorem takeParked_eq (s : State) (a : Nat) (q : Option Point) (l : Option Nat) : s.takeParked a q l =
    let t := match (s.crane a).flight with
      | some f => (s.seeing a q l).disposeParked a f.job (decide (l = some f.job.bin))
      | none => s.seeing a q l
    if (s.crane a).state = .faulted then t else t.setCraneState a .parked := rfl

end

/-- Settles O50. -/
theorem parkedDisposesOfTheJob : Obligations.ParkedDisposesOfTheJob := by
  refine ⟨fun s b x h => homePoint_slot h, fun s a position load hr ht => ?_, fun s j => ⟨fun h => ?_, fun r h => ?_⟩,
    fun s b => ⟨_, (releaseTarget_spec s b).1, (releaseTarget_spec s b).2, rfl⟩, fun s a j own ht => ?_⟩
  · intro c x carried seen rests
    have seen_eq : seenAt x ((s.aisle a).position position) carried = seen := by
      cases h : (s.aisle a).position position <;> simp only [seen, h] <;> rfl
    have sees := (OnlyCrane.beginEvent a.val ht).seeing ((s.aisle a).position position) carried
    rw [seen_eq] at sees
    refine ⟨parked_unaddressed hr, fun ha hx => sees.becomes ?_, fun f ha hx => sees.becomes ?_⟩
    · rw [exec_parked hr ha, takeParked_eq]
      have flight : (s.beginEvent.crane a).flight = none := hx
      rw [flight]
      rfl
    · rw [exec_parked hr ha, takeParked_eq]
      have flight : (s.beginEvent.crane a).flight = some f := hx
      rw [flight]
      rfl
  · rw [removeCancelled_eq]
    cases ho : j.owner with
    | member r => exact absurd ho (h r)
    | shift => rfl
    | recovery => rfl
  · rw [removeCancelled_eq, h]
    exact ⟨fun hm => if_neg hm, fun hm => if_pos hm⟩
  · intro disposed told
    have disposes (queued : Option Job) (state : Option BinState) (f : State → State)
        (h : s.disposeParked a j own = f (s.landed a j.bin queued state)) : disposed queued state f :=
      ⟨_, landed_crane ht, landed_bin, landed_rest, h⟩
    refine ⟨fun hk ho => disposes (some j) (some .reserved) _ ?_, fun hk ho => disposes none (some .stranded) _ ?_,
      fun hk ho => disposes (some j) none _ ?_,
      fun hk ho hc => disposes (some { j with origin := .crane }) none (fun u => u.leaveLists a j.bin) ?_,
      fun hk ho hc => disposes none (some .adrift) _ ?_, fun hk ho => disposes (some j) (some .reserved) _ ?_,
      fun hk ho => disposes
        (some { j with kind := .store, cls := .house, origin := .crane, dest := s.homePoint j.bin }) (some .out)
        (fun u => (u.releaseTarget j.bin).notice (.shiftEnded j.bin .out .parked)) ?_⟩
    · simp only [State.disposeParked, hk, ho]
      rfl
    · simp only [State.disposeParked, hk, ho, tellFetchLost_eq, told] <;> rfl
    · cases own with
      | true => simp only [State.disposeParked, hk, ho.1 rfl, if_true]; rfl
      | false =>
        have hc : ¬ j.origin = .crane := fun h => nomatch ho.2 h
        simp only [State.disposeParked, hk, if_neg hc]
        rfl
    · simp only [State.disposeParked, hk, ho, if_neg hc]
      rfl
    · simp only [State.disposeParked, hk, ho, hc, if_true, tellStoreLost_eq, told] <;> rfl
    · simp only [State.disposeParked, hk, ho]
      rfl
    · simp only [State.disposeParked, hk, ho, releaseTarget_setBinState, releaseTarget_requeue]
      rfl

end Sys2Proof.Machine
end

section
/-! PROOF (O51). INFEED, and the load that a ready crane reports (R77, R78). -/

namespace Sys2Proof.Machine

/-- A law that asks for nothing carries the canonical form of the tables along. -/
theorem Kept.of_tidy {s : State} (h : s.Tidy) : Kept (fun _ => True) s := ⟨Neutral.trivial, h, trivial⟩

theorem State.binHeld_iff (s : State) (b : Nat) : s.binHeld b = true ↔
    (∃ j ∈ s.jobs, j.bin = b) ∨ (∃ y ∈ s.carries, y.bin = b) ∨ (∃ e ∈ s.pool.waitList, e.bin = b) ∨
      ∃ p ∈ s.desk.stations, ∃ y ∈ p.2.lane, y.bin = b := by
  simp only [State.binHeld, State.carryNames, State.waits, State.inLane, Bool.or_eq_true, List.any_eq_true,
    decide_eq_true_eq, or_assoc]

/-! ## Recovery -/

/-- A recovery store stands in its queue, its bin OUT and off the lists that the rule names, its aisle not yet tested. -/
def State.recovering (s : State) (a b : Nat) (origin : Point) : State :=
  ((s.setBinState b .out).notice (.recoveryQueued a b origin)).modCrane a fun c => { c with houseQueue := c.houseQueue ++
    [{ kind := .store, cls := .house, bin := b, origin, dest := s.homePoint b, owner := .recovery }] }

section
variable {s : State} {a b : Nat} {origin : Point}

theorem recovering_bin (k : Nat) : (s.recovering a b origin).bin k =
    (s.bin k).map fun x => if k = b then { x with state := .out } else x := by
  refine (State.setBinState_bin _ _ _ _).trans ?_
  split
  · next hk => subst hk; simp
  · simp

theorem recovering_crane (hw : s.dispatch.cranes.wf) (k : Nat) : (s.recovering a b origin).crane k = if k = a then
    { s.crane a with houseQueue := (s.crane a).houseQueue ++
      [{ kind := .store, cls := .house, bin := b, origin, dest := s.homePoint b, owner := .recovery }] }
    else s.crane k := by
  refine (State.modCrane_crane _ a k _ ?_).trans ?_
  · exact (State.setBinState_dispatch s b .out).symm ▸ hw
  · refine if_congr Iff.rfl ?_ ?_
    · rw [State.notice_crane, State.setBinState_crane]
    · rw [State.notice_crane, State.setBinState_crane]

theorem recovering_rest : s.recovering a b origin = { s with
    store := { s.store with bins := (s.recovering a b origin).store.bins }
    dispatch := { s.dispatch with cranes := (s.recovering a b origin).dispatch.cranes }
    work := { s.work with up := s.work.up ++ [.notice (.recoveryQueued a b origin)] } } := by
  rw [State.recovering, State.setBinState, State.modBin_eq]
  rfl

theorem requestRecovery_full {leave : State → State} (h : s.freeCount = 0) : s.requestRecovery a b origin leave =
    s.modCrane a fun c => { c with refusedRecoveries := countUp c.refusedRecoveries } :=
  if_neg (by omega)

theorem requestRecovery_queued {leave : State → State} (h : s.freeCount ≠ 0)
    (hp : (leave s).homePoint b = s.homePoint b) : s.requestRecovery a b origin leave =
    ((leave s).recovering a b origin).dispatchTest a := by
  rw [State.requestRecovery, if_pos (by omega), State.recovering, hp]
  rfl

/-- Where a bin's home lies outlasts what the tests at the end of an event may do. -/
theorem homePoint_settles {t : State} (h : Settles s t) : t.homePoint b = s.homePoint b := by
  have standing := congrArg (fun x : Standing => x.bin b) h.standing
  have same : (t.bin b).map Bin.standing = (s.bin b).map Bin.standing := standing
  unfold State.homePoint
  cases ht : t.bin b with
  | none =>
    cases hs : s.bin b with
    | none => rfl
    | some r => rw [ht, hs] at same; cases same
  | some q =>
    cases hs : s.bin b with
    | none => rw [ht, hs] at same; cases same
    | some r =>
      rw [ht, hs] at same
      exact congrArg (fun x : BinStanding => x.home.point) (Option.some.inj same)

end

/-! ## INFEED -/

section
variable {s : State} {a : Fin 12} {bin : BitVec 16}

theorem infeed_unaddressed (hr : s.running) (ha : s.craneAddress a = none) : HasNoEffect (.infeed a bin) s :=
  event_idle hr (if_neg (by simpa [State.craneAddress] using ha))

theorem exec_infeed (hr : s.running) (ha : s.craneAddress a ≠ none) :
    exec (.infeed a bin) s = .next (s.eventEnds (s.beginEvent.takeInfeed a bin.toNat)) :=
  event_ends hr (if_pos (Option.isSome_iff_ne_none.2 ha))

theorem infeed_rejected (hr : s.running) (ht : s.Tidy) (ha : s.craneAddress a ≠ none)
    (h : s.beginEvent.takeInfeed a bin.toNat = s.beginEvent.rejectReport a) :
    CraneBecomes s a (.infeed a bin) { s.crane a with rejected := countUp (s.crane a).rejected } Work.empty id :=
  (OnlyCrane.beginEvent a.val ht).rejectReport.becomes (by rw [exec_infeed hr ha, h]; rfl)

end

section
variable {s : State} {a b : Nat} {r : Bin}

theorem infeedStore_iff (s : State) (b : Nat) :
    s.infeedStore b = true ↔ ∃ j ∈ s.jobs, j.kind = .store ∧ j.origin = .infeed ∧ j.bin = b := by
  simp [State.infeedStore, and_assoc]

theorem recoverableAtInfeed_iff (hb : s.bin b = some r) : s.recoverableAtInfeed b = true ↔
    r.state = .adrift ∨ (r.state = .stranded ∧ ¬ ∃ y ∈ s.carries, y.bin = b) ∨ (r.state = .out ∧ ¬ s.binHeld b = true) := by
  rw [← State.carryNames_iff]
  cases hs : r.state <;> simp [State.recoverableAtInfeed, State.binState, hb, hs]

theorem recoverable_iff (hb : s.bin b = some r) : s.recoverable b = true ↔
    r.state = .adrift ∨ (r.state = .stranded ∧ ¬ ∃ y ∈ s.carries, y.bin = b) := by
  rw [← State.carryNames_iff]
  cases hs : r.state <;> simp [State.recoverable, State.binState, hb, hs]

theorem takeInfeed_absent (hb : s.bin b = none) : s.takeInfeed a b = s.rejectReport a := by
  rw [State.takeInfeed, hb]

theorem takeInfeed_present (hb : s.bin b = some r) : s.takeInfeed a b =
    if r.home.aisle ≠ a then s.rejectReport a
    else if s.infeedStore b then s
    else if s.recoverableAtInfeed b then s.requestRecovery a b .infeed fun s => s
    else s.rejectReport a := by
  rw [State.takeInfeed, hb]

/-! ## Loads -/

theorem judgeLoad_none (h : (s.crane a).load = none) : s.judgeLoad a =
    forEach ((s.crane a).queued.filter fun j => decide (j.origin = .crane)) (State.endOrphan a) s := by
  rw [State.judgeLoad, h]

theorem judgeLoad_some (h : (s.crane a).load = some b) : s.judgeLoad a =
    if (s.crane a).queued.any fun j => decide (j.origin = .crane) && decide (j.bin = b) then s
    else if s.recoverable b then
      s.requestRecovery (s.binAisle b) b .crane fun s => forEach allAisles (fun k s => s.leaveLists k b) s
    else s.notice (.unexpectedLoad a b) := by
  rw [State.judgeLoad, h]

theorem fromCrane_iff (c : Crane) (b : Nat) : (c.queued.any fun j => decide (j.origin = .crane) && decide (j.bin = b)) = true ↔
    ∃ j ∈ c.queued, j.origin = .crane ∧ j.bin = b := by
  simp

theorem endOrphan_eq (j : Job) : State.endOrphan a j s = ((s.unqueued a j).setBinState j.bin .adrift).tellStoreLost j := rfl

end

/-- Settles O51. -/
theorem infeedAndLoadsRecoverBins : Obligations.InfeedAndLoadsRecoverBins := by
  refine ⟨fun s => ⟨?_, rfl, rfl⟩, fun x => ?_, fun s a bin hr ht => ?_, fun s a b r ht hl hb => ?_,
    fun s a b hl hb hj => ?_, fun s a hl => judgeLoad_none hl, fun s a j ht => ?_, fun s a b ht => ?_⟩
  · refine congrArg (List.flatMap · s.dispatch.cranes) (funext fun p => ?_)
    unfold Crane.jobs
    cases p.2.flight <;> simp
  · unfold Crane.load
    cases x.place <;> rfl
  · intro c x b rejected expected held lost
    refine ⟨infeed_unaddressed hr, fun ha => ⟨fun hb => infeed_rejected hr ht ha (takeInfeed_absent hb), fun r hb => ?_⟩⟩
    have present := takeInfeed_present (s := s.beginEvent) (a := a) hb
    have stored : s.beginEvent.infeedStore b = true ↔ expected := infeedStore_iff s b
    have recovers : s.beginEvent.recoverableAtInfeed b = true ↔ lost r := by
      refine (recoverableAtInfeed_iff (s := s.beginEvent) hb).trans ?_
      rw [State.binHeld_iff]
      rfl
    have queues (home : r.home.aisle = a) (hx : ¬ expected) (hl : lost r) :
        s.beginEvent.takeInfeed a b = s.beginEvent.requestRecovery a b .infeed fun s => s :=
      present.trans ((if_neg (not_not_intro home)).trans ((if_neg fun h => hx (stored.1 h)).trans (if_pos (recovers.2 hl))))
    refine ⟨fun home => infeed_rejected hr ht ha (present.trans (if_pos home)),
      fun home hx => event_idle hr ((if_pos (Option.isSome_iff_ne_none.2 ha)).trans
        (present.trans ((if_neg (not_not_intro home)).trans (if_pos (stored.2 hx))))),
      fun home hx hl => infeed_rejected hr ht ha (present.trans ((if_neg (not_not_intro home)).trans
        ((if_neg fun h => hx (stored.1 h)).trans (if_neg fun h => hl (recovers.1 h))))),
      fun home hx hl hf => ?_, fun home hx hl hf => ?_⟩
    · have refuses := (OnlyCrane.beginEvent a.val ht).modCrane fun c =>
        { c with refusedRecoveries := countUp c.refusedRecoveries }
      refine refuses.becomes ?_
      rw [exec_infeed hr ha, queues home hx hl, requestRecovery_full (s := s.beginEvent) hf]
      rfl
    · intro j
      have dest : s.beginEvent.homePoint b = j.dest := homePoint_slot hb
      refine ⟨s.beginEvent.recovering a b .infeed, fun k => ?_, fun k => ?_, recovering_rest, ?_⟩
      · refine (recovering_bin k).trans ?_
        show (s.bin k).map _ = _
        split
        · next hk => subst hk; rw [hb]; rfl
        · cases s.bin k <;> rfl
      · refine (recovering_crane (s := s.beginEvent) ht.cranes.1 k).trans ?_
        rw [dest]
        rfl
      · rw [exec_infeed hr ha, queues home hx hl, requestRecovery_queued (s := s.beginEvent) hf rfl]
  · intro fromCrane lost home
    have judged := judgeLoad_some hl
    have expects := fromCrane_iff (s.crane a) b
    have recovers : s.recoverable b = true ↔ lost := recoverable_iff hb
    have aisle : s.binAisle b = home := by rw [State.binAisle, hb]
    rw [aisle] at judged
    refine ⟨fun hx => judged.trans (if_pos (expects.2 hx)), fun hx hl => judged.trans
      ((if_neg fun h => hx (expects.1 h)).trans (if_neg fun h => hl (recovers.1 h))), fun hx hl hf => ?_, fun hx hl hf => ?_⟩
    · refine ⟨_, fun k => State.modCrane_crane s home k _ ht.cranes.1, rfl, judged.trans
        ((if_neg fun h => hx (expects.1 h)).trans ((if_pos (recovers.2 hl)).trans (requestRecovery_full hf)))⟩
    · intro j v
      have left : Settles s v := (Settles.refl ht).forEach _ _ fun k _ h => h.leaveLists k b
      have dest : v.homePoint b = j.dest := (homePoint_settles left).trans (homePoint_slot hb)
      refine ⟨v.recovering home b .crane, recovering_bin, fun k => ?_, recovering_rest, judged.trans
        ((if_neg fun h => hx (expects.1 h)).trans ((if_pos (recovers.2 hl)).trans
          (requestRecovery_queued hf (homePoint_settles left))))⟩
      refine (recovering_crane left.tidy.cranes.1 k).trans ?_
      rw [dest]
  · refine (judgeLoad_some hl).trans ((if_neg fun h => hj ((fromCrane_iff _ _).1 h)).trans (if_neg ?_))
    simp [State.recoverable, State.binState, hb]
  · refine ⟨(s.unqueued a j).setBinState j.bin .adrift, fun k => ?_, fun c => ?_, ?_, ?_⟩
    · rw [State.setBinState_crane]
      exact unqueued_cranes ht k
    · rw [State.setBinState_bin]
      show (if c = j.bin then (s.bin j.bin).map _ else s.bin c) = _
      split
      · next hc => subst hc; simp
      · simp
    · rw [State.setBinState, State.modBin_eq]
      rfl
    · refine (endOrphan_eq j).trans ((tellStoreLost_eq _ j).trans ?_)
      cases j.owner <;> rfl
  · intro front
    refine ⟨fun h => if_neg h, fun h => ⟨_, fun k => State.modCrane_crane s a k _ ht.cranes.1, rfl, if_pos h⟩, fun h => if_neg h,
      fun h => ⟨(s.modCrane a fun c => { c with infeed := c.infeed.erase b }).oweScan,
        fun k => s.modCrane_crane a k (fun c => { c with infeed := c.infeed.erase b }) ht.cranes.1, rfl, if_pos h⟩,
      rfl⟩

end Sys2Proof.Machine
end

section
/-! PROOF (O49). The move deadline, FAULT, CLEAR_FAULT and the job in flight that they end (R70 to R72, R92, R101). -/

namespace Sys2Proof.Machine

theorem OnlyCrane.notice {s u : State} {a : Nat} {x : Crane} {w : Work} (h : OnlyCrane s a x w u) (n : Notice) :
    OnlyCrane s a x { w with up := w.up ++ [.notice n] } (u.notice n) where
  cranes := h.cranes
  rest := by
    rw [← h.work_eq]
    exact congrArg (fun v : State => { v with work := { u.work with up := u.work.up ++ [UpMsg.notice n] } }) h.rest
  ordered := h.ordered

/-! ## The reports -/

section
variable {s : State} {a : Fin 12}

/-- What the expiry of a move deadline does (R70). -/
def moveDeadlineBody (a : Fin 12) (s : State) : State :=
  match (s.crane a).flight with
  | some f => if f.timer.isSome then s.missDeadline a f else s
  | none => s

theorem exec_moveDeadlineExpiry (a : Fin 12) (s : State) :
    exec (.moveDeadlineExpiry a) s = s.live (s.event (moveDeadlineBody a)) := rfl

theorem moveDeadline_idle (h : ∀ f, (s.crane a).flight = some f → f.timer = none) : moveDeadlineBody a s = s := by
  unfold moveDeadlineBody
  split
  · next f hf => rw [h f hf]; rfl
  · rfl

theorem moveDeadline_missed {f : Flight} (hf : (s.crane a).flight = some f) (hx : f.timer ≠ none) :
    moveDeadlineBody a s = s.missDeadline a f := by
  rw [moveDeadlineBody, hf]
  exact if_pos (Option.isSome_iff_ne_none.2 hx)

theorem fault_unaddressed {code : BitVec 8} {job : Option (BitVec 16)} (hr : s.running) (ha : s.craneAddress a = none) :
    HasNoEffect (.fault a code job) s :=
  event_idle hr (if_neg (by simpa [State.craneAddress] using ha))

theorem exec_fault {code : BitVec 8} {job : Option (BitVec 16)} (hr : s.running) (ha : s.craneAddress a ≠ none) :
    exec (.fault a code job) s = .next (s.eventEnds (s.beginEvent.takeFault a code.toNat job.isSome)) :=
  event_ends hr (if_pos (Option.isSome_iff_ne_none.2 ha))

/-- A FAULT has made the crane FAULTED, a job that it names without one in flight counted (R71). -/
def State.faulting (s : State) (a code : Nat) (counted : Bool) : State :=
  let t := (s.modCrane a fun c => { c with faultCode := some code }).setCraneState a .faulted
  if counted then t.unmatchedReport a else t

theorem takeFault_taken {a code : Nat} {named : Bool} (h : code ≠ 0) : s.takeFault a code named =
    ((s.faulting a code ((s.crane a).jobNamed.isNone && named)).endFlight a .fault).notice
      (.craneFault a .reported (some code) (s.crane a).jobNamed) :=
  if_neg h

theorem OnlyCrane.faulting {s u : State} {a : Nat} {x : Crane} {w : Work} (h : OnlyCrane s a x w u) (code : Nat)
    (counted : Bool) : OnlyCrane s a
      { x with
        state := .faulted, faultCode := some code, unmatched := if counted then countUp x.unmatched else x.unmatched }
      { w with control := w.control || decide (x.state ≠ .faulted) } (u.faulting a code counted) := by
  have faulted := (h.modCrane fun c => { c with faultCode := some code }).setCraneState .faulted
  cases counted with
  | false => exact faulted
  | true => exact faulted.modCrane fun c => { c with unmatched := countUp c.unmatched }

variable {tag : BitVec 16}

/-- What CLEAR_FAULT does (R72). -/
def clearFaultBody (tag : BitVec 16) (a : Fin 12) (s : State) : State × (State → Answer) :=
  if (s.crane a).state = .faulted then
    (((s.modCrane a fun c => { c with faultCode := none, place := none }).setCraneState a .offline).endFlight a .clearFault,
      fun _ => .done tag.toNat kindCommand (jobBytes (s.crane a).jobNamed))
  else (s, fun _ => .refused tag.toNat kindCommand .wrongState)

theorem exec_clearFault (tag : BitVec 16) (a : Fin 12) (s : State) :
    exec (.clearFault tag a) s = s.live (s.request (clearFaultBody tag a)) := rfl

end

/-! ## The job in flight -/

/-- A job in flight has failed, its bin STRANDED and its record free, its member not yet told (R71, R72). -/
def State.failing (s : State) (a : Nat) (j : Job) (cause : ShiftCause) : State :=
  let t := s.landed a j.bin none (some .stranded)
  if j.kind = .relocate then (t.releaseTarget j.bin).notice (.shiftEnded j.bin .stranded cause) else t

section
variable {s : State} {a : Nat} {j : Job} {cause : ShiftCause}

theorem failing_crane (ht : s.Tidy) (k : Nat) : (s.failing a j cause).crane k =
    if k = a then { s.crane a with flight := none } else s.crane k := by
  have landed := landed_crane (a := a) (b := j.bin) (queued := none) (state := some .stranded) ht k
  unfold State.failing
  dsimp only
  split
  · rw [State.notice_crane, State.releaseTarget, State.modBin_crane]
    exact landed
  · exact landed

theorem failing_bin (b : Nat) : (s.failing a j cause).bin b = (s.bin b).map fun r => if b = j.bin then
    { r with state := .stranded, target := if j.kind = .relocate then none else r.target } else r := by
  have landed := landed_bin (s := s) (a := a) (b := j.bin) (queued := none) (state := some .stranded) b
  unfold State.failing
  dsimp only
  by_cases hk : j.kind = .relocate
  · rw [if_pos hk, State.notice_bin, (releaseTarget_spec _ _).1, landed]
    cases s.bin b with
    | none => rfl
    | some r => by_cases hb : b = j.bin <;> simp [hb, hk]
  · rw [if_neg hk, landed]
    simp [hk]

theorem failing_rest : s.failing a j cause = { s with
    dispatch := { s.dispatch with cranes := (s.failing a j cause).dispatch.cranes }
    store := { s.store with bins := (s.failing a j cause).store.bins }
    work := { s.work with
      admission := true, drain := true
      up := if j.kind = .relocate then s.work.up ++ [.notice (.shiftEnded j.bin .stranded cause)] else s.work.up } } := by
  have landed := landed_rest (s := s) (a := a) (b := j.bin) (queued := none) (state := some .stranded)
  rw [if_pos rfl] at landed
  by_cases hk : j.kind = .relocate
  · have fails : s.failing a j cause = ((s.landed a j.bin none (some .stranded)).releaseTarget j.bin).notice
      (.shiftEnded j.bin .stranded cause) := if_pos hk
    rw [if_pos hk, fails, (releaseTarget_spec _ _).2, landed]
    rfl
  · have fails : s.failing a j cause = s.landed a j.bin none (some .stranded) := if_neg hk
    rw [if_neg hk, fails]
    exact landed

theorem endFailed_eq : s.endFailed a j cause =
    match j.owner with
    | .member r =>
      if j.kind = .fetch then (s.failing a j cause).fetchLost r .stranded
      else if j.kind = .store then (s.failing a j cause).storeLost r else s.failing a j cause
    | _ => s.failing a j cause := by
  have landed : ((s.modCrane a fun c => { c with flight := none }).recordsFreed).setBinState j.bin .stranded =
    s.landed a j.bin none (some .stranded) := rfl
  simp only [State.endFailed, landed, tellFetchLost_eq, tellStoreLost_eq, State.failing]
  cases j.kind <;> cases j.owner <;> rfl

end

/-! ## A member lost -/

/-- A member in state `x` is lost by becoming `st`. -/
abbrev MemberState.loses (x st : MemberState) : Prop := x ≠ .cancelled ∧ x ≠ st

section
variable {s : State} {r : MemberRef} {m : Member} {st : MemberState}

theorem loseMember_lost (hm : s.member r = some m) (h : m.state.loses st) :
    s.loseMember r st = (s.setMember r st).notice (.memberLost r.order r.pos m.bin st) := by
  rw [State.loseMember, hm]
  exact if_neg fun hx => hx.elim h.1 h.2

theorem loseMember_kept (hm : s.member r = some m) (h : ¬ m.state.loses st) : s.loseMember r st = s := by
  rw [State.loseMember, hm]
  exact if_pos (by by_contra hx; exact h ⟨fun hc => hx (.inl hc), fun hc => hx (.inr hc)⟩)

theorem loseMember_order (hm : s.member r = some m) (k : Nat) : (s.loseMember r st).order k = (s.order k).map fun p =>
    if k = r.order then { p with members := p.members.modify r.pos fun x =>
      { x with state := if m.state.loses st then st else x.state } } else p := by
  by_cases h : m.state.loses st
  · rw [loseMember_lost hm h, State.notice_order]
    simp only [if_pos h]
    exact s.modMember_order r _ k
  · have same (x : Member) : { x with state := if m.state.loses st then st else x.state } = x := by rw [if_neg h]
    rw [loseMember_kept hm h]
    simp [same, show (fun x : Member => x) = id from rfl, List.modify_id]

theorem loseMember_rest (hm : s.member r = some m) : s.loseMember r st = { s with
    desk := { s.desk with orders := (s.loseMember r st).desk.orders }
    work := { s.work with
      up := if m.state.loses st then s.work.up ++ [.notice (.memberLost r.order r.pos m.bin st)] else s.work.up } } := by
  by_cases h : m.state.loses st
  · rw [loseMember_lost hm h, if_pos h]
    rfl
  · rw [loseMember_kept hm h, if_neg h]

/-- A member's FETCH is lost, its order not yet tested (R92, R101). -/
def State.losingFetch (s : State) (r : MemberRef) (st : MemberState) : State :=
  let t := s.loseMember r st
  (if s.memberState r = some .cancelled then t else t.releaseReservation (s.orderStation r.order)).releaseHeld r

theorem fetchLost_eq : s.fetchLost r st = (s.losingFetch r st).settleOrder r.order := rfl

theorem releaseReservation_order (i k : Nat) : (s.releaseReservation i).order k = s.order k := rfl

theorem releaseReservation_station (ht : s.Tidy) (i k : Nat) : (s.releaseReservation i).station k =
    if k = i then { s.station i with reservations := (s.station i).reservations - 1 } else s.station k :=
  Tab.get_set s.desk.stations Station.powerOn i k _ ht.stations.1

theorem releaseHeld_station (k : Nat) : (s.releaseHeld r).station k = s.station k :=
  (congrArg (fun v : State => v.station k) releaseHeld_rest).trans rfl

section
variable {o : Order} (ht : s.Tidy) (ho : s.order r.order = some o) (hm : o.members[r.pos]? = some m)
include ho hm

theorem member_of_order : s.member r = some m := by
  rw [State.member, ho]
  exact hm

theorem losingFetch_cancelled (hc : m.state = .cancelled) : s.losingFetch r st = s.releaseHeld r := by
  have found := member_of_order ho hm
  have state : s.memberState r = some .cancelled := by rw [State.memberState, found, ← hc]; rfl
  rw [State.losingFetch, if_pos state, loseMember_kept found fun h => h.1 hc]

theorem losingFetch_live (hc : m.state ≠ .cancelled) :
    s.losingFetch r st = ((s.loseMember r st).releaseReservation o.station).releaseHeld r := by
  have found := member_of_order ho hm
  have state : s.memberState r ≠ some .cancelled := by
    rw [State.memberState, found]
    exact fun h => hc (Option.some.inj h)
  have station : s.orderStation r.order = o.station := by rw [State.orderStation, ho]
  rw [State.losingFetch, if_neg state, station]

theorem losingFetch_order (k : Nat) : (s.losingFetch r st).order k = (s.order k).map fun p => if k = r.order then
    { p with members := p.members.modify r.pos fun x =>
      { x with state := if m.state.loses st then st else x.state, held := 0 } } else p := by
  have found := member_of_order ho hm
  have lost := loseMember_order (st := st) found k
  by_cases hc : m.state = .cancelled
  · rw [losingFetch_cancelled ho hm hc, releaseHeld_order]
    simp only [if_neg fun h : m.state.loses st => h.1 hc]
  · rw [losingFetch_live ho hm hc, releaseHeld_order, releaseReservation_order, lost]
    cases s.order k with
    | none => rfl
    | some p => by_cases hk : k = r.order <;> simp [hk, List.modify_modify_eq, Function.comp_def]

include ht in
theorem losingFetch_station (k : Nat) : (s.losingFetch r st).station k = if k = o.station ∧ m.state ≠ .cancelled then
    { s.station k with reservations := (s.station k).reservations - 1 } else s.station k := by
  have found := member_of_order ho hm
  have same (i : Nat) : (s.loseMember r st).station i = s.station i :=
    (congrArg (fun v : State => v.station i) (loseMember_rest found)).trans rfl
  by_cases hc : m.state = .cancelled
  · rw [losingFetch_cancelled ho hm hc, releaseHeld_station, if_neg fun h => h.2 hc]
  · have tidy : (s.loseMember r st).Tidy := ((Kept.of_tidy ht).loseMember r st).tidy
    rw [losingFetch_live ho hm hc, releaseHeld_station, releaseReservation_station tidy, same, same]
    by_cases hk : k = o.station
    · rw [if_pos hk, if_pos ⟨hk, hc⟩, hk]
    · rw [if_neg hk, if_neg fun h => hk h.1]

theorem losingFetch_rest : s.losingFetch r st = { s with
    desk := { s.desk with orders := (s.losingFetch r st).desk.orders, stations := (s.losingFetch r st).desk.stations }
    work := { s.work with
      admission := s.work.admission || decide (m.state ≠ .cancelled ∨ m.held ≠ 0)
      drain := s.work.drain || decide (m.held ≠ 0)
      up := if m.state.loses st then s.work.up ++ [.notice (.memberLost r.order r.pos m.bin st)] else s.work.up } } := by
  have found := member_of_order ho hm
  by_cases hc : m.state = .cancelled
  · have held : (∃ x, s.member r = some x ∧ x.held ≠ 0) ↔ m.held ≠ 0 := by simp [found]
    obtain ⟨admission, drain⟩ := releaseHeld_owed (s := s) (r := r)
    have rest := releaseHeld_rest (s := s) (r := r)
    rw [admission, drain, decide_eq_decide.2 held] at rest
    have owed : decide (m.state ≠ .cancelled ∨ m.held ≠ 0) = decide (m.held ≠ 0) := by simp [hc]
    rw [losingFetch_cancelled ho hm hc, if_neg fun h => h.1 hc, owed]
    have stations : (s.releaseHeld r).desk.stations = s.desk.stations :=
      (congrArg (fun v : State => v.desk.stations) releaseHeld_rest).trans rfl
    rw [stations]
    exact rest
  · obtain ⟨orders, lost⟩ : ∃ orders, s.loseMember r st = { s with
        desk := { s.desk with orders }
        work := { s.work with
          up := if m.state.loses st then s.work.up ++ [.notice (.memberLost r.order r.pos m.bin st)] else s.work.up } } :=
      ⟨_, loseMember_rest found⟩
    have released : ((s.loseMember r st).releaseReservation o.station).member r =
        some { m with state := if m.state.loses st then st else m.state } := by
      rw [State.member, releaseReservation_order, loseMember_order found, ho]
      simp [hm]
    have held : (∃ x, ((s.loseMember r st).releaseReservation o.station).member r = some x ∧ x.held ≠ 0) ↔ m.held ≠ 0 := by
      rw [released]
      simp
    obtain ⟨admission, drain⟩ := releaseHeld_owed (s := (s.loseMember r st).releaseReservation o.station) (r := r)
    have rest := releaseHeld_rest (s := (s.loseMember r st).releaseReservation o.station) (r := r)
    have owed : decide (m.state ≠ .cancelled ∨ m.held ≠ 0) = true := by simp [hc]
    rw [admission, drain, decide_eq_decide.2 held] at rest
    rw [losingFetch_live ho hm hc, owed, Bool.or_true]
    have stations : (((s.loseMember r st).releaseReservation o.station).releaseHeld r).desk.stations =
        ((s.loseMember r st).releaseReservation o.station).desk.stations :=
      (congrArg (fun v : State => v.desk.stations) releaseHeld_rest).trans rfl
    rw [stations]
    refine rest.trans ?_
    rw [lost]
    rfl

end

end

/-- Settles O49. -/
theorem faultsAndMoveDeadlines : Obligations.FaultsAndMoveDeadlines := by
  refine ⟨fun s a hr ht => ?_, fun s a code job hr ht => ?_, fun s tag a hr ht => ?_, fun s a cause ht => ⟨fun h => ?_, fun f h => ?_⟩,
    fun s r o m ht ho hm => ?_⟩
  · intro c x
    refine ⟨fun h => event_idle hr (moveDeadline_idle (s := s.beginEvent) h), fun f hf hx => ?_⟩
    have missed := (((OnlyCrane.beginEvent a.val ht).modCrane fun c =>
      { c with flight := some { f with late := true, timer := none } }).setCraneState .faulted).notice
        (.moveLate a f.tag f.job.kind f.job.bin)
    exact missed.becomes (event_ends hr (moveDeadline_missed (s := s.beginEvent) hf hx))
  · intro c x
    refine ⟨fault_unaddressed hr, fun ha hc => ?_, fun ha hc => ?_⟩
    · refine (OnlyCrane.beginEvent a.val ht).rejectReport.becomes ?_
      rw [exec_fault hr ha, State.takeFault, if_pos (by rw [hc]; rfl)]
      rfl
    · have coded : code.toNat ≠ 0 := fun h => hc (BitVec.eq_of_toNat_eq h)
      have faults := (OnlyCrane.beginEvent a.val ht).faulting code.toNat ((s.crane a).jobNamed.isNone && job.isSome)
      have counted : (if ((s.crane a).jobNamed.isNone && job.isSome) = true then countUp (s.crane a).unmatched else (s.crane a).unmatched) =
          if x.flight = none ∧ job ≠ none ∧ x.unmatched < 4294967295 then x.unmatched + 1 else x.unmatched := by
        unfold Crane.jobNamed
        by_cases full : (s.crane a).unmatched < 4294967295 <;> cases hf : (s.crane a).flight <;> cases job <;>
          simp [x, countUp, Config.countMax, full]
      rw [counted] at faults
      refine faults.becomes ?_
      rw [exec_fault hr ha, takeFault_taken coded]
      rfl
  · intro c x
    refine ⟨fun h => ?_, fun h => ?_⟩
    · have refuses : clearFaultBody tag a s.beginEvent = (s.beginEvent, fun _ => .refused tag.toNat kindCommand .wrongState) :=
        if_neg h
      rw [exec_clearFault, request_answers hr refuses]
      rfl
    · have cleared := ((OnlyCrane.beginEvent a.val ht).modCrane fun c =>
        { c with faultCode := none, place := none }).setCraneState .offline
      have turned : decide ((s.crane a).state ≠ CraneState.offline) = true := by
        have hx : (s.crane a).state = .faulted := h
        rw [hx]
        rfl
      have rest := cleared.rest
      rw [turned, Bool.or_true] at rest
      have clears : clearFaultBody tag a s.beginEvent = (_, fun _ => .done tag.toNat kindCommand (jobBytes (s.crane a).jobNamed)) :=
        if_pos h
      have named : jobBytes (s.crane a).jobNamed = match x.flight with
          | some f => be 1 0 ++ be 2 f.tag ++ be 2 f.job.bin
          | none => [1#8, 0#8, 0#8, 0#8, 0#8] := by
        unfold Crane.jobNamed
        cases (s.crane a).flight <;> rfl
      refine ⟨_, cleared.cranes, rest, ?_⟩
      rw [exec_clearFault, request_ends hr clears, named]
      rfl
  · rw [State.endFlight, h]
  · intro j
    refine ⟨s.failing a j cause, failing_crane ht, failing_bin, failing_rest, ?_⟩
    rw [State.endFlight, h]
    exact endFailed_eq
  · intro lost
    have found := member_of_order ho hm
    refine ⟨fun st => ⟨s.losingFetch r st, fun k => ?_, fun k => ?_, losingFetch_rest ho hm, rfl⟩,
      ⟨s.loseMember r .stranded, fun k => ?_, fun k => ?_, ?_, rfl⟩⟩
    · exact losingFetch_order ho hm k
    · exact (losingFetch_station ht ho hm k).trans (if_congr (by simp) rfl rfl)
    · exact loseMember_order found k
    · exact (congrArg (fun v : State => v.station k) (loseMember_rest found)).trans (if_neg fun h => nomatch h.2.1).symm
    · have rest := loseMember_rest (st := .stranded) found
      have stations : (s.loseMember r .stranded).desk.stations = s.desk.stations :=
        (congrArg (fun v : State => v.desk.stations) rest).trans rfl
      rw [stations]
      exact rest

end Sys2Proof.Machine
end

section
/-! PROOF (O48). DONE: what it does to the crane, its job, its bin and its member (R37, R60, R67 to R69, R90, R91, R97). -/

namespace Sys2Proof.Machine

/-! ## What leaves Crane Dispatch alone -/

section
variable {s : State}

theorem gatherTest_dispatch (num : Nat) : (s.gatherTest num).dispatch = s.dispatch := by
  unfold State.gatherTest
  split
  · dsimp only
    split
    · split
      · rfl
      · split <;> rfl
    · rfl
  · rfl

theorem windowStep_dispatch (st : Nat) : (State.windowStep st s).dispatch = s.dispatch := by
  unfold State.windowStep
  dsimp only
  split
  · rfl
  · split
    · split <;> rfl
    · split
      · rfl
      · split
        · simp [State.present, State.sendPresent, State.markLane, State.setMember]
        · split <;> rfl

theorem windowPass_dispatch (st : Nat) : (s.windowPass st).dispatch = s.dispatch :=
  repeatTimes_keeps State.dispatch _ (fun _ => windowStep_dispatch st) _ _

theorem giveUpItems_dispatch (num : Nat) (cause : NotTakenCause) (tags : List Nat) :
    (s.giveUpItems num cause tags).dispatch = s.dispatch := by
  refine forEach_keeps State.dispatch _ (fun t s => ?_) _ _
  unfold State.giveUpItem
  split
  · split
    · simp
    · rfl
  · rfl

theorem releaseHeld_dispatch (r : MemberRef) : (s.releaseHeld r).dispatch = s.dispatch :=
  (congrArg State.dispatch releaseHeld_rest).trans rfl

theorem clearPending_dispatch (o : Order) : (s.clearPending o).dispatch = s.dispatch := by
  unfold State.clearPending
  split
  · exact forEach_keeps State.dispatch _ (fun b s => by simp) _ _
  · rfl

theorem endOrder_dispatch (o : Order) : (s.endOrder o).dispatch = s.dispatch := by
  have released : (forEach o.refs (fun r s => s.releaseHeld r) (s.giveUpItems o.number .orderEnd o.tags)).dispatch = s.dispatch :=
    (forEach_keeps State.dispatch _ (fun r _ => releaseHeld_dispatch r) _ _).trans (giveUpItems_dispatch _ _ _)
  unfold State.endOrder
  dsimp only [State.freeRecord]
  split <;> simp [clearPending_dispatch, released]

theorem endTest_dispatch (num : Nat) : (s.endTest num).dispatch = s.dispatch := by
  unfold State.endTest
  split
  · split
    · exact (windowPass_dispatch _).trans (endOrder_dispatch _)
    · rfl
  · rfl

theorem settleOrder_dispatch (num : Nat) : (s.settleOrder num).dispatch = s.dispatch := by
  unfold State.settleOrder
  split
  · exact (endTest_dispatch _).trans ((windowPass_dispatch _).trans (gatherTest_dispatch _))
  · rfl

/-! ## What leaves the other cranes, and a crane that is not READY, alone -/

theorem chooseClass_crane_ne {a : Nat} {k : JobClass} {t : State} (h : s.chooseClass a = some (k, t)) {i : Nat} (hi : i ≠ a) :
    t.crane i = s.crane i := by
  unfold State.chooseClass at h
  split at h
  · obtain ⟨_, _, same⟩ := Option.map_eq_some_iff.1 h
    cases same
    rfl
  · split at h
    · cases h
      exact State.modCrane_crane_ne _ _ _ _ hi
    · split at h
      · obtain ⟨_, _, same⟩ := Option.map_eq_some_iff.1 h
        cases same
        rw [State.modCrane_crane_ne _ _ _ _ hi]
        exact State.modCrane_crane_ne _ _ _ _ hi
      · cases h

theorem tellDispatched_crane (j : Job) (i : Nat) : (s.tellDispatched j).crane i = s.crane i := by
  unfold State.tellDispatched
  split
  · split <;> rfl
  · rfl

theorem dispatchJob_crane_ne {a i : Nat} (j : Job) (p : Point) (hi : i ≠ a) : (s.dispatchJob a j p).crane i = s.crane i := by
  unfold State.dispatchJob State.sendMove
  rw [State.sendUnit_crane, tellDispatched_crane, State.setBinState_crane, State.oweControl_crane,
    State.modCrane_crane_ne _ _ _ _ hi]
  rfl

theorem dispatchTest_crane_ne {a i : Nat} (hi : i ≠ a) : (s.dispatchTest a).crane i = s.crane i := by
  unfold State.dispatchTest
  split
  · split
    · next p k t hc hq =>
      split
      · rw [dispatchJob_crane_ne _ _ hi, State.modCrane_crane_ne _ _ _ _ hi, chooseClass_crane_ne hq hi]
      · rfl
    · rfl
  · rfl

theorem dispatchTest_idle {a : Nat} (h : (s.crane a).state ≠ .ready) : s.dispatchTest a = s := by
  refine if_neg fun hm => h ?_
  simp only [State.mayDispatch, Bool.and_eq_true, decide_eq_true_eq] at hm
  exact hm.2.1.1.1.2

end

/-- From `s` to `t` a crane that is not READY keeps its state. -/
structure Steady (s t : State) : Prop where
  tidy : t.Tidy
  cranes : ∀ a, (s.crane a).state ≠ .ready → (t.crane a).state = (s.crane a).state

namespace Steady

variable {s t : State}

theorem refl (h : s.Tidy) : Steady s s := ⟨h, fun _ _ => rfl⟩

/-- What leaves Crane Dispatch alone. -/
theorem apart {u : State} (h : Steady s t) (hu : u.Tidy) (hd : u.dispatch = t.dispatch) : Steady s u :=
  ⟨hu, fun a ha => (congrArg (fun d : CraneDispatch => (d.cranes.get Crane.idle a).state) hd).trans (h.cranes a ha)⟩

theorem modCrane (h : Steady s t) (a : Nat) (f : Crane → Crane) (hf : ∀ c, (f c).state = c.state) : Steady s (t.modCrane a f) := by
  refine ⟨((Kept.of_tidy h.tidy).modCrane a f).tidy, fun k hk => ?_⟩
  rw [State.modCrane_crane _ _ _ _ h.tidy.cranes.1]
  split
  · next hka => rw [hf, ← hka, h.cranes k hk]
  · exact h.cranes k hk

theorem dispatchTest (h : Steady s t) (a : Nat) : Steady s (t.dispatchTest a) := by
  refine ⟨((Kept.of_tidy h.tidy).dispatchTest a).tidy, fun k hk => ?_⟩
  by_cases hka : k = a
  · subst hka
    rw [dispatchTest_idle (by rw [h.cranes k hk]; exact hk), h.cranes k hk]
  · rw [dispatchTest_crane_ne hka, h.cranes k hk]

theorem appendJob (h : Steady s t) (a : Nat) (j : Job) : Steady s (t.appendJob a j) :=
  (h.modCrane a _ fun c => (c.setQueue_keeps j.cls _).2.1).dispatchTest a

theorem settleOrder (h : Steady s t) (num : Nat) : Steady s (t.settleOrder num) :=
  h.apart ((Kept.of_tidy h.tidy).settleOrder num).tidy (settleOrder_dispatch num)

theorem modMember (h : Steady s t) (r : MemberRef) (f : Member → Member) : Steady s (t.modMember r f) :=
  h.apart ((Kept.of_tidy h.tidy).modMember r f).tidy rfl

theorem modBin (h : Steady s t) (b : Nat) (f : Bin → Bin) : Steady s (t.modBin b f) :=
  h.apart (Kept.tidy_modBin h.tidy b f) (State.modBin_dispatch _ _ _)

theorem work (h : Steady s t) (f : Work → Work) : Steady s (t.modWork f) := h.apart ((Kept.of_tidy h.tidy).work f).tidy rfl

theorem requestFetch (h : Steady s t) (r : MemberRef) (b : Nat) : Steady s (t.requestFetch r b) :=
  (((h.modMember r _).modMember r _).modBin b _).appendJob _ _

theorem requestStore (h : Steady s t) (r : MemberRef) (b : Nat) (p : Point) : Steady s (t.requestStore r b p) :=
  (h.modMember r _).appendJob _ _

theorem offer (h : Steady s t) (b : Nat) : Steady s (t.offer b) := by
  unfold State.offer
  split
  · exact h.requestFetch _ _
  · exact h.work _

theorem leaveLists (h : Steady s t) (a b : Nat) : Steady s (t.leaveLists a b) := by
  have front : Steady s (t.leaveFront a b) := by
    unfold State.leaveFront
    split
    · exact (h.modCrane a (fun c => { c with front := c.front.erase b }) fun _ => rfl).dispatchTest a
    · exact h
  unfold State.leaveLists State.leaveInfeed
  split
  · exact (front.modCrane a (fun c => { c with infeed := c.infeed.erase b }) fun _ => rfl).work _
  · exact front

theorem becomeStored (h : Steady s t) (b : Nat) : Steady s (t.becomeStored b) :=
  (forEach_induct (Steady s) _ (fun a _ h => h.leaveLists a b) allAisles _ (h.modBin b _)).offer b

theorem completeJob (h : Steady s t) (a : Nat) (j : Job) : Steady s (t.completeJob a j) := by
  unfold State.completeJob
  cases j.kind with
  | fetch =>
    have joined : Steady s (t.joinFront a j.bin) := h.modCrane a _ fun _ => rfl
    cases j.owner with
    | member r =>
      have waiting := joined.modMember r fun m => { m with state := .atFront }
      show Steady s ((t.joinFront a j.bin).fetchDone r j.bin)
      unfold State.fetchDone
      dsimp only
      split
      · exact joined.requestStore _ _ _
      · split
        · exact waiting.apart ((Kept.of_tidy waiting.tidy).toUpLeg _ _ _).tidy rfl
        · exact waiting
    | shift => exact joined
    | recovery => exact joined
  | store =>
    have stored := h.becomeStored j.bin
    cases j.owner with
    | member r =>
      show Steady s ((t.becomeStored j.bin).binHome r)
      unfold State.binHome
      split
      · exact (stored.modMember r _).settleOrder _
      · exact stored.settleOrder _
    | shift => exact stored
    | recovery => exact stored
  | relocate => exact ((h.modBin j.bin _).becomeStored j.bin).work _

end Steady

/-! ## DONE -/

section
variable {s : State} {a : Fin 12} {job : BitVec 16} {position : RawPoint} {load : BitVec 16}

theorem done_unaddressed (hr : s.running) (ha : s.craneAddress a = none) : HasNoEffect (.done a job position load) s :=
  event_idle hr (if_neg (by simpa [State.craneAddress] using ha))

theorem exec_done (hr : s.running) (ha : s.craneAddress a ≠ none) : exec (.done a job position load) s =
    .next (s.eventEnds (s.beginEvent.takeDone a job.toNat ((s.aisle a).position position) (loadOf load))) :=
  event_ends hr (if_pos (Option.isSome_iff_ne_none.2 ha))

end

section
variable {s : State} {a tag : Nat} {f : Flight} {q : Option Point} {l : Option Nat}

theorem takeDone_unmatched (h : ∀ f, (s.crane a).flight = some f → f.tag ≠ tag) : s.takeDone a tag q l = s.unmatchedReport a := by
  unfold State.takeDone
  split
  · next f hf => exact if_neg (h f hf)
  · rfl

theorem takeDone_matched (hf : (s.crane a).flight = some f) (ht : f.tag = tag) : s.takeDone a tag q l =
    (((s.modCrane a fun c => { c with flight := none }).completeJob a f.job).recordsFreed).craneAfterDone a f q l := by
  rw [State.takeDone, hf]
  exact if_pos ht

theorem craneAfterDone_offline (h : (s.crane a).state = .offline) : s.craneAfterDone a f q l = s := by
  unfold State.craneAfterDone
  rw [h]

theorem craneAfterDone_valid (p : Point) : s.craneAfterDone a f (some p) l =
    match (s.crane a).state with
    | .busy => s.craneReady a p l
    | .parking => s.recordPlace a p l
    | .faulted => if f.late then (s.recordPlace a p l).notice (.moveLateDone a f.tag f.job.kind f.job.bin)
      else s.recordPlace a p l
    | _ => s := by
  unfold State.craneAfterDone
  cases (s.crane a).state <;> rfl

theorem craneAfterDone_invalid : s.craneAfterDone a f none l =
    match (s.crane a).state with
    | .busy => (State.craneOffline a s).rejectReport a
    | .parking => s.rejectReport a
    | .faulted => if f.late then (s.rejectReport a).notice (.moveLateDone a f.tag f.job.kind f.job.bin)
      else s.rejectReport a
    | _ => s := by
  unfold State.craneAfterDone
  cases (s.crane a).state <;> rfl

end

/-! ## The job's effects -/

section
variable {s : State} {a : Nat} {j : Job}

theorem completeJob_fetch (hk : j.kind = .fetch) : s.completeJob a j =
    match j.owner with
    | .member r => (s.joinFront a j.bin).fetchDone r j.bin
    | _ => s.joinFront a j.bin := by
  rw [State.completeJob, hk]
  cases j.owner <;> rfl

theorem completeJob_store (hk : j.kind = .store) : s.completeJob a j =
    match j.owner with
    | .member r => (s.becomeStored j.bin).binHome r
    | _ => s.becomeStored j.bin := by
  rw [State.completeJob, hk]
  cases j.owner <;> rfl

theorem completeJob_relocate (hk : j.kind = .relocate) : s.completeJob a j =
    ((s.moveHome j.bin).becomeStored j.bin).notice (.shiftDone j.bin ((s.moveHome j.bin).home j.bin)) := by
  rw [State.completeJob, hk]

theorem moveHome_put {b : Nat} {x : Bin} (h : s.bin b = some x) :
    s.moveHome b = s.putBin b { x with home := x.target.getD x.home, target := none } := by
  rw [State.moveHome, State.modBin, h]

/-- What of a bin record outlasts the tests at the end of an event. -/
theorem Settles.bin_standing {t : State} (h : Settles s t) (c : Nat) :
    (t.bin c).map Bin.standing = (s.bin c).map Bin.standing := congrArg (fun st : Standing => st.bin c) h.standing

/-- It outlasts the bin's becoming STORED too. -/
theorem becomeStored_standing (ht : s.Tidy) (b c : Nat) {x : Bin} (h : s.bin c = some x) :
    ∃ y, (s.becomeStored b).bin c = some y ∧ y.standing = x.standing := by
  have same := ((Settles.refl ht).becomeStored b).bin_standing c
  rw [h] at same
  obtain ⟨y, hy, hs⟩ := Option.map_eq_some_iff.1 same
  exact ⟨y, hy, hs⟩

end

/-! ## The offer of a bin -/

/-- The earlier of what has been found and what comes next (R90). -/
def earlier {α : Type} (best : Option (Nat × α)) (x : Nat × α) : Option (Nat × α) :=
  match best with
  | none => some x
  | some y => if x.1 < y.1 then some x else some y

/-- Of candidates one of which is earlier than every other, that one is chosen. -/
theorem foldl_earlier {α : Type} (l : List (Nat × α)) (x : Nat × α) (best : Option (Nat × α))
    (hl : ∀ y ∈ l, y = x ∨ x.1 < y.1) (hb : ∀ y, best = some y → y = x ∨ x.1 < y.1) (hx : x ∈ l ∨ best = some x) :
    l.foldl earlier best = some x := by
  induction l generalizing best with
  | nil => exact hx.resolve_left (List.not_mem_nil)
  | cons y l ih =>
    refine ih (earlier best y) (fun z hz => hl z (List.mem_cons_of_mem _ hz)) ?_ ?_
    · intro z hz
      cases best with
      | none => exact Option.some.inj hz ▸ hl y (.head _)
      | some b =>
        unfold earlier at hz
        dsimp only at hz
        split at hz
        · exact Option.some.inj hz ▸ hl y (.head _)
        · exact Option.some.inj hz ▸ hb b rfl
    · rcases hx with hx | hx
      · rcases List.mem_cons.1 hx with rfl | hx
        · refine .inr ?_
          cases best with
          | none => rfl
          | some b =>
            rcases hb b rfl with rfl | hlt
            · simp [earlier]
            · simp [earlier, hlt]
        · exact .inl hx
      · refine .inr ?_
        subst hx
        rcases hl y (.head _) with rfl | hlt
        · simp [earlier]
        · simp [earlier, Nat.not_lt.2 hlt.le]

/-- The candidates for a STORED bin: of each order past admission its first member that waits for it (R90). -/
def waitsFor (b : Nat) (o : Order) : Option (Nat × MemberRef) :=
  if o.state = .waiting then none
  else (o.members.findIdx? fun m => decide (m.bin = b) && decide (m.state = .waitBin)).map fun i =>
    (o.admission, ⟨o.number, i⟩)

theorem waitingMember_eq (s : State) (b : Nat) : s.waitingMember b =
    ((s.desk.orders.filterMap fun p => waitsFor b p.2).foldl earlier none).map (·.2) := by
  have step : (fun (best : Option (Nat × MemberRef)) x =>
      match best with
      | none => some x
      | some y => if x.1 < y.1 then some x else some y) = earlier := by
    funext best x
    cases best <;> rfl
  unfold State.waitingMember
  dsimp only
  rw [← step]
  rfl

theorem waitsFor_eq_some_iff {b : Nat} {o : Order} {x : Nat × MemberRef} : waitsFor b o = some x ↔
    ∃ i, (o.state ≠ .waiting ∧ (∃ m, o.members[i]? = some m ∧ m.bin = b ∧ m.state = .waitBin) ∧
      ∀ j m, j < i → o.members[j]? = some m → ¬ (m.bin = b ∧ m.state = .waitBin)) ∧ x = (o.admission, ⟨o.number, i⟩) := by
  unfold waitsFor
  split
  · next hw => simp [hw]
  · next hw =>
    rw [Option.map_eq_some_iff]
    refine exists_congr fun i => ?_
    rw [List.findIdx?_eq_some_iff_getElem]
    constructor
    · rintro ⟨⟨hi, hp, hj⟩, rfl⟩
      refine ⟨⟨hw, ⟨o.members[i], List.getElem?_eq_getElem hi, by simpa using hp⟩, fun j m hji hm => ?_⟩, rfl⟩
      obtain ⟨hl, rfl⟩ := List.getElem?_eq_some_iff.1 hm
      simpa using hj j hji
    · rintro ⟨⟨-, ⟨m, hm, hp⟩, hj⟩, rfl⟩
      obtain ⟨hl, rfl⟩ := List.getElem?_eq_some_iff.1 hm
      exact ⟨⟨hl, by simpa using hp, fun j hji => by simpa using hj j _ hji (List.getElem?_eq_getElem (by omega))⟩, rfl⟩

theorem offer_none {s : State} {b : Nat} (h : s.waitingMember b = none) : s.offer b = s.oweRestore (.bin b) := by
  rw [State.offer, h]

theorem offer_some {s : State} {b : Nat} {r : MemberRef} (h : s.waitingMember b = some r) :
    s.offer b = s.requestFetch r b := by
  rw [State.offer, h]

/-- Settles O48. -/
theorem doneCompletesTheJob : Obligations.DoneCompletesTheJob := by
  refine ⟨fun s a job position load hr ht => ?_, fun s a j ht hk => ?_, fun s a j => ?_, fun s b => ?_, fun s a ht => ?_,
    fun s r st => ⟨s.setMember r st, s.modMember_order r _, rfl, rfl⟩, fun s b => ?_⟩
  · intro c x carried unmatched
    refine ⟨done_unaddressed hr, fun ha hf => ?_, fun f ha hf htag => ?_⟩
    · have counted := (OnlyCrane.beginEvent a.val ht).modCrane fun c => { c with unmatched := countUp c.unmatched }
      refine counted.becomes ?_
      rw [exec_done hr ha, takeDone_unmatched (s := s.beginEvent) hf]
      rfl
    · have freed := (OnlyCrane.beginEvent a.val ht).modCrane fun c => { c with flight := none }
      have tidy : (s.beginEvent.modCrane a fun c => { c with flight := none }).Tidy :=
        ((Kept.of_tidy (s := s.beginEvent) { ht with }).modCrane a fun c => { c with flight := none }).tidy
      refine ⟨s.beginEvent.modCrane a fun c => { c with flight := none }, ?_⟩
      have steady := (Steady.refl tidy).completeJob a f.job
      have took := (exec_done (position := position) (load := load) hr ha).trans
        (congrArg (fun u => Host.Outcome.next (s.eventEnds u)) (takeDone_matched (s := s.beginEvent) hf htag))
      generalize hu : s.beginEvent.modCrane a (fun c => { c with flight := none }) = u at *
      intro t late ends
      have own : u.crane a = { x with flight := none } := freed.crane_eq
      have state (hx : x.state ≠ .ready) : (t.crane a).state = x.state := by
        have same := steady.cranes a (by rw [own]; exact hx)
        rw [own] at same
        exact same
      refine ⟨freed.cranes, freed.rest, fun r hk hb => ?_, fun hx => ?_, fun p hp => ?_, fun hp => ?_⟩
      · have found : u.bin f.job.bin = some r := (congrArg (fun v : State => v.bin f.job.bin) freed.rest).trans hb
        have moved : (u.moveHome f.job.bin).bin f.job.bin = some { r with home := r.target.getD r.home, target := none } := by
          rw [moveHome_put found, State.putBin_bin, if_pos rfl]
        have homed : (u.moveHome f.job.bin).Tidy := Kept.tidy_modBin (s := u) tidy _ _
        obtain ⟨y, hy, hs⟩ := becomeStored_standing homed f.job.bin f.job.bin moved
        refine ⟨y, ?_, congrArg BinStanding.home hs, congrArg BinStanding.target hs⟩
        show (u.completeJob a f.job).recordsFreed.bin f.job.bin = some y
        rw [State.recordsFreed_bin, completeJob_relocate hk, State.notice_bin]
        exact hy
      · exact took.trans (congrArg (fun u => Host.Outcome.next (s.eventEnds u))
          (craneAfterDone_offline ((state (by rw [hx]; nofun)).trans hx)))
      · intro v
        rw [hp, craneAfterDone_valid] at took
        refine ⟨fun hx => took.trans ?_, fun hx => took.trans ?_, fun hx => took.trans ?_⟩ <;>
          rw [(state (by rw [hx]; nofun)).trans hx] <;> rfl
      · intro v
        rw [hp, craneAfterDone_invalid] at took
        refine ⟨fun hx => took.trans ?_, fun hx => took.trans ?_, fun hx => took.trans ?_⟩ <;>
          rw [(state (by rw [hx]; nofun)).trans hx]
  · refine ⟨s.joinFront a j.bin, fun k => s.modCrane_crane a k _ ht.cranes.1, rfl, fun h => ?_, fun r h => ⟨fun hm => ?_,
      fun hm o ho => ?_⟩⟩
    · rw [completeJob_fetch hk]
      cases ho : j.owner with
      | member r => exact absurd ho (h r)
      | shift => rfl
      | recovery => rfl
    · rw [completeJob_fetch hk, h]
      exact if_pos hm
    · refine ⟨(s.joinFront a j.bin).setMember r .atFront, s.modMember_order r _, rfl, ?_⟩
      have station : (s.joinFront a j.bin).orderStation r.order = o.station := by
        show s.orderStation r.order = o.station
        rw [State.orderStation, ho]
      rw [completeJob_fetch hk, h]
      dsimp only
      have taken : (s.joinFront a j.bin).memberState r ≠ some .cancelled := hm
      unfold State.fetchDone
      dsimp only
      rw [if_neg taken, station]
      refine if_congr ?_ rfl rfl
      show decide ((s.zone (s.station o.station).zone).state = .clear) = true ↔ _
      exact decide_eq_true_iff
  · intro t
    refine ⟨fun hk h => ?_, fun hk r h => ?_, fun hk x hb => ?_⟩
    · rw [completeJob_store hk]
      cases ho : j.owner with
      | member r => exact absurd ho (h r)
      | shift => rfl
      | recovery => rfl
    · rw [completeJob_store hk, h]
      rfl
    · have moved : (s.putBin j.bin { x with home := x.target.getD x.home, target := none }).home j.bin =
          x.target.getD x.home := by rw [State.home, State.putBin_bin, if_pos rfl]
      refine ⟨s.putBin j.bin { x with home := x.target.getD x.home, target := none }, fun c => State.putBin_bin s j.bin c _, rfl, ?_⟩
      rw [completeJob_relocate hk, moveHome_put hb, moved]
  · refine ⟨s.setBinState b .stored, fun c => ?_, ?_, rfl⟩
    · rw [State.setBinState_bin]
      split
      · next hc => subst hc; simp
      · simp
    · rw [State.setBinState, State.modBin_eq]
  · intro x becomes
    have alters (f : Crane → Crane) (work : Work) (t : State) (h : t = { s.modCrane a f with work }) :
        becomes (f x) work t := ⟨{ s.modCrane a f with work }, fun k => s.modCrane_crane a k f ht.cranes.1, rfl, h⟩
    exact ⟨fun p load => alters (fun c => { c with place := some { point := p, load } }) s.work _ rfl,
      alters (fun c => { c with rejected := countUp c.rejected }) s.work _ rfl, fun c h => if_pos h,
      fun c h => alters (fun x => { x with state := c }) { s.work with control := true } _ (if_neg h), rfl, rfl, rfl,
      fun t => rfl⟩
  · intro waits
    refine ⟨fun h => offer_none ?_, fun p i hp hi hq => offer_some ?_⟩
    · have none_waits : s.desk.orders.filterMap (fun p => waitsFor b p.2) = [] := by
        rw [List.filterMap_eq_nil_iff]
        intro p hp
        refine Option.eq_none_iff_forall_ne_some.2 fun x hx => ?_
        obtain ⟨i, hi, -⟩ := waitsFor_eq_some_iff.1 hx
        exact h p hp i hi
      rw [waitingMember_eq, none_waits]
      rfl
    · have first : waitsFor b p.2 = some (p.2.admission, ⟨p.2.number, i⟩) := waitsFor_eq_some_iff.2 ⟨i, hi, rfl⟩
      rw [waitingMember_eq, foldl_earlier _ (p.2.admission, ⟨p.2.number, i⟩) none (fun y hy => ?_) nofun
        (.inl (List.mem_filterMap.2 ⟨p, hp, first⟩))]
      · rfl
      · obtain ⟨q, hmem, hw⟩ := List.mem_filterMap.1 hy
        obtain ⟨j, hj, rfl⟩ := waitsFor_eq_some_iff.1 hw
        refine (hq q hmem j hj).imp (fun h => ?_) id
        subst h
        exact (Option.some.inj (hw.symm.trans first))

end Sys2Proof.Machine
end

section
/-! PROOF (O41). CANCEL, and the items that an order gives up (R99, R100, R126). -/

namespace Sys2Proof.Machine

/-! ## Items given up -/

/-- From `s` to `u` an order's REQUESTED items of a list have been given up (R126). -/
structure GaveUp (s : State) (num : Nat) (o : Order) (cause : NotTakenCause) (removed : List Nat) (u : State) : Prop where
  tidy : u.Tidy
  items : ∀ t, u.item t = if t ∈ removed then none else s.item t
  bins : ∀ b, u.bin b = (s.bin b).map fun r => { r with itemRefs := r.itemRefs - s.homedIn b removed }
  orders : ∀ k, u.order k = (s.order k).map fun p => if k = num then { p with notTaken := p.notTaken + removed.length } else p
  others : (u.desk.orders.filter fun p => decide (p.2.number ≠ num)) = s.desk.orders.filter fun p => decide (p.2.number ≠ num)
  rest : u = { s with
    loans := { s.loans with items := u.loans.items }
    store := { s.store with bins := u.store.bins }
    desk := { s.desk with orders := u.desk.orders }
    work := { s.work with up := s.work.up ++ removed.map fun t => UpMsg.notice (.notTaken num o.patron t cause) } }

/-- A change of one order leaves the list of the others as it is. -/
theorem modOrder_others (s : State) (num : Nat) (f : Order → Order) (hf : ∀ o, (f o).number = o.number) :
    ((s.modOrder num f).desk.orders.filter fun p => decide (p.2.number ≠ num)) =
      s.desk.orders.filter fun p => decide (p.2.number ≠ num) := by
  show ((s.desk.orders.mapVals fun o => if o.number = num then f o else o).filter fun p => decide (p.2.number ≠ num)) = _
  induction s.desk.orders with
  | nil => rfl
  | cons p l ih =>
    obtain ⟨i, o⟩ := p
    by_cases ho : o.number = num
    · simp_all [Tab.mapVals]
    · simp_all [Tab.mapVals]

section
variable {s : State} {num : Nat} {cause : NotTakenCause} {o : Order}

/-- An entry is REQUESTED for an order. -/
def State.requestedFor (s : State) (num t : Nat) : Bool :=
  match s.item t with
  | some e => decide (e.state = .requested num)
  | none => false

theorem requestedOf_append (tags : List Nat) (x : Nat) : s.requestedOf num (tags ++ [x]) =
    if x ∉ tags ∧ s.requestedFor num x = true then s.requestedOf num tags ++ [x] else s.requestedOf num tags := by
  have first := firstOnly_append [] tags x
  unfold State.requestedOf
  rw [first]
  by_cases hx : x ∈ tags
  · simp [hx]
  · simp only [List.not_mem_nil, hx, or_self, if_false, not_false_eq_true, true_and, List.filter_append]
    unfold State.requestedFor
    cases hi : s.item x with
    | none => simp [hi]
    | some e => by_cases he : e.state = .requested num <;> simp [hi, he]

theorem mem_requestedOf {tags : List Nat} {t : Nat} : t ∈ s.requestedOf num tags ↔ t ∈ tags ∧ s.requestedFor num t = true := by
  induction tags using List.reverseRecOn with
  | nil => simp [State.requestedOf, firstOnly]
  | append_singleton l x ih =>
    rw [requestedOf_append]
    split
    · next h => grind
    · next h => grind

theorem giveUpItem_kept {t : Nat} (h : ¬ s.requestedFor num t = true) : State.giveUpItem num cause t s = s := by
  unfold State.giveUpItem
  split
  · next e o he ho =>
    refine if_neg fun hx => h ?_
    simp [State.requestedFor, he, hx]
  · rfl

theorem giveUpItem_given {t : Nat} (ho : s.order num = some o) (h : s.requestedFor num t = true) :
    State.giveUpItem num cause t s = ((s.removeItem t).modOrder num fun o => { o with notTaken := o.notTaken + 1 }).notice
      (.notTaken num o.patron t cause) := by
  unfold State.requestedFor at h
  split at h
  · next e he =>
    unfold State.giveUpItem
    rw [he, ho]
    exact if_pos (of_decide_eq_true h)
  · cases h

theorem homedIn_append (b : Nat) (l : List Nat) {x : Nat} {e : Item} (hx : s.item x = some e) :
    s.homedIn b (l ++ [x]) = s.homedIn b l + if e.bin = b then 1 else 0 := by
  simp [State.homedIn, hx, List.countP_append, List.countP_cons]

theorem GaveUp.nil (ht : s.Tidy) : GaveUp s num o cause [] s where
  tidy := ht
  items _ := by simp
  bins b := by simp [State.homedIn]
  orders k := by simp
  others := rfl
  rest := by simp

/-- One more item is given up. -/
theorem GaveUp.append {u : State} {removed : List Nat} (h : GaveUp s num o cause removed u) (ho : s.order num = some o)
    {t : Nat} (ht : t ∉ removed) (hr : s.requestedFor num t = true) :
    GaveUp s num o cause (removed ++ [t]) (State.giveUpItem num cause t u) := by
  have same : u.item t = s.item t := by rw [h.items, if_neg ht]
  have requested : u.requestedFor num t = true := by
    unfold State.requestedFor
    rw [same]
    exact hr
  obtain ⟨e, he⟩ : ∃ e, s.item t = some e := by
    unfold State.requestedFor at hr
    split at hr
    · exact ⟨_, ‹_›⟩
    · cases hr
  have found : u.order num = some { o with notTaken := o.notTaken + removed.length } := by
    rw [h.orders, ho, Option.map_some, if_pos rfl]
  have hue := same.trans he
  have given := giveUpItem_given (cause := cause) found requested
  rw [given]
  refine ⟨given ▸ ((Kept.of_tidy h.tidy).giveUpItem num cause t).tidy, fun k => ?_, fun b => ?_, fun k => ?_, ?_, ?_⟩
  · rw [State.notice_item, State.modOrder_item, State.removeItem_item _ _ _ h.tidy.items, h.items]
    by_cases hk : k = t <;> simp [hk]
  · rw [State.notice_bin, State.modOrder_bin, State.removeItem_bin hue, homedIn_append b removed he, h.bins, h.bins]
    by_cases hb : b = e.bin
    · subst hb
      simp [Nat.sub_sub, Function.comp_def]
    · simp [hb, Ne.symm hb]
  · rw [State.notice_order, State.modOrder_order_of _ _ _ _ (by intro _; rfl), State.removeItem_order, h.orders]
    cases s.order k with
    | none => rfl
    | some p => by_cases hk : k = num <;> simp [hk, Nat.add_assoc]
  · rw [State.notice_desk, modOrder_others _ _ _ (by intro _; rfl), State.removeItem_desk]
    exact h.others
  · rw [State.removeItem_eq hue, State.modBin_eq]
    obtain ⟨items, bins, orders, rest⟩ : ∃ items bins orders, u = { s with
        loans := { s.loans with items }
        store := { s.store with bins }
        desk := { s.desk with orders }
        work := { s.work with up := s.work.up ++ removed.map fun t => UpMsg.notice (.notTaken num o.patron t cause) } } :=
      ⟨_, _, _, h.rest⟩
    rw [List.map_append, ← List.append_assoc, rest]
    rfl

/-- What giving up a list of items comes to (R126). -/
theorem giveUpItems_gaveUp (ht : s.Tidy) (ho : s.order num = some o) (tags : List Nat) :
    GaveUp s num o cause (s.requestedOf num tags) (s.giveUpItems num cause tags) := by
  unfold State.giveUpItems
  induction tags using List.reverseRecOn with
  | nil => exact .nil ht
  | append_singleton l x ih =>
    have step : forEach (l ++ [x]) (State.giveUpItem num cause) s =
        State.giveUpItem num cause x (forEach l (State.giveUpItem num cause) s) := List.foldl_append
    rw [requestedOf_append, step]
    generalize forEach l (State.giveUpItem num cause) s = u at ih
    have reads (h : x ∉ s.requestedOf num l) : u.requestedFor num x = s.requestedFor num x := by
      unfold State.requestedFor
      rw [ih.items, if_neg h]
    split
    · next h => exact ih.append ho (fun hm => h.1 (mem_requestedOf.1 hm).1) h.2
    · next h =>
      rw [giveUpItem_kept]
      · exact ih
      · by_cases hm : x ∈ s.requestedOf num l
        · have gone : u.item x = none := by rw [ih.items, if_pos hm]
          simp [State.requestedFor, gone]
        · rw [reads hm]
          intro hx
          exact h ⟨fun hl => hm (mem_requestedOf.2 ⟨hl, hx⟩), hx⟩

end

/-! ## The restore-pending flags -/

/-- The bins whose restore-pending flag an order holds (R149). -/
def pendingBins (o : Order) : List Nat := if o.kind = .restore then o.members.map (·.bin) else []

section
variable {s : State} {o : Order}

theorem mem_pendingBins {b : Nat} : b ∈ pendingBins o ↔ o.kind = .restore ∧ ∃ m ∈ o.members, m.bin = b := by
  unfold pendingBins
  split <;> simp [*]

theorem pendingBins_attempts : (pendingBins o).map RestoreTest.bin =
    if o.kind = .restore then o.members.map fun m => RestoreTest.bin m.bin else [] := by
  unfold pendingBins
  split <;> simp

theorem clearPending_eq : s.clearPending o = forEach (pendingBins o)
    (fun b s => (s.modBin b fun r => { r with pending := false }).oweRestore (.bin b)) s := by
  unfold State.clearPending pendingBins
  split <;> rfl

/-- From `s` to `u` the restore-pending flags of some bins have been cleared, an attempt for each owed (R149). -/
structure Unpended (s : State) (listed : List Nat) (u : State) : Prop where
  bins : ∀ b, u.bin b = (s.bin b).map fun r => if b ∈ listed then { r with pending := false } else r
  rest : u = { s with
    store := { s.store with bins := u.store.bins }
    work := { s.work with restore := s.work.restore ++ listed.map RestoreTest.bin } }

theorem clearPending_unpended : Unpended s (pendingBins o) (s.clearPending o) := by
  rw [clearPending_eq]
  induction pendingBins o using List.reverseRecOn with
  | nil => exact ⟨fun b => by simp, by simp⟩
  | append_singleton l x ih =>
    have step : forEach (l ++ [x]) (fun b s => (s.modBin b fun r => { r with pending := false }).oweRestore (.bin b)) s =
        ((forEach l (fun b s => (s.modBin b fun r => { r with pending := false }).oweRestore (.bin b)) s).modBin x fun r =>
          { r with pending := false }).oweRestore (.bin x) := List.foldl_append
    rw [step]
    generalize forEach l (fun b s => (s.modBin b fun r => { r with pending := false }).oweRestore (.bin b)) s = u at ih
    constructor
    · intro b
      rw [State.oweRestore_bin, State.modBin_bin, ih.bins, ih.bins]
      by_cases hb : b = x
      · subst hb
        cases s.bin b with
        | none => simp
        | some r => by_cases hl : b ∈ l <;> simp [hl]
      · simp [hb]
    · obtain ⟨bins, rest⟩ : ∃ bins, u = { s with
          store := { s.store with bins }
          work := { s.work with restore := s.work.restore ++ l.map RestoreTest.bin } } := ⟨_, ih.rest⟩
      rw [State.modBin_eq, List.map_append, ← List.append_assoc, rest]
      rfl

end

/-! ## A WAITING order taken back -/

section
variable {s : State} {o : Order}

theorem dropOrder_eq (n : Nat) : s.dropOrder n =
    { s with desk := { s.desk with orders := s.desk.orders.filter fun p => decide (p.2.number ≠ n) } } := by
  have same : (fun p : Nat × Order => decide (¬ p.2.number = n)) = fun p => decide (p.2.number ≠ n) := by
    funext p
    simp
  rw [← same]
  rfl

/-- A WAITING order has left its station's queue and the table (R99). -/
def State.struckOff (s : State) (i n : Nat) : State :=
  ((s.modStation i fun w => { w with orderQueue := w.orderQueue.filter fun m => ¬ m = n }).freeRecord n).oweAdmission.oweWaiting

theorem struckOff_item (i n t : Nat) : (s.struckOff i n).item t = s.item t := by
  simp [State.struckOff, State.freeRecord]

theorem struckOff_bin (i n b : Nat) : (s.struckOff i n).bin b = s.bin b := by
  simp [State.struckOff, State.freeRecord]

theorem struckOff_station (i n k : Nat) (h : s.desk.stations.wf) : (s.struckOff i n).station k = if k = i then
    { s.station k with orderQueue := (s.station k).orderQueue.filter fun m => decide (m ≠ n) } else s.station k := by
  simp only [State.struckOff, State.freeRecord, State.oweWaiting_station, State.oweAdmission_station,
    State.oweRestore_station, State.oweDrain_station, State.dropOrder_station, State.modStation_station _ _ _ _ h]
  split
  · next hk => simp [hk]
  · rfl

theorem struckOff_rest (i n : Nat) : s.struckOff i n = { s with
    desk := { s.desk with
      stations := (s.struckOff i n).desk.stations, orders := s.desk.orders.filter fun p => decide (p.2.number ≠ n) }
    work := { s.work with
      drain := true, admission := true, waiting := true, hold := true, restore := s.work.restore ++ [.pass] } } := by
  unfold State.struckOff State.freeRecord
  rw [dropOrder_eq]
  rfl

theorem removeWaiting_eq : s.removeWaiting o =
    ((s.giveUpItems o.number .cancel o.tags).clearPending o).struckOff o.station o.number := rfl

theorem removeWaiting_spec {u : State} (ht : s.Tidy) (ho : s.order o.number = some o) (hu : u = s.removeWaiting o) :
    let removed := s.requestedOf o.number o.tags
    (∀ t, u.item t = if t ∈ removed then none else s.item t) ∧
    (∀ b, u.bin b = (s.bin b).map fun r => { r with
      itemRefs := r.itemRefs - s.homedIn b removed, pending := if b ∈ pendingBins o then false else r.pending }) ∧
    (∀ k, u.station k = if k = o.station then
      { s.station k with orderQueue := (s.station k).orderQueue.filter fun n => decide (n ≠ o.number) } else s.station k) ∧
    u = { s with
      loans := { s.loans with items := u.loans.items }
      store := { s.store with bins := u.store.bins }
      desk := { s.desk with
        stations := u.desk.stations, orders := s.desk.orders.filter fun p => decide (p.2.number ≠ o.number) }
      work := { s.work with
        up := s.work.up ++ removed.map fun t => UpMsg.notice (.notTaken o.number o.patron t .cancel)
        drain := true, admission := true, waiting := true, hold := true
        restore := s.work.restore ++ (pendingBins o).map RestoreTest.bin ++ [.pass] } } := by
  intro removed
  have gave := giveUpItems_gaveUp (cause := .cancel) ht ho o.tags
  have cleared := clearPending_unpended (s := s.giveUpItems o.number .cancel o.tags) (o := o)
  rw [removeWaiting_eq] at hu
  generalize s.giveUpItems o.number .cancel o.tags = v at gave cleared hu
  generalize v.clearPending o = w at cleared hu
  obtain ⟨items, bins, orders, hv⟩ : ∃ items bins orders, v = { s with
      loans := { s.loans with items }
      store := { s.store with bins }
      desk := { s.desk with orders }
      work := { s.work with up := s.work.up ++ removed.map fun t => UpMsg.notice (.notTaken o.number o.patron t .cancel) } } :=
    ⟨_, _, _, gave.rest⟩
  obtain ⟨bins', hw⟩ : ∃ bins, w = { v with
      store := { v.store with bins }
      work := { v.work with restore := v.work.restore ++ (pendingBins o).map RestoreTest.bin } } := ⟨_, cleared.rest⟩
  have stations : w.desk.stations = s.desk.stations := by rw [hw, hv]
  have orders_eq : (w.desk.orders.filter fun p => decide (p.2.number ≠ o.number)) =
      s.desk.orders.filter fun p => decide (p.2.number ≠ o.number) := by rw [← gave.others, hw]
  refine ⟨fun t => ?_, fun b => ?_, fun k => ?_, ?_⟩
  · rw [hu, struckOff_item, show w.item t = v.item t by rw [hw]; rfl]
    exact gave.items t
  · rw [hu, struckOff_bin, cleared.bins, gave.bins]
    cases s.bin b with
    | none => rfl
    | some r => by_cases hb : b ∈ pendingBins o <;> simp [hb, removed]
  · have same : w.station k = s.station k := by rw [State.station, stations]; rfl
    rw [hu, struckOff_station _ _ _ (by rw [stations]; exact ht.stations.1), same]
  · have rest := struckOff_rest (s := w) o.station o.number
    rw [← hu, orders_eq] at rest
    rw [hw, hv] at rest
    have same_items : u.loans.items = items := congrArg (fun x : State => x.loans.items) rest
    have same_bins : u.store.bins = bins' := congrArg (fun x : State => x.store.bins) rest
    rw [same_items, same_bins]
    exact rest

end

/-! ## Members cancelled -/

section
variable {s : State} {r : MemberRef} {m : Member}

theorem memberClass_eq {o : Order} (h : s.order r.order = some o) :
    s.memberClass r = if o.kind = .patron then .patron else .restore := by
  rw [State.memberClass, h]
  dsimp only
  cases o.kind <;> rfl

theorem binAisle_eq {b : Nat} {x : Bin} (h : s.bin b = some x) : s.binAisle b = x.home.aisle := by
  rw [State.binAisle, h]

theorem releaseHeld_rest_of {held : Prop} [Decidable held] (h : (∃ m, s.member r = some m ∧ m.held ≠ 0) ↔ held) :
    s.releaseHeld r = { s with
      desk := { s.desk with orders := (s.releaseHeld r).desk.orders }
      work := { s.work with admission := s.work.admission || decide held, drain := s.work.drain || decide held } } := by
  obtain ⟨admission, drain⟩ := releaseHeld_owed (s := s) (r := r)
  have rest := releaseHeld_rest (s := s) (r := r)
  rw [admission, drain, decide_eq_decide.2 h] at rest
  exact rest

theorem cancellable_iff (x : MemberState) : x.cancellable = true ↔
    x ∈ [MemberState.waitBin, .queued, .fetching, .atFront, .carrying, .inLane, .atWindow] := by
  cases x <;> simp [MemberState.cancellable]

theorem cancelMember_kept {st : Nat} (hm : s.member r = some m) (h : m.state.cancellable = false) :
    State.cancelMember st r s = s := by
  rw [State.cancelMember, hm]
  exact if_neg (by simp [h])

theorem cancelMember_taken {st : Nat} (hm : s.member r = some m) (h : m.state.cancellable = true) :
    State.cancelMember st r s = ((s.setMember r .cancelled).cancelStage st r m).giveUpItems r.order .cancel m.items := by
  rw [State.cancelMember, hm]
  exact if_pos h

theorem cancelFetch_none {b : Nat} (h : ((s.crane (s.binAisle b)).queue (s.memberClass r)).find? (Job.fetchOf r) = none) :
    s.cancelFetch r b = s := by
  unfold State.cancelFetch State.removeFetch oldestJob
  dsimp only
  rw [h]
  rfl

theorem cancelFetch_some {b : Nat} (h : ((s.crane (s.binAisle b)).queue (s.memberClass r)).find? (Job.fetchOf r) ≠ none) :
    s.cancelFetch r b = ((((s.modCrane (s.binAisle b) fun c => c.setQueue (s.memberClass r)
      (((s.crane (s.binAisle b)).queue (s.memberClass r)).eraseP (Job.fetchOf r))).recordsFreed).becomeStored b).releaseHeld r) := by
  obtain ⟨j, hj⟩ := Option.ne_none_iff_exists'.1 h
  unfold State.cancelFetch State.removeFetch oldestJob
  simp only [hj, Option.map_some, if_true]

/-- What CANCEL does (R99, R100). -/
def cancelBody (tag number : BitVec 16) (s : State) : State × (State → Answer) :=
  match s.order number.toNat with
  | none => (s, fun _ => .refused tag.toNat kindCancel .orderUnknown)
  | some o =>
    if o.state = .waiting then (s.removeWaiting o, fun _ => .done tag.toNat kindCancel (be 1 0))
    else
      ((forEach o.refs (State.cancelMember o.station) s).settleOrder o.number,
        fun _ => .done tag.toNat kindCancel (be 1 o.cancellable))

theorem exec_cancel (tag number : BitVec 16) (s : State) :
    exec (.cancel tag number) s = s.live (s.request (cancelBody tag number)) := rfl

end

/-- Settles O41. -/
theorem cancelTakesAnOrderBack : Obligations.CancelTakesAnOrderBack := by
  refine ⟨fun s r o h => memberClass_eq h, fun s b x h => binAisle_eq h, fun s r ht => ?_, fun s tag number hr ht => ?_,
    fun s st r m ht hm => ?_, fun s r b ht => ?_, fun s num cause tags o ht ho => ?_⟩
  · intro held
    exact ⟨s.releaseHeld r, releaseHeld_order, releaseHeld_rest_of Iff.rfl, rfl⟩
  · intro c num
    refine ⟨fun ho => ?_, fun o ho hw => ?_, fun o ho hw => ?_⟩
    · have refuses : cancelBody tag number s.beginEvent =
          (s.beginEvent, fun _ => .refused tag.toNat kindCancel .orderUnknown) := by
        have absent : s.beginEvent.order number.toNat = none := ho
        rw [cancelBody, absent]
      rw [exec_cancel, request_answers hr refuses]
      rfl
    · have number_eq := s.order_number num o ho
      have removes : cancelBody tag number s.beginEvent =
          (s.beginEvent.removeWaiting o, fun _ => .done tag.toNat kindCancel (be 1 0)) := by
        have found : s.beginEvent.order number.toNat = some o := ho
        rw [cancelBody, found]
        exact if_pos hw
      have found : s.beginEvent.order o.number = some o := by rw [number_eq]; exact ho
      obtain ⟨items, bins, stations, rest⟩ := removeWaiting_spec (s := s.beginEvent) { ht with } found rfl
      rw [number_eq] at items bins stations rest
      rw [pendingBins_attempts] at rest
      intro removed
      refine ⟨s.beginEvent.removeWaiting o, items, fun b => ?_, stations, rest, ?_⟩
      · rw [bins]
        exact congrArg (Option.map · (s.bin b)) (funext fun r => by simp only [mem_pendingBins]; rfl)
      · rw [exec_cancel, request_ends hr removes]
        rfl
    · intro stages members
      have cancels : cancelBody tag number s.beginEvent =
          ((forEach o.refs (State.cancelMember o.station) s.beginEvent).settleOrder o.number,
            fun _ => .done tag.toNat kindCancel (be 1 o.cancellable)) := by
        have found : s.beginEvent.order number.toNat = some o := ho
        rw [cancelBody, found]
        exact if_neg hw
      have refs : o.refs = members := by rw [Order.refs, s.order_number num o ho]
      have counted : o.cancellable = o.members.countP fun m => decide (m.state ∈ stages) :=
        List.countP_congr fun m _ => (cancellable_iff m.state).trans decide_eq_true_iff.symm
      rw [exec_cancel, request_ends hr cancels, refs, counted, s.order_number num o ho]
      rfl
  · intro becomes cancelled released
    have turns (u : State) (f : Member → Member) (w : Station → Station) (waits : List WaitEntry → List WaitEntry)
        (work : Work) (rest : State → State) (hc : m.state.cancellable = true)
        (orders : ∀ k, u.order k = (s.order k).map fun p =>
          if k = r.order then { p with members := p.members.modify r.pos f } else p)
        (stations : ∀ k, u.station k = if k = st then w (s.station st) else s.station k)
        (hu : u = { s with
          desk := { s.desk with orders := u.desk.orders, stations := u.desk.stations }
          pool := { s.pool with waitList := waits s.pool.waitList }, work })
        (hs : (s.setMember r .cancelled).cancelStage st r m = rest u) : becomes f w waits work rest :=
      ⟨u, orders, stations, hu, (cancelMember_taken hm hc).trans
        (congrArg (fun v : State => v.giveUpItems r.order .cancel m.items) hs)⟩
    have orders := s.modMember_order r fun x => { x with state := .cancelled }
    have alike (k : Nat) : s.station k = if k = st then id (s.station st) else s.station k := by
      split
      · next hk => rw [hk]; rfl
      · rfl
    have released_station := releaseReservation_station (s := s.setMember r .cancelled)
      ((Kept.of_tidy ht).setMember r .cancelled).tidy st
    refine ⟨fun h => cancelMember_kept hm ?_, fun h => ?_, fun h => ?_, fun h => ?_, fun h => ?_, fun h => ?_, fun h => ?_⟩
    · simp only [List.mem_cons, List.not_mem_nil, or_false] at h
      rcases h with h | h | h | h | h <;> rw [h] <;> rfl
    · refine turns (((s.setMember r .cancelled).releaseReservation st).releaseHeld r) _ _ _ _ _ (by rw [h]; rfl)
        (fun k => ?_) (fun k => ?_) ?_ ?_
      · rw [releaseHeld_order, releaseReservation_order, State.setMember, orders]
        cases s.order k with
        | none => rfl
        | some p => by_cases hk : k = r.order <;> simp [hk, List.modify_modify_eq, Function.comp_def]
      · exact (releaseHeld_station k).trans (released_station k)
      · have held : (∃ x, ((s.setMember r .cancelled).releaseReservation st).member r = some x ∧ x.held ≠ 0) ↔ m.held ≠ 0 := by
          have found : ((s.setMember r .cancelled).releaseReservation st).member r = some { m with state := .cancelled } := by
            rw [State.member] at hm
            rw [State.member, releaseReservation_order, State.setMember, orders]
            cases ho : s.order r.order with
            | none => rw [ho] at hm; cases hm
            | some p =>
              rw [ho] at hm
              simp [show p.members[r.pos]? = some m from hm]
          simp [found]
        have rest := releaseHeld_rest_of held
        have stations : (((s.setMember r .cancelled).releaseReservation st).releaseHeld r).desk.stations =
            ((s.setMember r .cancelled).releaseReservation st).desk.stations :=
          (congrArg (fun v : State => v.desk.stations) rest).trans rfl
        rw [stations]
        exact rest
      · unfold State.cancelStage
        rw [h]
        rfl
    · refine turns ((s.setMember r .cancelled).releaseReservation st) _ _ _ _ _
        (by rcases h with h | h <;> rw [h] <;> rfl) orders released_station rfl ?_
      unfold State.cancelStage
      rcases h with h | h <;> rw [h]
    · refine turns (((s.setMember r .cancelled).dropWaiting fun e => decide (e.ref = r)).releaseReservation st) _ _ _ _ _
        (by rw [h]; rfl) orders released_station ?_ ?_
      · have kept : (fun e : WaitEntry => decide (e.ref ≠ r)) = fun e => !decide (e.ref = r) := by
          funext e
          simp
        rw [kept]
        rfl
      · unfold State.cancelStage
        rw [h]
    · refine turns (s.setMember r .cancelled) _ _ _ _ _ (by rw [h]; rfl) orders alike rfl ?_
      unfold State.cancelStage
      rw [h]
      rfl
    · refine turns (((s.setMember r .cancelled).markLane st m.bin .outbound).toDownLeg r m.bin st) cancelled
        (fun w => { w with lane := w.lane.map fun x => if x.bin = m.bin then { x with mark := .outbound } else x })
        (fun l => l ++ [{ bin := m.bin, leg := .down, aisle := s.binAisle m.bin, station := st, ref := r }])
        { s.work with scan := true } id (by rw [h]; rfl) orders (fun k => ?_) ?_ ?_
      · exact Tab.get_set s.desk.stations Station.powerOn st k _ ht.stations.1
      · rfl
      · unfold State.cancelStage
        rw [h]
        rfl
    · refine turns ((s.setMember r .cancelled).sendWithdraw st m.bin) _ _ _ _ _ (by rw [h]; rfl) ?_ ?_ ?_ ?_
      · exact fun k => (State.sendUnit_order _ _ _ _ _ k).trans (orders k)
      · exact fun k => (State.sendUnit_station _ _ _ _ _ k).trans (alike k)
      · rw [State.sendWithdraw, State.sendUnit_eq]
        rfl
      · unfold State.cancelStage
        rw [h]
        rfl
  · intro a q mine
    have same : mine = Job.fetchOf r := by
      funext j
      simp [mine, Job.fetchOf]
    rw [same]
    refine ⟨cancelFetch_none, fun h => ⟨(s.modCrane a fun c => c.setQueue (s.memberClass r)
      (q.eraseP (Job.fetchOf r))).recordsFreed, fun k => ?_, rfl, cancelFetch_some h⟩⟩
    exact (State.recordsFreed_crane _ k).trans (s.modCrane_crane a k _ ht.cranes.1)
  · intro removed
    have gave := giveUpItems_gaveUp (cause := cause) ht ho tags
    exact ⟨_, gave.items, gave.bins, gave.orders, gave.rest, rfl⟩

end Sys2Proof.Machine
end

section
/-! PROOF (O42). BIN_DONE, the steps of a window, and the tests of an order (R93 to R98, R149). -/

namespace Sys2Proof.Machine

/-! ## The window of a station -/

theorem window_iff (w : Station) (l : LaneBin) : w.window = some l ↔
    ∃ before after_, w.lane = before ++ l :: after_ ∧ l.mark = .window ∧ ∀ x ∈ before, x.mark ≠ .window := by
  unfold Station.window
  rw [List.find?_eq_some_iff_append]
  constructor
  · rintro ⟨hl, before, after_, hw, hb⟩
    exact ⟨before, after_, hw, by simpa using hl, fun x hx => by simpa using hb x hx⟩
  · rintro ⟨before, after_, hw, hl, hb⟩
    exact ⟨by simpa using hl, before, after_, hw, fun x hx => by simpa using hb x hx⟩

theorem nextInLane_some {o : Order} {i : Nat} {m : Member} (hm : o.members[i]? = some m) (hl : m.state = .inLane)
    (first : ∀ j x, j < i → o.members[j]? = some x → x.state ≠ .inLane) : o.nextInLane = some (⟨o.number, i⟩, m.bin) := by
  obtain ⟨hi, rfl⟩ := List.getElem?_eq_some_iff.1 hm
  have found : o.members.zipIdx.find? (fun p => decide (p.1.state = .inLane)) = some (o.members[i], i) := by
    rw [List.find?_eq_some_iff_getElem]
    refine ⟨by simpa using hl, i, by simpa using hi, by simp, fun j hj => ?_⟩
    have other := first j _ hj (List.getElem?_eq_getElem (by omega))
    simpa using other
  rw [Order.nextInLane, found]
  rfl

theorem nextInLane_none {o : Order} (h : ∀ m ∈ o.members, m.state ≠ .inLane) : o.nextInLane = none := by
  rw [Order.nextInLane, Option.map_eq_none_iff, List.find?_eq_none]
  intro p hp
  simpa using h p.1 (List.fst_mem_of_mem_zipIdx hp)

/-- What `nextInLane` finds is a member in the lane. -/
theorem nextInLane_inLane {o : Order} {r : MemberRef} {b : Nat} (h : o.nextInLane = some (r, b)) :
    r.order = o.number ∧ ∃ m, o.members[r.pos]? = some m ∧ m.state = .inLane ∧ m.bin = b := by
  unfold Order.nextInLane at h
  obtain ⟨⟨m, i⟩, hf, hr⟩ := Option.map_eq_some_iff.1 h
  obtain ⟨rfl, rfl⟩ := Prod.mk.inj hr
  refine ⟨rfl, m, ?_, by simpa using List.find?_some hf, rfl⟩
  exact List.mk_mem_zipIdx_iff_getElem?.1 (List.mem_of_find?_eq_some hf)

section
variable {s : State} {st : Nat}

theorem windowStep_blocked (h : (s.zone (s.station st).zone).state ≠ .clear ∨ (s.station st).window ≠ none) :
    State.windowStep st s = s := by
  refine if_pos ?_
  simpa [State.zoneClear, Option.isSome_iff_ne_none] using h

/-- The window of a CLEAR station stands without a bin. -/
structure WindowOpen (s : State) (st : Nat) : Prop where
  clear : (s.zone (s.station st).zone).state = .clear
  empty : (s.station st).window = none

theorem windowStep_open (h : WindowOpen s st) : State.windowStep st s =
    match (s.station st).owner with
    | none =>
      match (s.station st).presQueue with
      | [] => s
      | n :: rest =>
        (s.modStation st fun w => { w with owner := some n, presQueue := rest }).modOrder n fun o =>
          { o with state := .presenting }
    | some n =>
      match s.order n with
      | none => s.modStation st fun w => { w with owner := none }
      | some o =>
        match o.nextInLane with
        | some (r, b) => s.present st r b
        | none =>
          if o.members.any fun m => m.state.expected && decide (m.state ≠ .waitBin) then s
          else s.modStation st fun w => { w with owner := none } := by
  have open_ : ¬ ((!s.zoneClear (s.station st).zone) || (s.station st).window.isSome) = true := by
    simp [State.zoneClear, h.clear, h.empty]
  exact if_neg open_

theorem windowStep_idle (h : WindowOpen s st) (ho : (s.station st).owner = none) (hq : (s.station st).presQueue = []) :
    State.windowStep st s = s := by
  rw [windowStep_open h, ho, hq]

theorem windowStep_owns (h : WindowOpen s st) (ho : (s.station st).owner = none) {n : Nat} {rest : List Nat}
    (hq : (s.station st).presQueue = n :: rest) : State.windowStep st s =
      (s.modStation st fun w => { w with owner := some n, presQueue := rest }).modOrder n fun o =>
        { o with state := .presenting } := by
  rw [windowStep_open h, ho, hq]

section
variable {n : Nat} {o : Order} (h : WindowOpen s st) (hn : (s.station st).owner = some n)
include h hn

theorem windowStep_lost (ho : s.order n = none) :
    State.windowStep st s = s.modStation st fun w => { w with owner := none } := by
  rw [windowStep_open h, hn]
  dsimp only
  rw [ho]

theorem windowStep_presents (ho : s.order n = some o) {r : MemberRef} {b : Nat} (hi : o.nextInLane = some (r, b)) :
    State.windowStep st s = s.present st r b := by
  rw [windowStep_open h, hn]
  dsimp only
  rw [ho]
  dsimp only
  rw [hi]

theorem windowStep_waits (ho : s.order n = some o) (hi : o.nextInLane = none) : State.windowStep st s =
    if o.members.any fun m => m.state.expected && decide (m.state ≠ .waitBin) then s
    else s.modStation st fun w => { w with owner := none } := by
  rw [windowStep_open h, hn]
  dsimp only
  rw [ho]
  dsimp only
  rw [hi]

end

/-! ## The window pass -/

/-- The steps that a window may still take. -/
def State.windowLeft (s : State) (st : Nat) : Nat :=
  if (s.zone (s.station st).zone).state ≠ .clear ∨ (s.station st).window ≠ none then 0
  else 2 * (s.station st).presQueue.length + (if (s.station st).owner = none then 0 else 1) + 1

/-- The IN_LANE members of the owner and of the queued orders have their bins in the lane. -/
def State.laneHolds (s : State) (st : Nat) : Prop :=
  ∀ n o m, (s.station st).owner = some n ∨ n ∈ (s.station st).presQueue → s.order n = some o → m ∈ o.members →
    m.state = .inLane → ∃ l ∈ (s.station st).lane, l.bin = m.bin

/-- A window that a pass takes to its end: its bins are in the lane, or nothing is left to do. -/
structure Passing (s : State) (st : Nat) : Prop where
  tidy : s.Tidy
  lane : s.windowLeft st = 0 ∨ s.laneHolds st

theorem windowLeft_open (h : WindowOpen s st) : s.windowLeft st =
    2 * (s.station st).presQueue.length + (if (s.station st).owner = none then 0 else 1) + 1 :=
  if_neg (by simp [h.clear, h.empty])

theorem windowLeft_le (w : Station) (hw : s.station st = w) :
    s.windowLeft st ≤ 2 * w.presQueue.length + (if w.owner = none then 0 else 1) + 1 := by
  subst hw
  unfold State.windowLeft
  split <;> omega

theorem present_station (ht : s.Tidy) (r : MemberRef) (b k : Nat) : (s.present st r b).station k = if k = st then
    { s.station st with lane := (s.station st).lane.map fun l => if l.bin = b then { l with mark := .window } else l }
    else s.station k :=
  (State.sendUnit_station _ _ _ _ _ k).trans (s.modStation_station st k
    (fun w => { w with lane := w.lane.map fun l => if l.bin = b then { l with mark := .window } else l }) ht.stations.1)

/-- A member's bin that stands in the lane is at the window once it is presented. -/
theorem present_windowLeft (ht : s.Tidy) (r : MemberRef) {b : Nat} (h : ∃ l ∈ (s.station st).lane, l.bin = b) :
    (s.present st r b).windowLeft st = 0 := by
  refine if_pos (.inr ?_)
  obtain ⟨l, hl, hb⟩ := h
  rw [present_station ht, if_pos rfl, Station.window, ne_eq, List.find?_eq_none]
  intro none_
  exact none_ { l with mark := .window } (List.mem_map.2 ⟨l, hl, if_pos hb⟩) (by simp)

/-- A step changes nothing, or leaves fewer to take. -/
theorem windowStep_progress (h : Passing s st) : State.windowStep st s = s ∨
    (Passing (State.windowStep st s) st ∧ (State.windowStep st s).windowLeft st < s.windowLeft st) := by
  have ht := h.tidy
  have tidy := ((Settles.refl ht).windowStep st).tidy
  by_cases blocked : (s.zone (s.station st).zone).state ≠ .clear ∨ (s.station st).window ≠ none
  · exact .inl (windowStep_blocked blocked)
  have opened : WindowOpen s st := by
    push Not at blocked
    exact ⟨blocked.1, blocked.2⟩
  have left := windowLeft_open opened
  have holds : s.laneHolds st := h.lane.resolve_left (by omega)
  have gives_up (step : State.windowStep st s = s.modStation st fun w => { w with owner := none })
      (hn : (s.station st).owner ≠ none) : Passing (State.windowStep st s) st ∧
        (State.windowStep st s).windowLeft st < s.windowLeft st := by
    have station := s.modStation_station st st (fun w => { w with owner := none }) ht.stations.1
    rw [if_pos rfl] at station
    rw [step] at tidy ⊢
    refine ⟨⟨tidy, .inr fun n o m hm ho => ?_⟩, ?_⟩
    · rw [station] at hm ⊢
      exact holds n o m (.inr (hm.resolve_left nofun)) ho
    · have le := windowLeft_le _ station
      rw [if_pos rfl] at le
      rw [left, if_neg hn]
      dsimp only at le
      omega
  cases hn : (s.station st).owner with
  | none =>
    cases hq : (s.station st).presQueue with
    | nil => exact .inl (windowStep_idle opened hn hq)
    | cons n rest =>
      right
      have step := windowStep_owns opened hn hq
      have station := s.modStation_station st st (fun w => { w with owner := some n, presQueue := rest }) ht.stations.1
      rw [if_pos rfl] at station
      rw [step] at tidy ⊢
      generalize hv : (s.modStation st fun w => { w with owner := some n, presQueue := rest }) = v at *
      have orders (k : Nat) : v.order k = s.order k := by rw [← hv]; rfl
      refine ⟨⟨tidy, .inr fun k o m hm ho hmem hl => ?_⟩, ?_⟩
      · rw [State.modOrder_station, station] at hm ⊢
        rw [State.modOrder_order_of _ _ _ _ (by intro _; rfl), orders] at ho
        obtain ⟨p, hp, rfl⟩ := Option.map_eq_some_iff.1 ho
        refine holds k p m (.inr ?_) hp (by split at hmem <;> exact hmem) hl
        rw [hq]
        exact hm.elim (fun h => by cases h; exact .head _) fun h => .tail _ h
      · have le := windowLeft_le (s := v.modOrder n fun o => { o with state := .presenting }) _
          ((State.modOrder_station _ _ _ st).trans station)
        rw [left, if_pos hn, hq, List.length_cons]
        dsimp only at le
        split at le <;> omega
  | some n =>
    have owned : (s.station st).owner ≠ none := by rw [hn]; nofun
    cases ho : s.order n with
    | none => exact .inr (gives_up (windowStep_lost opened hn ho) owned)
    | some o =>
      cases hi : o.nextInLane with
      | none =>
        have waits := windowStep_waits opened hn ho hi
        split at waits
        · exact .inl waits
        · exact .inr (gives_up waits owned)
      | some p =>
        obtain ⟨r, b⟩ := p
        right
        obtain ⟨-, m, hm, hl, rfl⟩ := nextInLane_inLane hi
        have done := present_windowLeft ht r (holds n o m (.inl hn) ho (List.mem_of_getElem? hm) hl)
        rw [windowStep_presents opened hn ho hi] at tidy ⊢
        exact ⟨⟨tidy, .inl done⟩, by omega⟩

theorem repeatTimes_windowStep_fixed (n : Nat) (h : Passing s st) (hn : s.windowLeft st ≤ n) :
    State.windowStep st (repeatTimes (State.windowStep st) n s) = repeatTimes (State.windowStep st) n s := by
  induction n generalizing s with
  | zero =>
    refine (windowStep_progress h).resolve_right fun hp => ?_
    omega
  | succ n ih =>
    rcases windowStep_progress h with same | ⟨hp, hlt⟩
    · rw [repeatTimes_idle _ _ same]
      exact same
    · exact ih hp (by omega)

end

/-! ## The end of an order -/

section
variable {s : State} {num : Nat} {o : Order}

theorem ended_iff (x : MemberState) : x.ended = true ↔ x ∈ [MemberState.done, .stranded, .failed, .cancelled] := by
  cases x <;> simp [MemberState.ended, MemberState.live]

theorem orderHeld_iff : s.orderHeld num = true ↔
    (∃ j ∈ s.jobs, ∃ r, j.owner = .member r ∧ r.order = num) ∨ (∃ c ∈ s.carries, c.ref.order = num) ∨
      (∃ e ∈ s.pool.waitList, e.ref.order = num) ∨ ∃ p ∈ s.desk.stations, ∃ l ∈ p.2.lane, l.ref.order = num := by
  have owned (j : Job) : (match j.owner with
      | .member r => decide (r.order = num)
      | _ => false) = true ↔ ∃ r, j.owner = .member r ∧ r.order = num := by
    cases j.owner <;> simp
  simp only [State.orderHeld, Bool.or_eq_true, List.any_eq_true, decide_eq_true_eq, or_assoc]
  refine or_congr_left (exists_congr fun j => and_congr_right fun _ => ?_)
  exact owned j

theorem endTest_found (ho : s.order num = some o) : s.endTest num =
    if o.state ≠ .waiting ∧ (o.members.all fun m => m.state.ended) = true ∧ s.orderHeld num = false then
      (s.endOrder o).windowPass o.station
    else s := by
  rw [State.endTest, ho]

theorem settleOrder_none (ho : s.order num = none) : s.settleOrder num = s := by
  rw [State.settleOrder, ho]

theorem settleOrder_found (ho : s.order num = some o) :
    s.settleOrder num = ((s.gatherTest num).windowPass o.station).endTest num := by
  rw [State.settleOrder, ho]

/-- The order of a number outlasts the release of held records. -/
theorem forEach_releaseHeld_order (refs : List MemberRef) (h : ∃ p, s.order num = some p) :
    ∃ p, (forEach refs (fun r s => s.releaseHeld r) s).order num = some p := by
  refine forEach_induct (fun v : State => ∃ p, v.order num = some p) _ (fun r v hv => ?_) refs s h
  obtain ⟨p, hp⟩ := hv
  rw [releaseHeld_order, hp]
  exact ⟨_, rfl⟩

theorem clearPending_station (k : Nat) : (s.clearPending o).station k = s.station k :=
  (congrArg (fun x : State => x.station k) clearPending_unpended.rest).trans rfl

theorem clearPending_order (k : Nat) : (s.clearPending o).order k = s.order k :=
  (congrArg (fun x : State => x.order k) clearPending_unpended.rest).trans rfl

/-- An order's station is left, its flags cleared, its end told and its record absent (R98). -/
def State.closing (s : State) (o p : Order) : State :=
  (((s.modStation o.station fun w =>
    { w with
      owner := if w.owner = some o.number then none else w.owner
      presQueue := w.presQueue.filter fun n => ¬ n = o.number }).clearPending o).notice p.endNotice).freeRecord o.number

theorem endOrder_eq {p : Order} (hp : (forEach o.refs (fun r s => s.releaseHeld r)
      (s.giveUpItems o.number .orderEnd o.tags)).order o.number = some p) : s.endOrder o =
    (forEach o.refs (fun r s => s.releaseHeld r) (s.giveUpItems o.number .orderEnd o.tags)).closing o p := by
  unfold State.endOrder State.closing
  dsimp only
  generalize forEach o.refs (fun r s => s.releaseHeld r) (s.giveUpItems o.number .orderEnd o.tags) = v at hp ⊢
  generalize hw : v.modStation o.station _ = w
  have same : (w.clearPending o).order o.number = some p := by
    rw [clearPending_order, ← hw]
    exact hp
  rw [same]

theorem closing_bin (p : Order) (b : Nat) : (s.closing o p).bin b =
    (s.bin b).map fun r => if b ∈ pendingBins o then { r with pending := false } else r := by
  unfold State.closing State.freeRecord
  rw [State.oweRestore_bin, State.oweDrain_bin, State.dropOrder_bin, State.notice_bin, clearPending_unpended.bins]
  rfl

theorem closing_station (ht : s.desk.stations.wf) (p : Order) (k : Nat) : (s.closing o p).station k = if k = o.station then
    { s.station k with
      owner := if (s.station k).owner = some o.number then none else (s.station k).owner
      presQueue := (s.station k).presQueue.filter fun n => decide (n ≠ o.number) } else s.station k := by
  unfold State.closing State.freeRecord
  rw [State.oweRestore_station, State.oweDrain_station, State.dropOrder_station, State.notice_station,
    clearPending_station, State.modStation_station s o.station k _ ht]
  split
  · next hk => simp [hk]
  · rfl

theorem closing_rest (p : Order) : s.closing o p = { s with
    store := { s.store with bins := (s.closing o p).store.bins }
    desk := { s.desk with
      stations := (s.closing o p).desk.stations, orders := s.desk.orders.filter fun q => decide (q.2.number ≠ o.number) }
    work := { s.work with
      drain := true, restore := s.work.restore ++ (pendingBins o).map RestoreTest.bin ++ [.pass]
      up := s.work.up ++ [.notice p.endNotice] } } := by
  unfold State.closing State.freeRecord
  rw [dropOrder_eq, clearPending_unpended.rest]
  rfl

end

/-! ## BIN_DONE -/

/-- From `s` to `u` the items of a member whose bin leaves the window have been settled: some given up, `lost` counted
(R96, R126, R149). -/
structure ItemsSettled (s : State) (num : Nat) (o : Order) (removed : List Nat) (lost : Nat) (u : State) : Prop where
  items : ∀ t, u.item t = if t ∈ removed then none else s.item t
  bins : ∀ b, u.bin b = (s.bin b).map fun r => { r with itemRefs := r.itemRefs - s.homedIn b removed }
  orders : ∀ k, u.order k = (s.order k).map fun p => if k = num then { p with notTaken := p.notTaken + lost } else p
  rest : u = { s with
    loans := { s.loans with items := u.loans.items }
    store := { s.store with bins := u.store.bins }
    desk := { s.desk with orders := u.desk.orders }
    work := { s.work with up := s.work.up ++ removed.map fun t => UpMsg.notice (.notTaken num o.patron t .binDone) } }

theorem modify_congr_at {α : Type} {l : List α} {i : Nat} {f g : α → α} (h : ∀ x, l[i]? = some x → f x = g x) :
    l.modify i f = l.modify i g := by
  refine List.ext_getElem? fun j => ?_
  rw [List.getElem?_modify, List.getElem?_modify]
  split
  · next hj =>
    subst hj
    cases hx : l[i]? with
    | none => rfl
    | some x => exact congrArg some (h x hx)
  · rfl

theorem binAisle_of_home {s t : State} {b : Nat} (h : (t.bin b).map (·.home) = (s.bin b).map (·.home)) :
    t.binAisle b = s.binAisle b := by
  unfold State.binAisle
  cases ht : t.bin b with
  | none => cases hs : s.bin b with
    | none => rfl
    | some x => rw [ht, hs] at h; cases h
  | some y => cases hs : s.bin b with
    | none => rw [ht, hs] at h; cases h
    | some x =>
      rw [ht, hs] at h
      exact congrArg Slot.aisle (Option.some.inj h)

section
variable {s : State} {st : Nat} {l : LaneBin} {o : Order} {m : Member} {r : MemberRef}

theorem settleItems_settled (ht : s.Tidy) (ho : s.order r.order = some o) (hm : s.member r = some m) :
    let removed := if o.kind = .patron then s.requestedOf r.order m.items else []
    ItemsSettled s r.order o removed (if o.kind = .patron then removed.length else s.stillReturned m.items)
      (s.settleItems r) := by
  intro removed
  cases hk : o.kind with
  | patron =>
    have gave := giveUpItems_gaveUp (cause := .binDone) ht ho m.items
    have settles : s.settleItems r = s.giveUpItems r.order .binDone m.items := by
      rw [State.settleItems, ho, hm]
      dsimp only
      rw [hk]
    have same : removed = s.requestedOf r.order m.items := if_pos hk
    rw [settles, same, if_pos rfl]
    exact ⟨gave.items, gave.bins, gave.orders, gave.rest⟩
  | restore =>
    have settles : s.settleItems r = s.countNotTaken r.order (s.stillReturned m.items) := by
      rw [State.settleItems, ho, hm]
      dsimp only
      rw [hk]
    have same : removed = [] := if_neg (by rw [hk]; nofun)
    rw [settles, same, if_neg nofun]
    refine ⟨fun t => by simp [State.countNotTaken], fun b => by simp [State.countNotTaken, State.homedIn],
      fun k => s.modOrder_order_of _ _ _ fun _ => rfl, ?_⟩
    rw [List.map_nil, List.append_nil]
    rfl

/-- A member whose bin leaves the window is RETURNING (R96). -/
def State.returned (s : State) (r : MemberRef) : State :=
  if s.memberState r = some .atWindow then s.setMember r .returning else s

theorem returned_order (k : Nat) : (s.returned r).order k = (s.order k).map fun p => if k = r.order then
    { p with members := p.members.modify r.pos fun x =>
      if x.state = .atWindow then { x with state := .returning } else x } else p := by
  have turned (f : Member → Member) (hf : ∀ x, s.member r = some x → f x =
      if x.state = .atWindow then { x with state := .returning } else x) : (s.modMember r f).order k =
        (s.order k).map fun p => if k = r.order then { p with members := p.members.modify r.pos fun x =>
          if x.state = .atWindow then { x with state := .returning } else x } else p := by
    rw [State.modMember_order]
    refine Option.map_congr fun p hp => ?_
    split
    · next hk =>
      rw [modify_congr_at fun x hx => hf x ?_]
      rw [State.member, ← hk, hp]
      exact hx
    · rfl
  unfold State.returned
  split
  · next h =>
    refine turned _ fun x hx => ?_
    rw [State.memberState, hx] at h
    rw [if_pos (Option.some.inj h)]
  · next h =>
    have kept := turned id fun x hx => by
      rw [if_neg fun ha => h (by rw [State.memberState, hx, ← ha]; rfl)]
      rfl
    rw [← kept, State.modMember_order]
    simp [List.modify_id]

theorem returned_rest : s.returned r = { s with desk := { s.desk with orders := (s.returned r).desk.orders } } := by
  unfold State.returned
  split <;> rfl

/-- A window bin is finished, its order not yet tested (R96). -/
def State.finishing (s : State) (st : Nat) (l : LaneBin) : State :=
  (((s.markLane st l.bin .outbound).settleItems l.ref).returned l.ref).toDownLeg l.ref l.bin st

theorem finishWindow_eq : s.finishWindow st l = (s.finishing st l).settleOrder l.ref.order := rfl

theorem finishing_spec (ht : s.Tidy) (ho : s.order l.ref.order = some o) (hm : s.member l.ref = some m) :
    let u := s.finishing st l
    let removed := if o.kind = .patron then s.requestedOf l.ref.order m.items else []
    let lost := if o.kind = .patron then removed.length else s.stillReturned m.items
    (∀ t, u.item t = if t ∈ removed then none else s.item t) ∧
    (∀ b, u.bin b = (s.bin b).map fun r => { r with itemRefs := r.itemRefs - s.homedIn b removed }) ∧
    (∀ k, u.station k = if k = st then
      { s.station st with lane := (s.station st).lane.map fun x => if x.bin = l.bin then { x with mark := .outbound } else x }
      else s.station k) ∧
    (∀ k, u.order k = (s.order k).map fun p => if k = l.ref.order then
      { p with
        notTaken := p.notTaken + lost
        members := p.members.modify l.ref.pos fun x => if x.state = .atWindow then { x with state := .returning } else x }
      else p) ∧
    u = { s with
      loans := { s.loans with items := u.loans.items }
      store := { s.store with bins := u.store.bins }
      desk := { s.desk with orders := u.desk.orders, stations := u.desk.stations }
      pool := { s.pool with waitList := s.pool.waitList ++
        [{ bin := l.bin, leg := .down, aisle := s.binAisle l.bin, station := st, ref := l.ref }] }
      work := { s.work with
        up := s.work.up ++ removed.map fun t => UpMsg.notice (.notTaken l.ref.order o.patron t .binDone), scan := true } } := by
  intro u removed lost
  have marked := ((Kept.of_tidy ht).markLane st l.bin .outbound).tidy
  have settled := settleItems_settled (s := s.markLane st l.bin .outbound) (r := l.ref) marked ho hm
  have stations (k : Nat) := s.modStation_station st k
    (fun w => { w with lane := w.lane.map fun x => if x.bin = l.bin then { x with mark := .outbound } else x }) ht.stations.1
  have aisle : ((s.markLane st l.bin .outbound).settleItems l.ref).binAisle l.bin = s.binAisle l.bin := by
    have homes : (((s.markLane st l.bin .outbound).settleItems l.ref).bin l.bin).map (·.home) =
        ((s.markLane st l.bin .outbound).bin l.bin).map (·.home) := by
      rw [settled.bins, Option.map_map]
      rfl
    exact binAisle_of_home homes
  have made : u = (((s.markLane st l.bin .outbound).settleItems l.ref).returned l.ref).toDownLeg l.ref l.bin st := rfl
  clear_value u
  generalize (s.markLane st l.bin .outbound).settleItems l.ref = v at settled aisle made
  have turned := returned_rest (s := v) (r := l.ref)
  have orders := returned_order (s := v) (r := l.ref)
  generalize v.returned l.ref = w at turned orders made
  refine ⟨fun t => ?_, fun b => ?_, fun k => ?_, fun k => ?_, ?_⟩
  · rw [made]
    exact ((congrArg (fun x : State => x.item t) turned).trans rfl).trans (settled.items t)
  · rw [made]
    exact ((congrArg (fun x : State => x.bin b) turned).trans rfl).trans (settled.bins b)
  · rw [made]
    exact ((congrArg (fun x : State => x.station k) turned).trans rfl).trans
      (((congrArg (fun x : State => x.station k) settled.rest).trans rfl).trans (stations k))
  · have found : v.order k = _ := settled.orders k
    rw [made]
    refine (orders k).trans ?_
    rw [found]
    show ((s.order k).map _).map _ = _
    cases s.order k with
    | none => rfl
    | some p => by_cases hk : k = l.ref.order <;> simp [hk, lost, removed]; rfl
  · obtain ⟨items, bins, orders₁, hv⟩ : ∃ items bins orders, v = { s.markLane st l.bin .outbound with
        loans := { s.loans with items }
        store := { s.store with bins }
        desk := { (s.markLane st l.bin .outbound).desk with orders }
        work := { s.work with
          up := s.work.up ++ removed.map fun t => UpMsg.notice (.notTaken l.ref.order o.patron t .binDone) } } :=
      ⟨_, _, _, settled.rest⟩
    obtain ⟨orders₂, hw⟩ : ∃ orders, w = { v with desk := { v.desk with orders } } := ⟨_, turned⟩
    have same : w.binAisle l.bin = s.binAisle l.bin := by rw [hw]; exact aisle
    have down : u = { w with
        pool := { w.pool with waitList := w.pool.waitList ++
          [{ bin := l.bin, leg := .down, aisle := s.binAisle l.bin, station := st, ref := l.ref }] }
        work := { w.work with scan := true } } := by
      rw [made, ← same]
      rfl
    rw [hw, hv] at down
    rw [down]
    rfl

end

section
variable {s : State} {st : Fin 24} {bin : BitVec 16}

theorem binDone_unaddressed (hr : s.running) (ha : s.stationAddress st = none) : HasNoEffect (.binDone st bin) s :=
  event_idle hr (if_neg (by simpa [State.stationAddress] using ha))

theorem exec_binDone (hr : s.running) (ha : s.stationAddress st ≠ none) :
    exec (.binDone st bin) s = .next (s.eventEnds (s.beginEvent.takeBinDone st bin.toNat)) :=
  event_ends hr (if_pos (Option.isSome_iff_ne_none.2 ha))

theorem takeBinDone_named {st b : Nat} {l : LaneBin} (hl : (s.station st).window = some l) (hb : l.bin = b)
    (hk : (s.station st).kind ≠ .chute) : s.takeBinDone st b = s.finishWindow st l := by
  rw [State.takeBinDone, hl]
  exact if_pos ⟨hb, hk⟩

theorem takeBinDone_unnamed {st b : Nat}
    (h : ¬ ((s.station st).kind ≠ .chute ∧ ∃ l, (s.station st).window = some l ∧ l.bin = b)) :
    s.takeBinDone st b = s.modStation st fun w => { w with unmatched := countUp w.unmatched } := by
  unfold State.takeBinDone
  split
  · next l hl => exact if_neg fun hx => h ⟨hx.2, l, hl, hx.1⟩
  · rfl

end

/-- Settles O42. -/
theorem binDoneFinishesTheWindow : Obligations.BinDoneFinishesTheWindow := by
  refine ⟨window_iff, fun s st bin hr ht => ?_, fun s st ht => ?_, fun s num o ho => ?_,
    fun s num => ⟨settleOrder_none, fun o ho => settleOrder_found ho⟩, fun s st ht => ⟨rfl, fun h => ?_⟩, fun s num o ht ho => ?_⟩
  · intro c w named
    refine ⟨binDone_unaddressed hr, fun ha hn => ?_, fun l o m ha hk hl hb ho hm => ?_⟩
    · refine ⟨s.beginEvent.modStation st fun w => { w with unmatched := countUp w.unmatched }, fun k => ?_, rfl, ?_⟩
      · exact s.beginEvent.modStation_station st k _ ht.stations.1
      · rw [exec_binDone hr ha, takeBinDone_unnamed (s := s.beginEvent) hn, State.eventEnds]
        exact congrArg (fun u => Host.Outcome.next (s.closeEvent u none)) (settle_idle _ rfl)
    · intro removed returned lost
      have number : o.number = l.ref.order := s.order_number _ _ ho
      obtain ⟨items, bins, stations, orders, rest⟩ := finishing_spec (s := s.beginEvent) (st := st) (l := l) { ht with } ho hm
      have removed_eq : removed = if o.kind = .patron then s.beginEvent.requestedOf l.ref.order m.items else [] := by
        rw [← number]
        rfl
      refine ⟨s.beginEvent.finishing st l, ?_, ?_, stations, fun k => ?_, ?_, ?_⟩
      · rw [removed_eq]; exact items
      · rw [removed_eq]; exact bins
      · have lost_eq : lost = if o.kind = .patron then
            (if o.kind = .patron then s.beginEvent.requestedOf l.ref.order m.items else []).length
            else s.beginEvent.stillReturned m.items := by
          rw [← removed_eq]
          rfl
        rw [lost_eq, number]
        exact orders k
      · rw [removed_eq, number]
        exact rest
      · rw [exec_binDone hr ha, takeBinDone_named (s := s.beginEvent) hl hb hk, finishWindow_eq, number]
  · intro w onWay step
    have onWay_iff (m : Member) : (m.state.expected && decide (m.state ≠ .waitBin)) = true ↔ onWay m := by
      simp only [onWay]
      cases m.state <;> simp [MemberState.expected]
    refine ⟨windowStep_blocked, fun hc hw => ⟨windowStep_idle ⟨hc, hw⟩, fun n rest ho hq => ?_, fun n o hn ho =>
      ⟨fun i m hm hl first => ?_, fun none_ => ⟨fun h => ?_, fun h => ?_⟩⟩⟩⟩
    · refine ⟨_, fun k => ?_, fun k => ?_, ?_, windowStep_owns ⟨hc, hw⟩ ho hq⟩
      · exact (State.modOrder_station _ _ _ k).trans
          (s.modStation_station st k (fun w => { w with owner := some n, presQueue := rest }) ht.stations.1)
      · exact State.modOrder_order_of _ n k _ fun _ => rfl
      · rfl
    · have step_eq := windowStep_presents ⟨hc, hw⟩ hn ho (nextInLane_some hm hl first)
      refine ⟨_, present_station ht _ _, fun k => ?_, ?_, step_eq⟩
      · have number := s.order_number n o ho
        refine (State.sendUnit_order _ _ _ _ _ k).trans ?_
        rw [State.modOrder_order_of _ _ _ _ (by intro _; rfl), State.setMember, State.modMember_order]
        show ((s.order k).map _).map _ = _
        cases s.order k with
        | none => rfl
        | some p => by_cases hk : k = n <;> simp [hk, number]
      · rw [State.present, State.sendPresent, State.sendUnit_eq]
        rfl
    · refine (windowStep_waits ⟨hc, hw⟩ hn ho (nextInLane_none none_)).trans (if_pos ?_)
      obtain ⟨m, hm, hx⟩ := h
      exact List.any_eq_true.2 ⟨m, hm, (onWay_iff m).2 hx⟩
    · refine ⟨_, fun k => s.modStation_station st k (fun w => { w with owner := none }) ht.stations.1, rfl,
        (windowStep_waits ⟨hc, hw⟩ hn ho (nextInLane_none none_)).trans (if_neg fun hx => ?_)⟩
      obtain ⟨m, hm, hx⟩ := List.any_eq_true.1 hx
      exact h m hm ((onWay_iff m).1 hx)
  · intro past held ends
    have ends_iff : (o.state ≠ .waiting ∧ (o.members.all fun m => m.state.ended) = true ∧ s.orderHeld num = false) ↔ ends := by
      refine and_congr_right fun _ => and_congr ?_ ?_
      · simp only [List.all_eq_true, ended_iff]
        rfl
      · rw [← Bool.not_eq_true, orderHeld_iff]
    exact ⟨fun h => (endTest_found ho).trans (if_neg fun hx => h (ends_iff.1 hx)),
      fun h => (endTest_found ho).trans (if_pos (ends_iff.2 h))⟩
  · refine repeatTimes_windowStep_fixed _ ⟨ht, .inr h⟩ ?_
    have le := windowLeft_le (s := s) (st := st) _ rfl
    split at le <;> omega
  · intro refs v bins
    have number := s.order_number num o ho
    have gave := giveUpItems_gaveUp (cause := .orderEnd) ht ho o.tags
    have refs_eq : o.refs = refs := by rw [Order.refs, number]
    obtain ⟨p, hp⟩ : ∃ p, v.order num = some p := by
      refine forEach_releaseHeld_order refs ⟨{ o with notTaken := o.notTaken + (s.requestedOf num o.tags).length }, ?_⟩
      refine (gave.orders num).trans ?_
      rw [ho, Option.map_some, if_pos rfl]
    have p_number := v.order_number num p hp
    have ended : s.endOrder o = v.closing o p := by
      rw [endOrder_eq (p := p)]
      · rw [refs_eq, number]
        rfl
      · rw [refs_eq, number]
        exact hp
    refine ⟨p, v.closing o p, hp, ?_⟩
    intro count
    have wf : v.desk.stations.wf :=
      ((Kept.of_tidy gave.tidy).forEach refs (fun r t => t.releaseHeld r) fun r _ h => h.releaseHeld r).tidy.stations.1
    refine ⟨closing_bin p, fun k => ?_, ?_, ended⟩
    · refine (closing_station wf p k).trans ?_
      rw [number]
    · have told : p.endNotice = .orderEnd num p.kind p.station p.patron p.taken p.notTaken (count .stranded)
          (count .failed) (count .cancelled) := by
        rw [Order.endNotice, p_number]
      have rest := closing_rest (s := v) (o := o) p
      rw [told, number] at rest
      exact rest

end Sys2Proof.Machine
end

section
/-! PROOF (O45). FITNESS, the answer timer, and what barring does (R108 to R113). -/

namespace Sys2Proof.Machine

/-! ## The words told to the field -/

/-- A lift's word as MEMBER carries it. -/
def memberTelegrams (s : State) (l : Nat) : List Queued :=
  toUnit (s.liftAddress l) 26 (be 1 (s.lift l).word.code ++ be 1 ((s.lift l).word.seq.getD 0)) .kept

theorem sendMember_eq (s : State) (l : Nat) :
    s.sendMember l = s.modWork fun w => { w with down := w.down ++ memberTelegrams s l } := s.sendUnit_eq _ _ _ _

theorem forEach_sendMember (ls : List Nat) (s : State) : forEach ls (fun l s => s.sendMember l) s =
    s.modWork fun w => { w with down := w.down ++ ls.flatMap (memberTelegrams s) } := by
  induction ls using List.reverseRecOn with
  | nil => simp; rfl
  | append_singleton ls l ih =>
    have step : forEach (ls ++ [l]) (fun l s => s.sendMember l) s = (forEach ls (fun l s => s.sendMember l) s).sendMember l :=
      List.foldl_append
    rw [step, ih, sendMember_eq, List.flatMap_append, List.flatMap_singleton]
    simp only [← List.append_assoc]
    rfl

theorem tellWords_eq (s before : State) :
    let changed (l : Nat) : Bool := decide ((s.lift l).word ≠ (before.lift l).word)
    let outside := (List.range 6).filter fun l => changed l && decide ((s.lift l).word.seq = none)
    let inside := ((List.range 6).filterMap s.liftWithSeq).filter changed
    s.tellWords before = s.modWork fun w => { w with down := w.down ++ (outside ++ inside).flatMap (memberTelegrams s) } := by
  intro changed outside inside
  have outs : (allLifts.filter fun l => changed l && !(s.lift l).word.member) = outside := by
    refine List.filter_congr fun l _ => ?_
    rw [Word.member_eq]
    cases (s.lift l).word.seq <;> rfl
  refine Eq.trans ?_ (forEach_sendMember (outside ++ inside) s)
  rw [← outs]
  rfl

/-! ## The order in which lifts are barred -/

section
variable {s : State} {ls : List Nat}

/-- The lift of a list with a number, found in the order of R111. -/
theorem find_seq {q l : Nat} (h : ls.find? (fun l => decide ((s.lift l).word.seq = some q)) = some l) :
    (s.lift l).word.seq = some q := by simpa using List.find?_some h

theorem seq_lt_six (h : s.rotationLaw) {l q : Nat} (hl : l < 6) (hq : (s.lift l).word.seq = some q) : q < 6 := by
  have below := ((rotationLaw_iff s).1 h).words.below l q hl hq
  have size : membersOf (fun l => (s.lift l).word) ≤ 6 := List.countP_le_length.trans (by simp [allLifts])
  omega

theorem bySeqDown_perm (h : s.rotationLaw) (hn : ls.Nodup) (hl : ∀ l ∈ ls, l < 6) : (s.bySeqDown ls).Perm ls := by
  have words := ((rotationLaw_iff s).1 h).words
  have nodup : (s.bySeqDown ls).Nodup := by
    refine List.Nodup.append ?_ (hn.filter _) ?_
    · refine (List.nodup_reverse.2 List.nodup_range).filterMap fun p q l hp hq => ?_
      exact Option.some.inj ((find_seq hp).symm.trans (find_seq hq))
    · intro l hin hout
      obtain ⟨q, -, hq⟩ := List.mem_filterMap.1 hin
      have idle := (List.mem_filter.1 hout).2
      rw [Word.member_eq, find_seq hq] at idle
      cases idle
  refine (List.perm_ext_iff_of_nodup nodup hn).2 fun l => ⟨mem_of_mem_bySeqDown, fun hm => ?_⟩
  rw [State.bySeqDown, List.mem_append]
  cases hq : (s.lift l).word.seq with
  | none => exact .inr (List.mem_filter.2 ⟨hm, by rw [Word.member_eq, hq]; rfl⟩)
  | some q =>
    refine .inl (List.mem_filterMap.2 ⟨q, by simpa using seq_lt_six h (hl l hm) hq, ?_⟩)
    cases hf : ls.find? fun l => decide ((s.lift l).word.seq = some q) with
    | none => exact absurd (by simpa using hq) (List.find?_eq_none.1 hf l hm)
    | some k => rw [words.seq_inj (hl k (List.mem_of_find?_eq_some hf)) (hl l hm) (find_seq hf) hq]

theorem bySeqDown_descends : (s.bySeqDown ls).Pairwise fun k l =>
    ∀ q, (s.lift l).word.seq = some q → ∃ p, (s.lift k).word.seq = some p ∧ q < p := by
  have idle {l : Nat} (hm : l ∈ ls.filter fun l => !(s.lift l).word.member) {q : Nat} (hq : (s.lift l).word.seq = some q) : False := by
    have out := (List.mem_filter.1 hm).2
    rw [Word.member_eq, hq] at out
    cases out
  refine List.pairwise_append.2 ⟨?_, List.pairwise_of_forall_mem_list fun k _ l hl q hq => (idle hl hq).elim,
    fun k _ l hl q hq => (idle hl hq).elim⟩
  rw [List.pairwise_filterMap]
  refine (List.pairwise_reverse.2 List.pairwise_lt_range).imp fun {p q} hlt k hk l hl m hm => ?_
  have same : m = q := Option.some.inj (hm.symm.trans (find_seq hl))
  exact ⟨p, find_seq hk, by omega⟩

end

/-! ## A failed join -/

section
variable {s : State} {l : Nat} {cause : JoinCause}

theorem failJoin_spec (ht : s.Tidy) {a : Nat} (ha : s.liftAddress l = some a) :
    (∀ k, (s.failJoin l cause).lift k = if k = l then { s.lift l with word := .off, answerTimer := none } else s.lift k) ∧
    s.failJoin l cause = { s with
      pool := { s.pool with lifts := (s.failJoin l cause).pool.lifts }
      work := { s.work with
        up := s.work.up ++ [.notice (.joinFailed l cause)]
        down := s.work.down ++
          [{ telegram := { dest := a, src := 126, kind := 26, tag := 0, body := [0#8, 0#8] }, cls := .kept }] } } := by
  have turned (k : Nat) := s.modLift_lift l k (fun r => { r with word := .off, answerTimer := none }) ht.lifts.1
  let v := s.modLift l fun r => { r with word := .off, answerTimer := none }
  have address : v.liftAddress l = some a := ha
  have word : (v.lift l).word = .off := by rw [turned, if_pos rfl]
  have sent : s.failJoin l cause = (v.modWork fun w => { w with down := w.down ++
      [{ telegram := { dest := a, src := 126, kind := 26, tag := 0, body := [0#8, 0#8] }, cls := .kept }] }).notice
        (.joinFailed l cause) := by
    show (v.sendMember l).notice (.joinFailed l cause) = _
    rw [sendMember_eq, memberTelegrams, address, word]
    rfl
  rw [sent]
  exact ⟨turned, rfl⟩

end

section
variable {s : State} {l : Fin 6}

theorem fitness_unaddressed (hr : s.running) (ha : s.liftAddress l = none) (fit : Bool) : HasNoEffect (.fitness l fit) s :=
  event_idle hr (if_neg (by simpa [State.liftAddress] using ha))

theorem fitness_noEffect (hr : s.running) (fit : Bool) (h : s.beginEvent.takeFitness l fit = s.beginEvent) :
    HasNoEffect (.fitness l fit) s := by
  refine event_idle hr ?_
  split
  · exact h
  · rfl

theorem exec_fitness (hr : s.running) {a : Nat} (ha : s.liftAddress l = some a) (fit : Bool) :
    exec (.fitness l fit) s = .next (s.eventEnds (s.beginEvent.takeFitness l fit)) :=
  event_ends hr (if_pos (by
    have address : s.beginEvent.liftAddress l = some a := ha
    rw [address]
    rfl))

theorem takeFitness_member_fit {l q : Nat} (hq : (s.lift l).word.seq = some q) : s.takeFitness l true = s := by
  unfold State.takeFitness
  rcases (Word.seq_eq_some _ q).1 hq with hw | hw <;> rw [hw]

theorem takeFitness_member_unfit {l q : Nat} (hq : (s.lift l).word.seq = some q) :
    s.takeFitness l false = s.barLifts [l] .unfit := by
  unfold State.takeFitness
  rcases (Word.seq_eq_some _ q).1 hq with hw | hw <;> rw [hw]

theorem takeFitness_ask_fit {l : Nat} (hw : (s.lift l).word = .ask) : s.takeFitness l true = s.admitLift l := by
  unfold State.takeFitness
  rw [hw]

theorem takeFitness_ask_unfit {l : Nat} (hw : (s.lift l).word = .ask) : s.takeFitness l false = s.failJoin l .unfit := by
  unfold State.takeFitness
  rw [hw]

theorem takeFitness_out {l : Nat} (fit : Bool) (hw : (s.lift l).word = .off ∨ (s.lift l).word = .bar) :
    s.takeFitness l fit = s := by
  unfold State.takeFitness
  rcases hw with hw | hw <;> rw [hw]

/-- What the expiry of an answer timer does (R109). -/
def answerTimerBody (l : Fin 6) (s : State) : State := if (s.lift l).answerTimer.isSome then s.failJoin l .noAnswer else s

theorem exec_answerTimerExpiry (l : Fin 6) (s : State) :
    exec (.answerTimerExpiry l) s = s.live (s.event (answerTimerBody l)) := rfl

end

/-! ## Lifts barred -/

section
variable {s : State} {l : Nat}

theorem barred_member (ht : s.Tidy) (hl : l < 6) {q : Nat} (hq : (s.lift l).word.seq = some q) :
    (∀ k, k < 6 → (s.removeLift l .bar).lift k =
      if k = l then { s.lift l with word := .bar }
      else { s.lift k with word := (s.lift k).word.renumber q (s.rotationSize - 2) }) ∧
    (∀ k, 6 ≤ k → (s.removeLift l .bar).lift k = s.lift k) :=
  ⟨fun k hk => (removeLift_lift ht hq rfl hk).trans (by split <;> simp_all), fun k hk => removeLift_lift_other ht hl hq hk⟩

theorem barCarries_lift (ht : s.Tidy) (k : Nat) :
    (s.modLift l fun r => { r with answerTimer := none, carries := r.carries.map fun c => { c with late := true, timer := none } }).lift k =
      if k = l then { s.lift l with
        answerTimer := none, carries := (s.lift l).carries.map fun c => { c with late := true, timer := none } } else s.lift k :=
  s.modLift_lift l k _ ht.lifts.1

end

theorem enterRotation_rest (s : State) (l : Nat) : LiftsAlone s (s.enterRotation l) := by
  have tails := forEachLift_alone allLifts (fun _ => Lift.untailed) s
  have set (t : State) (f : Lift → Lift) : LiftsAlone t (t.modLift l f) := rfl
  rw [enterRotation_eq]
  exact (tails.trans (set _ _)).trans (set _ _)

theorem enterRotation_lift_other {s : State} (ht : s.Tidy) {l k : Nat} (hl : l < 6) (hk : 6 ≤ k) :
    (s.enterRotation l).lift k = s.lift k := by
  have others := forEachLift_lift ht (fun _ => Lift.untailed) (ls := allLifts) List.nodup_range k
  rw [if_neg fun h => absurd (mem_allLifts.1 h) (by omega)] at others
  rw [enterRotation_eq, State.modLift_lift_ne _ _ _ _ (by omega), State.setWord, State.modLift_lift_ne _ _ _ _ (by omega), others]

/-- Settles O45. -/
theorem fitnessDecidesTheJoin : Obligations.FitnessDecidesTheJoin := by
  refine ⟨fun s l hr ht => ?_, fun s l ht => ⟨fun hw => ?_, fun q hl hq => ?_⟩, fun s ls cause => rfl,
    fun s ls h hn hl => ⟨bySeqDown_perm h hn hl, bySeqDown_descends⟩, fun s before => tellWords_eq s before,
    fun s l cause ht => ⟨_, barCarries_lift ht, rfl, rfl⟩, fun s c m ht hm => ?_, fun s held h => ?_⟩
  · intro r n fails
    have failing {c : Instr} {a : Nat} {cause : JoinCause} {body : State → State} (ha : s.liftAddress l = some a)
        (hc : exec c s = s.live (s.event body)) (hb : body s.beginEvent = s.beginEvent.failJoin l cause) : fails c a cause := by
      obtain ⟨lifts, rest⟩ := failJoin_spec (s := s.beginEvent) (l := l) (cause := cause) { ht with } ha
      refine ⟨s.beginEvent.failJoin l cause, lifts, rest, ?_⟩
      rw [hc, event_ends hr hb, State.eventEnds]
      exact congrArg (fun u => Host.Outcome.next (s.closeEvent u none)) (settle_idle _ (by rw [rest]; rfl))
    refine ⟨fun ha => ⟨fitness_unaddressed hr ha true, fitness_unaddressed hr ha false⟩,
      fun hw => ⟨fitness_noEffect hr true (takeFitness_out true hw), fitness_noEffect hr false (takeFitness_out false hw)⟩,
      fun q hq => fitness_noEffect hr true (takeFitness_member_fit hq), fun ha => ?_, fun a ha => ⟨fun hw => ?_, fun hw => ?_,
        fun q hq => ?_, fun hw => ?_⟩⟩
    · refine event_idle hr (if_neg ?_)
      have idle : (s.beginEvent.lift l).answerTimer = none := ha
      rw [idle]
      nofun
    · refine failing ha (body := fun t => if (t.liftAddress l).isSome then t.takeFitness l false else t) rfl ?_
      have address : s.beginEvent.liftAddress l = some a := ha
      rw [address]
      exact takeFitness_ask_unfit hw
    · exact failing ha (exec_answerTimerExpiry l s) (if_pos (Option.isSome_iff_ne_none.2 hw))
    · rw [exec_fitness hr ha, takeFitness_member_unfit (s := s.beginEvent) hq]
    · refine ⟨s.beginEvent.enterRotation l, fun k hk => ?_, fun k hk => ?_, ?_, ?_⟩
      · refine (enterRotation_lift (s := s.beginEvent) { ht with } l.isLt hk).trans ?_
        have same : (r.untailed) = r := by
          unfold Lift.untailed
          have word : r.word = .ask := hw
          rw [word]
        split
        · show ({ r.untailed with word := .tail n, answerTimer := none } : Lift) = _
          rw [same]
        · show (s.lift k).untailed = _
          unfold Lift.untailed
          cases (s.lift k).word <;> rfl
      · exact enterRotation_lift_other (s := s.beginEvent) { ht with } l.isLt hk
      · exact enterRotation_rest s.beginEvent l
      · rw [exec_fitness hr ha, takeFitness_ask_fit (s := s.beginEvent) hw]
        rfl
  · rw [removeLift_idle hw]
    exact ⟨_, fun k => s.modLift_lift l k (fun r => { r with word := .bar }) ht.lifts.1, rfl, rfl⟩
  · intro lowered word
    obtain ⟨lifts, others⟩ := barred_member ht hl hq
    refine ⟨_, fun k hk => (lifts k hk).trans ?_, others, removeLift_rest hq, rfl⟩
    split
    · rfl
    · cases hw : (s.lift k).word.seq with
      | none => rw [Word.renumber_idle _ _ (by rw [Word.member_eq, hw]; rfl)]
      | some m =>
        rw [Word.renumber_member _ _ hw]
        rfl
  · intro loses
    have member : (s.setBinState c.bin .stranded).member c.ref = some m := by
      rw [State.member, State.setBinState_order]
      exact hm
    refine ⟨(s.setBinState c.bin .stranded).loseMember c.ref .stranded, fun b => ?_, fun k => ?_, ?_, rfl⟩
    · rw [show ((s.setBinState c.bin .stranded).loseMember c.ref .stranded).bin b = (s.setBinState c.bin .stranded).bin b from
        (congrArg (fun v : State => v.bin b) (loseMember_rest member)).trans rfl, State.setBinState_bin]
      split
      · next hb => subst hb; simp
      · simp
    · refine (loseMember_order member k).trans ?_
      rw [State.setBinState_order]
      by_cases hx : loses
      · simp only [if_pos (show m.state.loses .stranded from hx), hx, and_true]
      · simp [if_neg (show ¬ m.state.loses .stranded from hx), hx, show (fun x : Member => x) = id from rfl, List.modify_id]
    · have rest := loseMember_rest (st := .stranded) member
      generalize (s.setBinState c.bin .stranded).loseMember c.ref .stranded = u at rest ⊢
      obtain ⟨bins, hb⟩ : ∃ bins, s.setBinState c.bin .stranded = { s with store := { s.store with bins } } :=
        ⟨_, s.modBin_eq c.bin _⟩
      rw [hb] at rest
      have same : u.store.bins = bins := congrArg (fun v : State => v.store.bins) rest
      rw [same]
      exact rest
  · intro ls t
    rw [State.barHeld, h]
    rfl

end Sys2Proof.Machine
end

section
/-! PROOF (O53). What refutes it: a queued FETCH that comes from the crane itself, which R63 lets start whatever stands on
the front list (its origin is not a slot), fills a front list past its size. -/

namespace Sys2Proof.Machine

/-- A FETCH whose origin is the crane itself. -/
def craneFetch : Job :=
  { kind := .fetch, cls := .patron, bin := 510, origin := .crane, dest := .front, owner := .recovery }

/-- Aisle 5 with room for one bin at its front, where one stands; its READY crane has bin 510 aboard, and the FETCH of that
bin from the crane is queued. -/
def jammed : State :=
  { State.reset with
    link := { State.reset.link with addresses := [(10, .crane 5)] }
    store := { State.reset.store with aisles := [(5, { Aisle.unconfigured with levels := 40, columns := 200, frontSize := 1, infeedSize := 1 })] }
    dispatch := { State.reset.dispatch with
      cranes := [(5, { Crane.idle with
        state := .ready, place := some { point := .front, load := some 510 }, patronQueue := [craneFetch], front := [511] })] }
    mode := { State.reset.mode with mode := .run } }


theorem jammed_tidy : jammed.Tidy := by constructor <;> decide +kernel

theorem jammed_listsFit : jammed.listsFit 5 := by
  unfold State.listsFit
  decide +kernel

/-- The FETCH starts, and the front list with it is over its size. -/
theorem jammed_dispatched : ¬ (jammed.dispatchTest 5).listsFit 5 := by
  unfold State.listsFit
  decide +kernel

/-- Refutes O53, in its last clause: a state with canonical tables may hold a queued FETCH from the crane, whose start no
front size limits. -/
theorem not_axisTimesAndMoveDeadlines : ¬ Obligations.AxisTimesAndMoveDeadlines := by
  rintro ⟨-, -, -, -, -, -, -, -, -, -, -, -, h⟩
  exact jammed_dispatched ((h jammed 5 jammed_tidy).1 jammed_listsFit)

end Sys2Proof.Machine
end

section
/-! PROOF (O46). CARRIED, the arrivals, the scan and the assignment of a carry (R60, R91, R94, R97, R101, R102, R116 to R120). -/

namespace Sys2Proof.Machine

/-! ## CARRIED -/

section
variable {s : State} {l : Fin 6} {carry : BitVec 16}

theorem carried_unaddressed (hr : s.running) (ha : s.liftAddress l = none) : HasNoEffect (.carried l carry) s :=
  event_idle hr (if_neg (by simpa [State.liftAddress] using ha))

theorem exec_carried (hr : s.running) (ha : s.liftAddress l ≠ none) :
    exec (.carried l carry) s = .next (s.eventEnds (s.beginEvent.takeCarried l carry.toNat)) :=
  event_ends hr (if_pos (Option.isSome_iff_ne_none.2 ha))

/-- What the expiry of a carry's deadline does (R119). -/
def carryDeadlineBody (l : Fin 6) (carry : BitVec 16) (s : State) : State :=
  match s.carryOf l carry.toNat with
  | some c => if c.timer.isSome then s.missCarry l c else s
  | none => s

theorem exec_carryDeadlineExpiry (l : Fin 6) (carry : BitVec 16) (s : State) :
    exec (.carryDeadlineExpiry l carry) s = s.live (s.event (carryDeadlineBody l carry)) := rfl

end

section
variable {s : State} {l tag : Nat} {c : Carry}

theorem takeCarried_none (h : s.carryOf l tag = none) :
    s.takeCarried l tag = s.modLift l fun r => { r with unmatched := countUp r.unmatched } := by
  rw [State.takeCarried, h]

theorem takeCarried_some (h : s.carryOf l tag = some c) : s.takeCarried l tag = s.endCarry l c := by
  rw [State.takeCarried, h]

theorem carryOf_tag (h : s.carryOf l tag = some c) : c.tag = tag := by simpa using List.find?_some h

/-- A carry has ended, its bin OUT again where it was late (R118, R120). -/
def State.carryEnded (s : State) (l : Nat) (c : Carry) : State :=
  if c.late then (s.modLift l (Lift.dropCarry c.tag)).setBinState c.bin .out else s.modLift l (Lift.dropCarry c.tag)

theorem endCarry_eq : s.endCarry l c =
    let v := if c.leg = .up then (s.carryEnded l c).upArrived c.ref c.bin c.station
      else (s.carryEnded l c).downArrived c.ref c.bin c.aisle
    let w := if c.late = true then v.notice (.carryLateDone l c.tag c.bin) else v
    w.oweScan.oweDrain := by
  have dropped : (fun r : Lift => { r with carries := r.carries.filter fun d => ¬ d.tag = c.tag }) = Lift.dropCarry c.tag := by
    funext r
    simp [Lift.dropCarry]
  unfold State.endCarry State.carryEnded
  rw [dropped]
  cases c.leg <;> rfl

theorem carryEnded_lift (ht : s.Tidy) (k : Nat) :
    (s.carryEnded l c).lift k = if k = l then (s.lift l).dropCarry c.tag else s.lift k := by
  have dropped := s.modLift_lift l k (Lift.dropCarry c.tag) ht.lifts.1
  unfold State.carryEnded
  split
  · rw [State.setBinState_lift]
    exact dropped
  · exact dropped

theorem carryEnded_bin (b : Nat) : (s.carryEnded l c).bin b =
    (s.bin b).map fun p => if b = c.bin ∧ c.late = true then { p with state := .out } else p := by
  unfold State.carryEnded
  by_cases hl : c.late = true
  · rw [if_pos hl, State.setBinState_bin]
    show (if b = c.bin then (s.bin c.bin).map _ else s.bin b) = _
    by_cases hb : b = c.bin
    · subst hb
      simp [hl]
    · simp [hb]
  · rw [if_neg hl]
    show s.bin b = _
    simp [hl]

theorem carryEnded_rest : s.carryEnded l c = { s with
    pool := { s.pool with lifts := (s.carryEnded l c).pool.lifts }
    store := { s.store with bins := (s.carryEnded l c).store.bins } } := by
  unfold State.carryEnded
  split
  · rw [State.setBinState, State.modBin_eq]
    rfl
  · rfl

end

/-! ## Arrivals -/

section
variable {s : State} {r : MemberRef} {b st : Nat}

theorem upArrived_cancelled (hz : (s.zone (s.station st).zone).state = .clear) (hm : s.memberState r = some .cancelled) :
    s.upArrived r b st = (s.joinLane st { bin := b, mark := .outbound, ref := r }).toDownLeg r b st := by
  have clear : s.zoneClear (s.station st).zone = true := decide_eq_true hz
  rw [State.upArrived, if_pos clear, if_pos hm]

theorem upArrived_lined (hz : (s.zone (s.station st).zone).state = .clear) (hm : s.memberState r ≠ some .cancelled) :
    s.upArrived r b st = ((((s.joinLane st { bin := b, mark := .lined, ref := r }).setMember r .inLane).startGather
      r.order).rejoin r.order st).settleOrder r.order := by
  have clear : s.zoneClear (s.station st).zone = true := decide_eq_true hz
  rw [State.upArrived, if_pos clear, if_neg hm]

theorem upArrived_shut (hz : (s.zone (s.station st).zone).state ≠ .clear) : s.upArrived r b st =
    ((((s.setBinState b .stranded).loseMember r .stranded).releaseReservation st).releaseHeld r).settleOrder r.order := by
  rw [State.upArrived, if_neg (by simpa [State.zoneClear] using hz)]

theorem joinLane_station (ht : s.Tidy) (x : LaneBin) (k : Nat) : (s.joinLane st x).station k = if k = st then
    { s.station st with reservations := (s.station st).reservations - 1, lane := (s.station st).lane ++ [x] }
    else s.station k :=
  s.modStation_station st k (fun w => { w with reservations := w.reservations - 1, lane := w.lane ++ [x] }) ht.stations.1

/-- The gather of an order begins with the first of its bins in the lane (R93). -/
theorem startGather_order {num : Nat} {o : Order} (ho : s.order num = some o) (k : Nat) : (s.startGather num).order k =
    (s.order k).map fun p => if k = num ∧ o.gatherStart = none ∧ o.gathered = false then
      { p with gatherStart := some s.now, gatherTimer := some (s.now + p.gatherLimit.getD 0) } else p := by
  have begun := s.modOrder_order_of num k
    (fun o => { o with gatherStart := some s.now, gatherTimer := s.after (o.gatherLimit.getD 0) }) fun _ => rfl
  rw [State.startGather, ho]
  dsimp only
  by_cases h : o.gatherStart = none ∧ o.gathered = false
  · rw [if_pos ⟨by rw [h.1]; rfl, h.2⟩, begun]
    simp only [h, and_self, and_true]
    rfl
  · rw [if_neg fun hx => h ⟨by simpa using hx.1, hx.2⟩]
    simp [h]

theorem startGather_rest {num : Nat} : s.startGather num =
    { s with desk := { s.desk with orders := (s.startGather num).desk.orders } } := by
  unfold State.startGather
  split
  · split <;> rfl
  · rfl

theorem rejoin_station (ht : s.desk.stations.wf) {num : Nat} {o : Order} (ho : s.order num = some o) (k : Nat) :
    (s.rejoin num st).station k = if k = st then
      { s.station st with
        presQueue := if o.state = .presenting ∧ (s.station st).owner ≠ some num ∧ num ∉ (s.station st).presQueue then
          (s.station st).presQueue ++ [num] else (s.station st).presQueue }
      else s.station k := by
  rw [State.rejoin, ho]
  dsimp only
  split
  · next h =>
    rw [State.modStation_station _ _ _ _ ht]
  · next h =>
    split
    · next hk => rw [hk]
    · rfl

theorem rejoin_rest {num : Nat} : s.rejoin num st =
    { s with desk := { s.desk with stations := (s.rejoin num st).desk.stations } } := by
  unfold State.rejoin
  split
  · dsimp only
    split <;> rfl
  · rfl

end

/-! ## A bin lined up, and a bin stranded at its station -/

/-- A bin in the lane of its station, its member IN_LANE and its gather begun, its order not yet tested (R91, R93, R94). -/
def State.lining (s : State) (r : MemberRef) (b st : Nat) : State :=
  (((s.joinLane st { bin := b, mark := .lined, ref := r }).setMember r .inLane).startGather r.order).rejoin r.order st

/-- A bin stranded at a station that is not CLEAR, its order not yet tested (R102). -/
def State.strandedAt (s : State) (r : MemberRef) (b st : Nat) : State :=
  (((s.setBinState b .stranded).loseMember r .stranded).releaseReservation st).releaseHeld r

section
variable {s : State} {r : MemberRef} {b st : Nat} {o : Order} {m : Member}

theorem lining_order (ho : s.order r.order = some o) (k : Nat) :
    (s.lining r b st).order k = (s.order k).map fun p => if k = r.order then
      { p with
        members := p.members.modify r.pos fun x => { x with state := .inLane }
        gatherStart := if o.gatherStart = none ∧ o.gathered = false then some s.now else p.gatherStart
        gatherTimer := if o.gatherStart = none ∧ o.gathered = false then some (s.now + o.gatherLimit.getD 0)
          else p.gatherTimer } else p := by
  have lined (i : Nat) : ((s.joinLane st { bin := b, mark := .lined, ref := r }).setMember r .inLane).order i =
      (s.order i).map fun p => if i = r.order then
        { p with members := p.members.modify r.pos fun x => { x with state := .inLane } } else p :=
    (s.joinLane st { bin := b, mark := .lined, ref := r }).modMember_order r _ i
  have own : ((s.joinLane st { bin := b, mark := .lined, ref := r }).setMember r .inLane).order r.order =
      some { o with members := o.members.modify r.pos fun x => { x with state := .inLane } } := by
    rw [lined, ho]
    simp
  have begun := startGather_order own k
  have kept : (s.lining r b st).order k =
      (((s.joinLane st { bin := b, mark := .lined, ref := r }).setMember r .inLane).startGather r.order).order k :=
    (congrArg (fun v : State => v.order k) rejoin_rest).trans rfl
  rw [kept, begun, lined]
  by_cases hk : k = r.order
  · subst hk
    rw [ho]
    by_cases hs : o.gatherStart = none ∧ o.gathered = false
    · simp [hs]
      rfl
    · simp [hs]
  · simp [hk]

theorem lining_station (ht : s.Tidy) (ho : s.order r.order = some o) (k : Nat) :
    (s.lining r b st).station k = if k = st then
      { s.station st with
        reservations := (s.station st).reservations - 1
        lane := (s.station st).lane ++ [{ bin := b, mark := .lined, ref := r }]
        presQueue := if o.state = .presenting ∧ (s.station st).owner ≠ some r.order ∧ r.order ∉ (s.station st).presQueue then
          (s.station st).presQueue ++ [r.order] else (s.station st).presQueue } else s.station k := by
  have joined := joinLane_station ht (st := st) { bin := b, mark := .lined, ref := r }
  have begun (i : Nat) : (((s.joinLane st { bin := b, mark := .lined, ref := r }).setMember r .inLane).startGather
      r.order).station i = (s.joinLane st { bin := b, mark := .lined, ref := r }).station i :=
    (congrArg (fun v : State => v.station i) startGather_rest).trans rfl
  have wf : (((s.joinLane st { bin := b, mark := .lined, ref := r }).setMember r .inLane).startGather
      r.order).desk.stations.wf := by
    rw [startGather_rest]
    exact (((Kept.of_tidy ht).joinLane st _).setMember r .inLane).tidy.stations.1
  have own := lining_order (b := b) (st := st) ho r.order
  obtain ⟨p, found, same⟩ : ∃ p, (((s.joinLane st { bin := b, mark := .lined, ref := r }).setMember r .inLane).startGather
      r.order).order r.order = some p ∧ p.state = o.state := by
    have kept : (s.lining r b st).order r.order =
        (((s.joinLane st { bin := b, mark := .lined, ref := r }).setMember r .inLane).startGather r.order).order r.order :=
      (congrArg (fun v : State => v.order r.order) rejoin_rest).trans rfl
    rw [← kept, own, ho, Option.map_some, if_pos rfl]
    exact ⟨_, rfl, rfl⟩
  rw [State.lining, rejoin_station wf found, begun, begun, joined, joined, if_pos rfl, same]
  by_cases hk : k = st
  · rw [if_pos hk, if_pos hk]
  · rw [if_neg hk, if_neg hk, if_neg hk]

theorem lining_rest : s.lining r b st = { s with
    desk := { s.desk with
      stations := (s.lining r b st).desk.stations, orders := (s.lining r b st).desk.orders } } := by
  obtain ⟨orders, begun⟩ : ∃ orders, ((s.joinLane st { bin := b, mark := .lined, ref := r }).setMember r .inLane).startGather
      r.order = { s.joinLane st { bin := b, mark := .lined, ref := r } with
        desk := { (s.joinLane st { bin := b, mark := .lined, ref := r }).desk with orders } } :=
    ⟨_, startGather_rest.trans rfl⟩
  obtain ⟨stations, h⟩ : ∃ stations, s.lining r b st = { s with desk := { s.desk with stations, orders } } := by
    have rest : s.lining r b st = _ := rejoin_rest (num := r.order) (st := st)
    generalize (State.rejoin _ r.order st).desk.stations = stations at rest
    refine ⟨stations, rest.trans ?_⟩
    rw [begun]
    rfl
  rw [h]

theorem strandedAt_order (hm : s.member r = some m) (k : Nat) :
    (s.strandedAt r b st).order k = (s.order k).map fun p => if k = r.order then
      { p with members := p.members.modify r.pos fun x =>
        { x with state := if m.state.loses .stranded then .stranded else x.state, held := 0 } } else p := by
  have kept (i : Nat) : (s.setBinState b .stranded).order i = s.order i := State.modBin_order _ _ _ _
  have found : (s.setBinState b .stranded).member r = some m := by rw [State.member, kept]; exact hm
  have lost := loseMember_order (st := .stranded) found k
  rw [State.strandedAt, releaseHeld_order, releaseReservation_order, lost, kept]
  cases s.order k with
  | none => rfl
  | some p => by_cases hk : k = r.order <;> simp [hk, List.modify_modify_eq, Function.comp_def]

theorem strandedAt_station (ht : s.Tidy) (hm : s.member r = some m) (k : Nat) : (s.strandedAt r b st).station k = if k = st then
    { s.station st with reservations := (s.station st).reservations - 1 } else s.station k := by
  have kept (i : Nat) : (s.setBinState b .stranded).order i = s.order i := State.modBin_order _ _ _ _
  have found : (s.setBinState b .stranded).member r = some m := by rw [State.member, kept]; exact hm
  have same (i : Nat) : ((s.setBinState b .stranded).loseMember r .stranded).station i = s.station i :=
    (congrArg (fun v : State => v.station i) (loseMember_rest found)).trans (State.modBin_station _ _ _ _)
  have tidy : ((s.setBinState b .stranded).loseMember r .stranded).Tidy :=
    (((Kept.of_tidy ht).setBinState b _).loseMember r _).tidy
  rw [State.strandedAt, releaseHeld_station, releaseReservation_station tidy, same, same]

theorem strandedAt_rest (hm : s.member r = some m) : s.strandedAt r b st = { s with
    store := { s.store with bins := (s.setBinState b .stranded).store.bins }
    desk := { s.desk with
      stations := (s.strandedAt r b st).desk.stations, orders := (s.strandedAt r b st).desk.orders }
    work := { s.work with
      admission := true, drain := s.work.drain || decide (m.held ≠ 0)
      up := if m.state.loses .stranded then s.work.up ++ [.notice (.memberLost r.order r.pos m.bin .stranded)]
        else s.work.up } } := by
  have kept (i : Nat) : (s.setBinState b .stranded).order i = s.order i := State.modBin_order _ _ _ _
  have found : (s.setBinState b .stranded).member r = some m := by rw [State.member, kept]; exact hm
  have stranded : s.setBinState b .stranded =
      { s with store := { s.store with bins := (s.setBinState b .stranded).store.bins } } := by
    rw [State.setBinState, State.modBin_eq]
  have held : (∃ x, (((s.setBinState b .stranded).loseMember r .stranded).releaseReservation st).member r = some x ∧
      x.held ≠ 0) ↔ m.held ≠ 0 := by
    have released : (((s.setBinState b .stranded).loseMember r .stranded).releaseReservation st).member r =
        some { m with state := if m.state.loses .stranded then .stranded else m.state } := by
      rw [State.member, releaseReservation_order, loseMember_order found, kept]
      rw [State.member] at hm
      cases ho : s.order r.order with
      | none => rw [ho] at hm; cases hm
      | some o =>
        rw [ho] at hm
        have at' : o.members[r.pos]? = some m := hm
        simp [at']
    rw [released]
    simp
  obtain ⟨orders, lost⟩ : ∃ orders, (s.setBinState b .stranded).loseMember r .stranded = { s with
      store := { s.store with bins := (s.setBinState b .stranded).store.bins }
      desk := { s.desk with orders }
      work := { s.work with
        up := if m.state.loses .stranded then s.work.up ++ [.notice (.memberLost r.order r.pos m.bin .stranded)]
          else s.work.up } } := by
    refine ⟨((s.setBinState b .stranded).loseMember r .stranded).desk.orders, ?_⟩
    have rest := loseMember_rest (st := .stranded) found
    generalize ((s.setBinState b .stranded).loseMember r .stranded).desk.orders = orders at rest
    rw [rest, stranded]
  have rest := releaseHeld_rest_of (s := ((s.setBinState b .stranded).loseMember r .stranded).releaseReservation st) held
  rw [show (((s.setBinState b .stranded).loseMember r .stranded).releaseReservation st).releaseHeld r =
    s.strandedAt r b st from rfl] at rest
  have stations : (s.strandedAt r b st).desk.stations =
      (((s.setBinState b .stranded).loseMember r .stranded).releaseReservation st).desk.stations :=
    (congrArg (fun v : State => v.desk.stations) releaseHeld_rest).trans rfl
  rw [stations]
  refine rest.trans ?_
  rw [lost]
  rfl

end

/-! ## The carries of the pool, and what no dispatch test changes of a list -/

section
variable {α β : Type} {t : Tab α} {k : Nat} (g : α → List β) (p : β → Bool)

/-- Listing a value replaces what the one before it held. -/
theorem Tab.countP_flatMap_put (v : α) (h : t.wf) :
    ((t.put k v).flatMap fun x => g x.2).countP p + ((t.find k).elim 0 fun a => (g a).countP p) =
      (t.flatMap fun x => g x.2).countP p + (g v).countP p := by
  fun_induction Tab.put t k v <;>
    grind [Tab.find, Tab.find_of_below, List.pairwise_cons]

/-- Striking a value takes away what it held. -/
theorem Tab.countP_flatMap_del (h : t.wf) :
    ((t.del k).flatMap fun x => g x.2).countP p + ((t.find k).elim 0 fun a => (g a).countP p) =
      (t.flatMap fun x => g x.2).countP p := by
  fun_induction Tab.del t k <;>
    grind [Tab.find, Tab.find_of_below, List.pairwise_cons]

theorem Tab.countP_flatMap_set [DecidableEq α] {d : α} (v : α) (h : t.wf) (hd : g d = []) :
    ((t.set d k v).flatMap fun x => g x.2).countP p + (g (t.get d k)).countP p =
      (t.flatMap fun x => g x.2).countP p + (g v).countP p := by
  have before : (g (t.get d k)).countP p = (t.find k).elim 0 fun a => (g a).countP p := by
    unfold Tab.get
    cases t.find k <;> simp [hd]
  rw [before]
  unfold Tab.set
  split
  · next hv =>
    rw [hv, hd]
    exact Tab.countP_flatMap_del g p h
  · exact Tab.countP_flatMap_put g p v h

end

/-- From `s` to `t` the lists of the aisles keep their bins, and the aisles and the lifts their records. -/
structure SameLists (s t : State) : Prop where
  wf : t.dispatch.cranes.wf
  lists : ∀ i, (t.crane i).front = (s.crane i).front ∧ (t.crane i).infeed = (s.crane i).infeed
  aisles : t.store.aisles = s.store.aisles
  lifts : t.pool.lifts = s.pool.lifts

namespace SameLists

variable {s t u : State}

theorem refl (h : s.dispatch.cranes.wf) : SameLists s s := ⟨h, fun _ => ⟨rfl, rfl⟩, rfl, rfl⟩

theorem apart (h : SameLists s t) (hd : u.dispatch.cranes = t.dispatch.cranes) (ha : u.store.aisles = t.store.aisles)
    (hp : u.pool = t.pool) : SameLists s u := by
  have crane (i : Nat) : u.crane i = t.crane i := congrArg (fun d : Tab Crane => d.get Crane.idle i) hd
  refine ⟨?_, fun i => ?_, ha.trans h.aisles, ?_⟩
  · rw [hd]
    exact h.wf
  · rw [crane]
    exact h.lists i
  · rw [hp]
    exact h.lifts

theorem modCrane (h : SameLists s t) (a : Nat) (f : Crane → Crane)
    (hf : ∀ c, (f c).front = c.front ∧ (f c).infeed = c.infeed) : SameLists s (t.modCrane a f) := by
  refine ⟨Tab.wf_set _ _ _ _ h.wf, fun i => ?_, h.aisles, h.lifts⟩
  rw [State.modCrane_crane _ _ _ _ h.wf]
  split
  · next hi =>
    rw [(hf _).1, (hf _).2, hi]
    exact h.lists a
  · exact h.lists i

theorem setQueue (h : SameLists s t) (a : Nat) (k : JobClass) (q : List Job) :
    SameLists s (t.modCrane a fun c => c.setQueue k q) := h.modCrane a _ fun c => by cases k <;> exact ⟨rfl, rfl⟩

theorem spend (h : SameLists s t) (a : Nat) (k : JobClass) : SameLists s (t.modCrane a fun c => c.spend k) :=
  h.modCrane a _ fun c => by cases k <;> exact ⟨rfl, rfl⟩

theorem refill (h : SameLists s t) (a : Nat) : SameLists s (t.refill a) := by
  unfold State.refill
  exact h.modCrane a _ fun _ => ⟨rfl, rfl⟩

theorem chooseClass (h : SameLists s t) {a : Nat} {k : JobClass} (ht : t.chooseClass a = some (k, u)) : SameLists s u := by
  unfold State.chooseClass at ht
  split at ht
  · obtain ⟨_, _, same⟩ := Option.map_eq_some_iff.1 ht
    cases same
    exact h
  · split at ht
    · cases ht
      exact h.spend a _
    · split at ht
      · obtain ⟨_, _, same⟩ := Option.map_eq_some_iff.1 ht
        cases same
        exact (h.refill a).spend a _
      · cases ht

theorem work (h : SameLists s t) (f : Work → Work) : SameLists s (t.modWork f) := h.apart rfl rfl rfl

theorem setMember (h : SameLists s t) (r : MemberRef) (st : MemberState) : SameLists s (t.setMember r st) := h.apart rfl rfl rfl

theorem setBinState (h : SameLists s t) (b : Nat) (st : BinState) : SameLists s (t.setBinState b st) := by
  rw [State.setBinState, State.modBin_eq]
  exact h.apart rfl rfl rfl

theorem tellDispatched (h : SameLists s t) (j : Job) : SameLists s (t.tellDispatched j) := by
  unfold State.tellDispatched
  split
  · split
    · exact h.setMember _ _
    · exact h
  · exact h

theorem dispatchJob (h : SameLists s t) (a : Nat) (j : Job) (at_ : Point) : SameLists s (t.dispatchJob a j at_) := by
  have tagged : SameLists s (t.modDispatch fun d => { d with jobTag := tagUp t.dispatch.jobTag }) := h.apart rfl rfl rfl
  have told := ((((tagged.modCrane a
    (fun c => { c with
      state := .busy
      flight := some { job := j, tag := t.dispatch.jobTag, estimate := (t.aisle a).jobEstimate at_ j.origin j.dest
                       deadline := t.params.moveDeadline ((t.aisle a).jobEstimate at_ j.origin j.dest), late := false
                       timer := t.after (t.params.moveDeadline ((t.aisle a).jobEstimate at_ j.origin j.dest)) } })
    fun _ => ⟨rfl, rfl⟩).work fun w => { w with control := true }).setBinState j.bin j.kind.dispatched).tellDispatched j)
  unfold State.dispatchJob State.sendMove
  rw [State.sendUnit_eq]
  exact told.work _

theorem dispatchTest (h : SameLists s t) (a : Nat) : SameLists s (t.dispatchTest a) := by
  unfold State.dispatchTest
  split
  · split
    · next hc =>
      split
      · exact ((h.chooseClass hc).setQueue a _ _).dispatchJob a _ _
      · exact h
    · exact h
  · exact h

end SameLists

/-! ## The scan -/

section
variable {s : State} {e : WaitEntry}

/-- The lift can take the entry (R116). -/
def Able (s : State) (e : WaitEntry) (l : Nat) : Prop :=
  (s.lift l).word.seq ≠ none ∧ (s.zone (s.lift l).zone).state = .clear ∧ (s.lift l).carries.length < (s.lift l).carriers ∧
  (s.lift l).mask.getLsbD e.station = true ∧
  (e.leg = .up → (s.zone (s.aisle e.aisle).frontZone).state = .clear) ∧
  (e.leg = .down → (s.zone (s.aisle e.aisle).infeedZone).state = .clear ∧ (s.crane e.aisle).infeed.length +
    s.carries.countP (fun c => decide (c.leg = .down ∧ c.aisle = e.aisle)) < (s.aisle e.aisle).infeedSize)

theorem carriesToward_eq (a : Nat) :
    s.carriesToward a = s.carries.countP fun c => decide (c.leg = .down ∧ c.aisle = a) :=
  congrArg (List.countP · s.carries) (funext fun c => by simp)

theorem legOpen_iff : s.legOpen e = true ↔
    (e.leg = .up → (s.zone (s.aisle e.aisle).frontZone).state = .clear) ∧
    (e.leg = .down → (s.zone (s.aisle e.aisle).infeedZone).state = .clear ∧ (s.crane e.aisle).infeed.length +
      s.carries.countP (fun c => decide (c.leg = .down ∧ c.aisle = e.aisle)) < (s.aisle e.aisle).infeedSize) := by
  unfold State.legOpen
  rw [← carriesToward_eq]
  cases e.leg <;> simp [State.zoneClear]

theorem eligible_iff (l : Nat) : s.eligible e l = true ↔ Able s e l := by
  simp only [State.eligible, Bool.and_eq_true, legOpen_iff, decide_eq_true_eq, Word.member_eq, Option.isSome_iff_ne_none,
    State.zoneClear, Able, and_assoc]

theorem liftWithSeq_some {q l : Nat} (h : s.liftWithSeq q = some l) : l < 6 ∧ (s.lift l).word.seq = some q :=
  ⟨mem_allLifts.1 (List.mem_of_find?_eq_some h), find_seq h⟩

theorem liftWithSeq_of (hr : s.rotationLaw) {q l : Nat} (hl : l < 6) (hq : (s.lift l).word.seq = some q) :
    s.liftWithSeq q = some l := by
  cases hf : s.liftWithSeq q with
  | none =>
    have none := List.find?_eq_none.1 hf l (mem_allLifts.2 hl)
    exact absurd (decide_eq_true hq) none
  | some k =>
    obtain ⟨hk, hkq⟩ := liftWithSeq_some hf
    exact congrArg some (((rotationLaw_iff s).1 hr).words.seq_inj hk hl hkq hq)

theorem scanEntry_none (h : ∀ l, l < 6 → ¬ Able s e l) : State.scanEntry e s = s := by
  have none : s.searchOrder.find? (s.eligible e) = none := by
    refine List.find?_eq_none.2 fun l hl => ?_
    obtain ⟨i, -, hi⟩ := List.mem_filterMap.1 hl
    exact fun able => h l (liftWithSeq_some hi).1 ((eligible_iff l).1 able)
  rw [State.scanEntry, none]

theorem scanEntry_first (hr : s.rotationLaw) {i l : Nat} (hi : i < s.rotationSize) (hl : l < 6)
    (hq : (s.lift l).word.seq = some ((s.pool.pointer + i) % s.rotationSize)) (able : Able s e l)
    (before : ∀ j k, j < i → k < 6 → (s.lift k).word.seq = some ((s.pool.pointer + j) % s.rotationSize) → ¬ Able s e k) :
    State.scanEntry e s = s.assign e l := by
  have at_i : s.liftWithSeq ((s.pool.pointer + i) % s.rotationSize) = some l := liftWithSeq_of hr hl hq
  have found : s.searchOrder.find? (s.eligible e) = some l := by
    unfold State.searchOrder
    dsimp only
    have first : (List.range s.rotationSize).find? (fun j =>
        (s.liftWithSeq ((s.pool.pointer + j) % s.rotationSize)).any (s.eligible e)) = some i := by
      refine List.find?_range_eq_some.2 ⟨?_, List.mem_range.2 hi, fun j hj => ?_⟩
      · rw [at_i]
        exact (eligible_iff l).2 able
      · cases hk : s.liftWithSeq ((s.pool.pointer + j) % s.rotationSize) with
        | none => rfl
        | some k =>
          obtain ⟨hk6, hkq⟩ := liftWithSeq_some hk
          have unable := before j k hj hk6 hkq
          rw [← eligible_iff] at unable
          simpa using unable
    rw [List.find?_filterMap, first]
    exact at_i
  rw [State.scanEntry, found]

end

/-! ## The assignment of a carry -/

/-- The carry that an assignment begins (R117). -/
def State.newCarry (s : State) (e : WaitEntry) (l : Nat) : Carry :=
  { tag := s.pool.carryTag, bin := e.bin, leg := e.leg, aisle := e.aisle, station := e.station, ref := e.ref
    late := false, timer := some (s.now + (s.lift l).carryLimit) }

/-- The body of CARRY for an entry (R117). -/
def State.carryBody (s : State) (e : WaitEntry) : List Byte :=
  be 2 s.pool.carryTag ++ be 2 e.bin ++
    if e.leg = .up then be 1 0 ++ be 1 e.aisle ++ be 1 1 ++ be 1 e.station
    else be 1 1 ++ be 1 e.station ++ be 1 2 ++ be 1 e.aisle

/-- An assignment up to what leaves its front or its lane (R117). -/
def State.assigning (s : State) (e : WaitEntry) (l : Nat) : State :=
  let t := s.dropWaiting fun x => decide (x.ref = e.ref)
  let t := t.modPool fun p => { p with carryTag := tagUp s.pool.carryTag, pointer := (s.lift l).word.nextPointer }
  (t.modLift l fun r => { r with carries := r.carries ++ [s.newCarry e l] }).sendCarry l (s.newCarry e l)

section
variable {s : State} {e : WaitEntry} {l : Nat}

theorem assign_eq : s.assign e l =
    match e.leg with
    | .up =>
      if ((s.assigning e l).leaveFront e.aisle e.bin).memberState e.ref = some .atFront then
        ((s.assigning e l).leaveFront e.aisle e.bin).setMember e.ref .carrying
      else (s.assigning e l).leaveFront e.aisle e.bin
    | .down => (s.assigning e l).leaveLane e.station e.bin := rfl

theorem assign_up (h : e.leg = .up) : s.assign e l =
    if ((s.assigning e l).leaveFront e.aisle e.bin).memberState e.ref = some .atFront then
      ((s.assigning e l).leaveFront e.aisle e.bin).setMember e.ref .carrying
    else (s.assigning e l).leaveFront e.aisle e.bin := by
  rw [assign_eq, h]

theorem assign_down (h : e.leg = .down) : s.assign e l = (s.assigning e l).leaveLane e.station e.bin := by
  rw [assign_eq, h]

theorem assigning_lift (ht : s.Tidy) (k : Nat) : (s.assigning e l).lift k = if k = l then
    { s.lift l with carries := (s.lift l).carries ++ [s.newCarry e l] } else s.lift k := by
  unfold State.assigning State.sendCarry
  rw [State.sendUnit_eq]
  exact s.modLift_lift l k (fun r => { r with carries := r.carries ++ [s.newCarry e l] }) ht.lifts.1

theorem assigning_rest : s.assigning e l = { s with
    pool :=
      { lifts := (s.assigning e l).pool.lifts, pointer := (s.lift l).word.nextPointer, carryTag := tagUp s.pool.carryTag
        waitList := s.pool.waitList.filter fun x => decide (x.ref ≠ e.ref) }
    work := { s.work with down := s.work.down ++ toUnit (s.liftAddress l) 27 (s.carryBody e) .kept } } := by
  have dropped : (fun x : WaitEntry => !decide (x.ref = e.ref)) = fun x => decide (x.ref ≠ e.ref) := by
    funext x
    simp
  have body : (match e.leg with
      | .up => carryEnd 0 e.aisle ++ carryEnd 1 e.station
      | .down => carryEnd 1 e.station ++ carryEnd 2 e.aisle) =
      if e.leg = .up then be 1 0 ++ be 1 e.aisle ++ be 1 1 ++ be 1 e.station
      else be 1 1 ++ be 1 e.station ++ be 1 2 ++ be 1 e.aisle := by
    cases e.leg <;> simp [carryEnd]
  rw [← dropped, State.carryBody, ← body]
  unfold State.assigning State.sendCarry
  rw [State.sendUnit_eq]
  rfl

theorem assigning_carries (ht : s.Tidy) (p : Carry → Bool) :
    (s.assigning e l).carries.countP p = s.carries.countP p + [s.newCarry e l].countP p := by
  have lifts : (s.assigning e l).pool.lifts = s.pool.lifts.set Lift.powerOn l
      { s.lift l with carries := (s.lift l).carries ++ [s.newCarry e l] } := by
    unfold State.assigning State.sendCarry
    rw [State.sendUnit_eq]
    rfl
  have change := Tab.countP_flatMap_set (t := s.pool.lifts) (k := l) (d := Lift.powerOn) Lift.carries p
    { s.lift l with carries := (s.lift l).carries ++ [s.newCarry e l] } ht.lifts.1 rfl
  have before : s.pool.lifts.get Lift.powerOn l = s.lift l := rfl
  rw [before, List.countP_append] at change
  unfold State.carries
  rw [lifts]
  omega

end

/-! ## The bounds of the lists -/

section
variable {s t : State} {a : Nat}

theorem listsFit_congr (hc : t.crane a = s.crane a) (ha : t.aisle a = s.aisle a)
    (hl : t.carries.countP (fun c => decide (c.leg = .down ∧ c.aisle = a)) =
      s.carries.countP fun c => decide (c.leg = .down ∧ c.aisle = a)) (h : s.listsFit a) : t.listsFit a := by
  unfold State.listsFit
  rw [hc, ha, hl]
  exact h

/-- A bin that leaves a front list makes the room that the dispatch test after it may take (R60). -/
theorem leaveFront_listsFit (hw : s.dispatch.cranes.wf) (i b : Nat) (h : s.listsFit a) : (s.leaveFront i b).listsFit a := by
  unfold State.leaveFront
  split
  · next hb =>
    have left : SameLists (s.modCrane i fun c => { c with front := c.front.erase b })
        ((s.modCrane i fun c => { c with front := c.front.erase b }).dispatchTest i) :=
      (SameLists.refl (Tab.wf_set _ _ _ _ hw)).dispatchTest i
    have aisle (k : Nat) : ((s.modCrane i fun c => { c with front := c.front.erase b }).dispatchTest i).aisle k = s.aisle k :=
      congrArg (fun t : Tab Aisle => t.get Aisle.unconfigured k) left.aisles
    have carries : ((s.modCrane i fun c => { c with front := c.front.erase b }).dispatchTest i).carries = s.carries :=
      congrArg (fun t : Tab Lift => t.flatMap fun (p : Nat × Lift) => p.2.carries) left.lifts
    by_cases ha : a = i
    · subst ha
      obtain ⟨front, infeed⟩ := h
      have own : (s.modCrane a fun c => { c with front := c.front.erase b }).crane a =
          { s.crane a with front := (s.crane a).front.erase b } := by
        rw [State.modCrane_crane _ _ _ _ hw, if_pos rfl]
      obtain ⟨frontAfter, infeedAfter⟩ := left.lists a
      rw [own] at frontAfter infeedAfter
      have erased : ((s.crane a).front.erase b).length = (s.crane a).front.length - 1 := List.length_erase_of_mem hb
      have some : 0 < (s.crane a).front.length := List.length_pos_of_mem hb
      unfold State.listsFit
      rw [frontAfter, infeedAfter, aisle, carries]
      refine ⟨?_, infeed⟩
      dsimp only
      rw [erased]
      split at front <;> split <;> omega
    · refine listsFit_congr ?_ (aisle a) (by rw [carries]) h
      rw [dispatchTest_crane_ne ha, State.modCrane_crane_ne _ _ _ _ ha]
  · exact h

end

theorem assign_listsFit {s : State} {e : WaitEntry} {l a : Nat} (ht : s.Tidy) (able : Able s e l) (h : s.listsFit a) :
    (s.assign e l).listsFit a := by
  have crane : (s.assigning e l).crane a = s.crane a := (congrArg (fun v : State => v.crane a) assigning_rest).trans rfl
  have aisle : (s.assigning e l).aisle a = s.aisle a := (congrArg (fun v : State => v.aisle a) assigning_rest).trans rfl
  have carries := assigning_carries (e := e) (l := l) ht fun c => decide (c.leg = .down ∧ c.aisle = a)
  have wf : (s.assigning e l).dispatch.cranes.wf := by
    rw [assigning_rest]
    exact ht.cranes.1
  cases hleg : e.leg with
  | up =>
    have fits : (s.assigning e l).listsFit a := listsFit_congr crane aisle (by rw [carries]; simp [State.newCarry, hleg]) h
    rw [assign_up hleg]
    split
    · exact leaveFront_listsFit wf _ _ fits
    · exact leaveFront_listsFit wf _ _ fits
  | down =>
    obtain ⟨front, infeed⟩ := h
    obtain ⟨-, -, -, -, -, down⟩ := able
    rw [assign_down hleg]
    show (s.assigning e l).listsFit a
    unfold State.listsFit
    rw [crane, aisle, carries]
    refine ⟨front, ?_⟩
    by_cases ha : e.aisle = a
    · have room := (down hleg).2
      rw [ha] at room
      simp only [State.newCarry, hleg, ha, and_self, decide_true, List.countP_singleton, if_true]
      omega
    · simpa [State.newCarry, ha] using infeed

theorem scanEntry_listsFit {s : State} {e : WaitEntry} {a : Nat} (ht : s.Tidy) (h : s.listsFit a) :
    (State.scanEntry e s).listsFit a := by
  unfold State.scanEntry
  split
  · next l hf => exact assign_listsFit ht ((eligible_iff l).1 (List.find?_some hf)) h
  · exact h

theorem leaveLane_station {s : State} (ht : s.Tidy) (st b k : Nat) : (s.leaveLane st b).station k = if k = st then
    { s.station st with lane := (s.station st).lane.filter fun l => decide (l.bin ≠ b) } else s.station k := by
  exact s.modStation_station st k (fun w => { w with lane := w.lane.filter fun l => decide (l.bin ≠ b) }) ht.stations.1

/-- Settles O46. -/
theorem carriedEndsTheCarry : Obligations.CarriedEndsTheCarry := by
  refine ⟨fun s l carry hr ht => ?_, fun s r b ht => ⟨fun st hz hm => ?_, fun a => ?_⟩, fun s r b st o m ht ho hm => ?_,
    fun s e ht hr => ?_, fun s e l ht => ?_, fun s st b ht => ?_, fun s => rfl, fun s e a ht => scanEntry_listsFit ht⟩
  · intro c r matching
    have begun : s.beginEvent.Tidy := { ht with }
    refine ⟨carried_unaddressed hr, fun ha hn => ?_, fun x ha hx => ?_, fun x hx hx' => ?_, fun hx => ?_⟩
    · refine ⟨s.beginEvent.modLift l fun r => { r with unmatched := countUp r.unmatched },
        fun k => s.beginEvent.modLift_lift l k _ begun.lifts.1, rfl, ?_⟩
      rw [exec_carried hr ha, takeCarried_none (s := s.beginEvent) hn, State.eventEnds]
      exact congrArg (fun u => Host.Outcome.next (s.closeEvent u none)) (settle_idle _ rfl)
    · have tag : x.tag = carry.toNat := carryOf_tag (s := s) hx
      refine ⟨s.beginEvent.carryEnded l x, fun k => ?_, fun b => carryEnded_bin b, carryEnded_rest, ?_⟩
      · rw [carryEnded_lift begun, tag.symm]
        rfl
      · rw [exec_carried hr ha, takeCarried_some (s := s.beginEvent) hx, endCarry_eq, tag]
    · rw [exec_carryDeadlineExpiry]
      have tag : x.tag = carry.toNat := carryOf_tag (s := s) hx
      refine event_ends hr ?_
      unfold carryDeadlineBody
      rw [show s.beginEvent.carryOf l carry.toNat = some x from hx]
      exact if_pos (Option.isSome_iff_ne_none.2 hx')
    · refine event_idle hr (body := carryDeadlineBody l carry) ?_
      unfold carryDeadlineBody
      cases hf : s.beginEvent.carryOf l carry.toNat with
      | none => rfl
      | some x => exact if_neg (by simp [hx x hf])
  · refine ⟨s.upArrived r b st, fun k => ?_, ?_, rfl⟩
    · rw [upArrived_cancelled hz hm]
      exact joinLane_station ht _ k
    · rw [upArrived_cancelled hz hm]
      rfl
  · intro t
    have wf : t.dispatch.cranes.wf := by
      show (if s.memberState r = some .stranded then s.setMember r .returning else s).dispatch.cranes.wf
      split <;> exact ht.cranes.1
    have crane (k : Nat) : t.crane k = s.crane k := by
      show (if s.memberState r = some .stranded then s.setMember r .returning else s).crane k = _
      split <;> rfl
    have dispatch : t.dispatch = s.dispatch := by
      show (if s.memberState r = some .stranded then s.setMember r .returning else s).dispatch = _
      split <;> rfl
    refine ⟨t.joinInfeed a b, fun k => ?_, ?_, rfl⟩
    · rw [State.joinInfeed, State.modCrane_crane _ _ _ _ wf, crane, crane]
    · rw [← dispatch]
      rfl
  · intro w
    refine ⟨fun hz hc => ?_, fun hz => ?_⟩
    · intro starts
      have live : s.memberState r ≠ some .cancelled := by
        rw [State.memberState, hm]
        exact fun h => hc (Option.some.inj h)
      refine ⟨s.lining r b st, lining_station ht ho, lining_order ho, lining_rest, fun hw fits => ?_, upArrived_lined hz live⟩
      unfold State.laneFits at fits ⊢
      rw [lining_station ht ho st, if_pos rfl, List.length_append, List.length_singleton]
      have reserved : 1 ≤ (s.station st).reservations := hw
      dsimp only
      omega
    · intro loses
      refine ⟨s.strandedAt r b st, fun c => ?_, strandedAt_station ht hm, strandedAt_order hm, ?_, upArrived_shut hz⟩
      · have bins : (s.strandedAt r b st).bin c = (s.setBinState b .stranded).bin c :=
          (congrArg (fun v : State => v.bin c) (strandedAt_rest hm)).trans rfl
        rw [bins, State.setBinState_bin]
        by_cases hcb : c = b
        · simp [hcb]
        · simp [hcb]
      · have bins : (s.strandedAt r b st).store.bins = (s.setBinState b .stranded).store.bins :=
          (congrArg (fun v : State => v.store.bins) (strandedAt_rest hm)).trans rfl
        rw [bins]
        exact strandedAt_rest hm
  · exact ⟨scanEntry_none, fun i l hi hl hq able before => scanEntry_first hr hi hl hq able before⟩
  · intro r body
    refine ⟨s.assigning e l, assigning_lift ht, ?_, fun hu hm => ?_, fun hu hm => ?_, assign_down⟩
    · exact assigning_rest
    · rw [assign_up hu, if_pos hm]
    · rw [assign_up hu, if_neg hm]
  · exact ⟨s.leaveLane st b, leaveLane_station ht st b, rfl, rfl⟩

end Sys2Proof.Machine
end

section
/-! PROOF (O57). QUIET, WAKE, the timers of the mode and what a change of mode brings about (R73, R184, R186, R187, R190). -/

namespace Sys2Proof.Machine

/-! ## What leaves Mode Control alone -/

section
variable {s : State}

theorem setMember_mode (r : MemberRef) (st : MemberState) : (s.setMember r st).mode = s.mode := rfl

theorem chooseClass_mode {a : Nat} {k : JobClass} {t : State} (h : s.chooseClass a = some (k, t)) : t.mode = s.mode := by
  unfold State.chooseClass at h
  split at h
  · obtain ⟨_, _, same⟩ := Option.map_eq_some_iff.1 h
    cases same
    rfl
  · split at h
    · cases h
      rfl
    · split at h
      · obtain ⟨_, _, same⟩ := Option.map_eq_some_iff.1 h
        cases same
        rfl
      · cases h

theorem tellDispatched_mode (j : Job) : (s.tellDispatched j).mode = s.mode := by
  unfold State.tellDispatched
  split
  · split <;> rfl
  · rfl

theorem dispatchJob_mode (a : Nat) (j : Job) (p : Point) : (s.dispatchJob a j p).mode = s.mode := by
  unfold State.dispatchJob State.sendMove
  rw [State.sendUnit_mode, tellDispatched_mode, State.setBinState_mode]
  rfl

theorem dispatchTest_mode (a : Nat) : (s.dispatchTest a).mode = s.mode := by
  unfold State.dispatchTest
  split
  · split
    · next hc =>
      split
      · exact (dispatchJob_mode _ _ _).trans ((State.modCrane_mode _ _ _).trans (chooseClass_mode hc))
      · rfl
    · rfl
  · rfl

theorem requestFetch_mode (r : MemberRef) (b : Nat) : (s.requestFetch r b).mode = s.mode := by
  unfold State.requestFetch State.appendJob
  rw [dispatchTest_mode, State.modCrane_mode, State.setBinState_mode]
  rfl

theorem admitMember_mode (r : MemberRef) : (State.admitMember r s).mode = s.mode := by
  unfold State.admitMember
  split
  · split
    · exact requestFetch_mode _ _
    · rfl
  · rfl

theorem admitHead_mode (st : Nat) (o : Order) (rest : List Nat) : (s.admitHead st o rest).mode = s.mode :=
  forEach_keeps State.mode _ (fun r _ => admitMember_mode r) _ _

theorem admissionStep_mode (st : Nat) : (State.admissionStep st s).mode = s.mode := by
  unfold State.admissionStep
  split
  · rfl
  · split
    · split
      · exact admitHead_mode _ _ _
      · rfl
    · rfl

theorem admissionPass_mode : s.admissionPass.mode = s.mode :=
  forEach_keeps State.mode _ (fun st _ => repeatTimes_keeps State.mode _ (fun _ => admissionStep_mode st) _ _) _ _

theorem createRestore_mode (b st i : Nat) : (s.createRestore b st i).mode = s.mode := by
  unfold State.createRestore
  dsimp only
  rw [admissionPass_mode]
  show (State.modBin _ b _).mode = s.mode
  rw [State.modBin_mode]
  rfl

theorem restoreAttempt_mode (b : Nat) : (State.restoreAttempt b s).mode = s.mode := by
  unfold State.restoreAttempt
  split
  · split
    · split
      · exact createRestore_mode _ _ _
      · rfl
    · rfl
  · rfl

theorem restorePass_mode : s.restorePass.mode = s.mode :=
  forEach_keeps State.mode _ (fun b _ => restoreAttempt_mode b) _ _

theorem windowStep_mode (st : Nat) : (State.windowStep st s).mode = s.mode := by
  unfold State.windowStep
  dsimp only
  split
  · rfl
  · split
    · split <;> rfl
    · split
      · rfl
      · split
        · simp [State.present, State.sendPresent, State.markLane, State.setMember]
        · split <;> rfl

theorem stationOpen_mode (st : Nat) : (State.stationOpen st s).mode = s.mode :=
  (repeatTimes_keeps State.mode _ (fun _ => windowStep_mode st) _ _).trans
    (forEach_keeps State.mode (fun (f : MemberRef × Nat) s => s.toUpLeg f.1 f.2 st) (fun _ _ => rfl) _ _)

theorem becomeClear_mode (z : Nat) : (s.becomeClear z).mode = s.mode := by
  unfold State.becomeClear State.admitNow
  rw [State.oweRestore_mode, State.oweScan_mode, admissionPass_mode, State.modWork_mode,
    forEach_keeps State.mode _ fun st _ => stationOpen_mode st,
    forEach_keeps State.mode (fun a s => s.dispatchTest a) fun a _ => dispatchTest_mode a]
  rfl

theorem readyTest_mode (z : Nat) : (State.readyTest z s).mode = s.mode := by
  unfold State.readyTest
  split
  · split
    · exact becomeClear_mode z
    · rfl
  · rfl

end

/-! ## A crane faulted or taken off line -/

theorem OnlyCrane.refl {s : State} (a : Nat) (h : s.Tidy) : OnlyCrane s a (s.crane a) s.work s where
  cranes k := by
    split
    · next hk => rw [hk]
    · rfl
  rest := rfl
  ordered := h.cranes.1

section
variable {s : State} {a : Nat} {cause : FaultCause}

theorem faultCrane_faulted (h : (s.crane a).state = .faulted) : State.faultCrane cause a s = s := if_pos h

theorem faultCrane_onlyCrane (ht : s.Tidy) (h : (s.crane a).state ≠ .faulted) : OnlyCrane s a
    { s.crane a with state := .faulted, faultCode := none }
    { s.work with control := true, up := s.work.up ++ [.notice (.craneFault a cause none none)] }
    (State.faultCrane cause a s) := by
  have faulted := ((((OnlyCrane.refl a ht).modCrane fun c => { c with faultCode := none }).setCraneState .faulted).notice
    (.craneFault a cause none none))
  have owed : (s.work.control || decide ((s.crane a).state ≠ .faulted)) = true := by simp [h]
  dsimp only at faulted
  rw [owed] at faulted
  rw [State.faultCrane, if_neg h]
  exact faulted

end

/-! ## A change of mode -/

/-- Mode Control's record as a new mode begins, the ready test of WAKING owed (R184, R190). -/
def State.modeSet (s : State) (m : Mode) : State :=
  { s with
    mode := { s.mode with
      mode := m, awaited := []
      phase := if m = .draining then some .work else none
      timer := if m = .waking then some (s.now + s.params.wakeReadyLimit) else none }
    work := { s.work with modeTest := s.work.modeTest || decide (m = .waking) } }

section
variable {s : State} {m : Mode} {cause : ModeCause}

/-- The neighbours act on a new mode, before MODE_STATE is sent (R184). -/
def State.modeActs (s : State) (m : Mode) : State :=
  let ready := forEach (List.range 8) State.readyTest s
  let dispatched := forEach (List.range 12) (fun a x => x.dispatchTest a) ready
  if m = .run then dispatched.admissionPass.restorePass else if m = .draining then dispatched else ready

theorem changeMode_eq : s.changeMode m cause = ((s.modeSet m).modeActs m).notice (.modeState m cause) := by
  have idle : (s.work.modeTest || false) = s.work.modeTest := Bool.or_false _
  have owed : (s.work.modeTest || true) = true := Bool.or_true _
  unfold State.changeMode State.modeActs State.modeSet
  cases m with
  | waking => simp [owed]; rfl
  | run => simp [idle]; rfl
  | draining => simp [idle]; rfl
  | quiet => simp [idle]; rfl

theorem modeActs_mode : (s.modeActs m).mode = s.mode := by
  have ready : (forEach (List.range 8) State.readyTest s).mode = s.mode :=
    forEach_keeps State.mode _ (fun z _ => readyTest_mode z) _ _
  have dispatched : (forEach (List.range 12) (fun a x => State.dispatchTest x a)
      (forEach (List.range 8) State.readyTest s)).mode = s.mode :=
    (forEach_keeps State.mode _ (fun a _ => dispatchTest_mode a) _ _).trans ready
  unfold State.modeActs
  dsimp only
  split
  · exact restorePass_mode.trans (admissionPass_mode.trans dispatched)
  · split
    · exact dispatched
    · exact ready

theorem changeMode_mode : (s.changeMode m cause).mode = (s.modeSet m).mode := by
  rw [changeMode_eq]
  exact modeActs_mode

theorem changeMode_up : (s.changeMode m cause).work.up =
    ((s.modeSet m).modeActs m).work.up ++ [.notice (.modeState m cause)] := by
  rw [changeMode_eq]
  rfl

end

/-! ## QUIET, WAKE and the timers -/

section
variable {s : State} {tag : BitVec 16}

/-- What QUIET does (R186). -/
def quietBody (tag : BitVec 16) (s : State) : State × (State → Answer) :=
  match s.mode.mode with
  | .run => ((s.changeMode .draining .command).oweDrain, fun t => .done tag.toNat kindCommand (modeField t))
  | .draining => (s, fun t => .done tag.toNat kindCommand (modeField t))
  | .quiet => (s, fun t => .done tag.toNat kindCommand (modeField t))
  | .waking => (s, fun t => .refused tag.toNat kindCommand .wrongState (modeField t))

theorem exec_quiet (tag : BitVec 16) (s : State) : exec (.quiet tag) s = s.live (s.request (quietBody tag)) := rfl

/-- What WAKE does (R190). -/
def wakeBody (tag : BitVec 16) (s : State) : State × (State → Answer) :=
  (match s.mode.mode with
    | .quiet => s.changeMode .waking .command
    | .draining => s.changeMode .run .command
    | .run => s
    | .waking => s,
  fun t => .done tag.toNat kindCommand (modeField t))

theorem exec_wake (tag : BitVec 16) (s : State) : exec (.wake tag) s = s.live (s.request (wakeBody tag)) := rfl

section
variable {u : State} (hr : s.running)
include hr

theorem quiet_changes (h : quietBody tag s.beginEvent = (u, fun t => .done tag.toNat kindCommand (modeField t))) :
    exec (.quiet tag) s = .next (s.requestEnds u (.done tag.toNat 7 (be 1 u.settle.mode.mode.code))) := by
  have ends := request_ends hr h
  rw [exec_quiet, ends]
  rfl

theorem quiet_stays (h : quietBody tag s.beginEvent = (s.beginEvent, fun t => .done tag.toNat kindCommand (modeField t))) :
    exec (.quiet tag) s = .next (s.onlyAnswers (.done tag.toNat 7 (be 1 s.mode.mode.code))) := by
  have answers := request_answers hr h
  rw [exec_quiet, answers]
  rfl

theorem quiet_refused (h : s.mode.mode = .waking) :
    exec (.quiet tag) s = .next (s.onlyAnswers (.refused tag.toNat 7 .wrongState [3#8])) := by
  have refused : quietBody tag s.beginEvent =
      (s.beginEvent, fun t => .refused tag.toNat kindCommand .wrongState (modeField t)) := by
    unfold quietBody
    rw [show s.beginEvent.mode.mode = .waking from h]
  have answered := request_answers hr refused
  rw [exec_quiet, answered]
  have field : modeField s.beginEvent = [3#8] := by
    show be 1 s.mode.mode.code = _
    rw [h]
    rfl
  rw [field]
  rfl

theorem wake_changes (h : wakeBody tag s.beginEvent = (u, fun t => .done tag.toNat kindCommand (modeField t))) :
    exec (.wake tag) s = .next (s.requestEnds u (.done tag.toNat 7 (be 1 u.settle.mode.mode.code))) := by
  have ends := request_ends hr h
  rw [exec_wake, ends]
  rfl

theorem wake_stays (h : wakeBody tag s.beginEvent = (s.beginEvent, fun t => .done tag.toNat kindCommand (modeField t))) :
    exec (.wake tag) s = .next (s.onlyAnswers (.done tag.toNat 7 (be 1 s.mode.mode.code))) := by
  have answers := request_answers hr h
  rw [exec_wake, answers]
  rfl

end

end

/-- Settles O57. -/
theorem modeChanges : Obligations.ModeChanges := by
  refine ⟨fun s tag hr => ?_, fun s hr => ?_, fun s hr => ?_, fun s a cause ht => ?_, fun s as cause => ⟨rfl, rfl⟩,
    fun s m cause => ?_, fun s m cause ht => ⟨?_, ?_, ?_⟩⟩
  · intro answered stays
    have mode (m : Mode) (h : s.mode.mode = m) : s.beginEvent.mode.mode = m := h
    refine ⟨fun h => quiet_changes hr ?_, fun h => quiet_stays hr ?_, quiet_refused hr, fun h => wake_changes hr ?_,
      fun h => wake_changes hr ?_, fun h => wake_stays hr ?_⟩
    · unfold quietBody
      rw [mode _ h]
    · unfold quietBody
      obtain h | h := h
      · rw [mode _ h]
      · rw [mode _ h]
    · unfold wakeBody
      rw [mode _ h]
    · unfold wakeBody
      rw [mode _ h]
    · unfold wakeBody
      obtain h | h := h
      · rw [mode _ h]
      · rw [mode _ h]
  · intro waits late
    refine ⟨fun h => event_idle hr (if_neg fun hx => h ⟨hx.1, Option.isSome_iff_ne_none.1 hx.2⟩), fun h => ?_⟩
    have late_eq : s.beginEvent.lateCranes s.beginEvent.mode.awaited = late :=
      List.filter_congr fun a _ => by
        rw [State.beginEvent_crane]
        cases (s.crane a).state <;> rfl
    refine event_ends hr ((if_pos ⟨h.1, Option.isSome_iff_ne_none.2 h.2⟩).trans ?_)
    rw [late_eq]
  · intro waits unready
    refine ⟨fun h => event_idle hr (if_neg fun hx => h ⟨hx.1, Option.isSome_iff_ne_none.1 hx.2⟩), fun h => ?_⟩
    have unready_eq : (s.beginEvent.wakeCounted.filter fun a => decide ((s.beginEvent.crane a).state ≠ .ready)) = unready := by
      rw [State.wakeCounted, List.filter_filter]
      exact List.filter_congr fun a _ => Bool.and_comm _ _
    refine event_ends hr ((if_pos ⟨h.1, Option.isSome_iff_ne_none.2 h.2⟩).trans ?_)
    rw [unready_eq]
  · intro x becomes
    refine ⟨faultCrane_faulted, fun h => ?_, ?_⟩
    · have only := faultCrane_onlyCrane (cause := cause) ht h
      exact ⟨_, only.cranes, only.rest, rfl⟩
    · have only := (OnlyCrane.refl a ht).craneOffline
      exact ⟨_, only.cranes, only.rest, rfl⟩
  · exact changeMode_eq
  · exact changeMode_mode
  · rw [changeMode_up]
    exact List.getLast?_concat
  · exact congrArg Standing.params ((Settles.refl ht).changeMode m cause).standing

end Sys2Proof.Machine
end

section
/-! PROOF (O60). The rounds of tests at the end of an event, and what they leave as it was (R88, R104, R116, R145, R159,
R166, R186, R187, R189, R190). -/

namespace Sys2Proof.Machine

/-! ## The phases of a round -/

section
variable {s : State}

/-- The owed tests of the zones, in ascending number (R159, R166). -/
def State.controlTests (s : State) : State :=
  forEach ((List.range 8).filter fun z => s.work.control || decide (z ∈ s.work.zoneTests))
    (fun z y => State.readyTest z (State.stoppingTest z y))
    { s with work := { s.work with control := false, zoneTests := [], modeTest := false } }

/-- The zones' tests come before Mode Control's (R159, R166, R187, R190). -/
theorem controlRound_eq (s : State) : s.controlRound =
    if s.work.control = true ∨ s.work.modeTest = true then s.controlTests.parkWaitTest.wakeTest else s.controlTests := by
  by_cases h : s.work.control = true ∨ s.work.modeTest = true
  · rw [if_pos h]
    exact if_pos (Bool.or_eq_true_iff.2 h)
  · rw [if_neg h]
    exact if_neg fun hx => h (Bool.or_eq_true_iff.1 hx)

theorem controlTests_idle (hc : s.work.control = false) (hz : s.work.zoneTests = []) (hm : s.work.modeTest = false) :
    s.controlTests = s := by
  have same (w : Work) (h1 : w.control = false) (h2 : w.zoneTests = []) (h3 : w.modeTest = false) :
      { w with control := false, zoneTests := [], modeTest := false } = w := by
    rw [← h1, ← h2]
    cases w
    cases h3
    cases h1
    rfl
  have none : (List.range 8).filter (fun z => s.work.control || decide (z ∈ s.work.zoneTests)) = [] := by
    simp [hc, hz]
  rw [State.controlTests, none, same s.work hc hz hm]
  rfl

theorem restorePhase_eq (s : State) : s.restorePhase = forEach s.work.restore
    (fun t y => match t with
      | .bin b => State.restoreAttempt b y
      | .pass => y.restorePass) { s with work := { s.work with restore := [] } } := by
  have test : State.restoreTest = fun t y => match t with
      | .bin b => State.restoreAttempt b y
      | .pass => y.restorePass := by
    funext t y
    cases t <;> rfl
  unfold State.restorePhase
  rw [test]
  rfl

/-- A state whose workspace owes no test of a round. -/
def Owes (s : State) : Prop :=
  s.work.drain = true ∨ s.work.control = true ∨ s.work.zoneTests ≠ [] ∨ s.work.modeTest = true ∨ s.work.scan = true ∨
    s.work.admission = true ∨ s.work.restore ≠ [] ∨ s.work.waiting = true

theorem settleRound_idle (h : ¬ Owes s) : s.settleRound = s := by
  simp only [Owes, not_or, Bool.not_eq_true, not_not] at h
  obtain ⟨drain, control, zoneTests, modeTest, scan, admission, restore, waiting⟩ := h
  have round : s.controlRound = s := by
    rw [controlRound_eq, controlTests_idle control zoneTests modeTest]
    simp [control, modeTest]
  have controlled : s.controlLoop = s := repeatTimes_idle _ _ round _
  have restored : s.restorePhase = s := by
    rw [restorePhase_eq, restore]
    show { s with work := { s.work with restore := [] } } = s
    rw [← restore]
  have drained : s.drainPhase = s := if_neg (by simp [drain])
  have scanned : s.scanPhase = s := if_neg (by simp [scan])
  have admitted : s.admissionPhase = s := if_neg (by simp [admission])
  have waited : s.waitingPhase = s := if_neg (by simp [waiting])
  rw [State.settleRound, drained, controlled, scanned, admitted, restored, waited]

theorem settle_eq (s : State) :
    s.settle = s.settleRound.settleRound.settleRound.settleRound.holdPhase := by
  unfold State.settle
  rw [repeatTimes_succ, repeatTimes_succ, repeatTimes_succ, repeatTimes_succ, repeatTimes_zero]

end

/-! ## What the tests keep -/

section
variable {s u : State} {a : Option Answer}

/-- What stands is read off record by record. -/
theorem of_standing {t : State} (h : t.standing = s.standing) :
    t.link = s.link ∧ t.params = s.params ∧ t.store.aisles = s.store.aisles ∧ t.loans.classes = s.loans.classes ∧
      t.loans.today = s.loans.today ∧ retainedItems t.loans.items = retainedItems s.loans.items ∧ t.returns = s.returns ∧
      t.lines = s.lines ∧ t.floats = s.floats ∧ t.resets = s.resets :=
  ⟨congrArg Standing.link h, congrArg Standing.params h, congrArg Standing.aisles h, congrArg Standing.classes h,
    congrArg Standing.today h, congrArg Standing.items h, congrArg Standing.returns h, congrArg Standing.lines h,
    congrArg Standing.floats h, congrArg Standing.resets h⟩

/-- What stands of each bin, crane, station, lift and zone is read off unit by unit. -/
theorem units_of_standing {t : State} (h : t.standing = s.standing) :
    (∀ b, (t.bin b).map Bin.standing = (s.bin b).map Bin.standing) ∧ (∀ k, (t.crane k).standing = (s.crane k).standing) ∧
      (∀ k, (t.station k).standing = (s.station k).standing) ∧ (∀ k, (t.lift k).standing = (s.lift k).standing) ∧
      ∀ k, (t.zone k).standing = (s.zone k).standing :=
  ⟨congrFun (congrArg Standing.bin h), congrFun (congrArg Standing.crane h), congrFun (congrArg Standing.station h),
    congrFun (congrArg Standing.lift h), congrFun (congrArg Standing.zone h)⟩

/-- The event closes with what stands outside the counters of the overflows (R7, R21). -/
theorem closeEvent_standing : let t := s.closeEvent u a
    (∀ b, t.bin b = u.bin b) ∧ (∀ k, t.crane k = u.crane k) ∧ (∀ k, t.station k = u.station k) ∧
      (∀ k, t.lift k = u.lift k) ∧ ∀ k, t.zone k = u.zone k := by
  refine ⟨fun b => ?_, fun k => ?_, fun k => ?_, fun k => ?_, fun k => ?_⟩
  · rw [State.bin, closeEvent_store]
    rfl
  · rw [State.crane, closeEvent_dispatch]
    rfl
  · rw [State.station, closeEvent_desk]
    rfl
  · rw [State.lift, closeEvent_pool]
    rfl
  · rw [State.zone, closeEvent_zones]
    rfl

end

/-- Settles O60. -/
theorem testsAtTheEndKeep : Obligations.TestsAtTheEndKeep := by
  refine ⟨fun t => rfl, fun s => ?_, fun s => ?_, fun s u a ht => ?_⟩
  · intro drained control controlled scanned admitted restored
    have round : State.controlRound = control := funext controlRound_eq
    have loop : s.drainPhase.controlLoop = controlled := congrArg (fun f => repeatTimes f 24 drained) round
    have scans : s.drainPhase.controlLoop.scanPhase = scanned := congrArg State.scanPhase loop
    have admits : s.drainPhase.controlLoop.scanPhase.admissionPhase = admitted := congrArg State.admissionPhase scans
    have restores : s.drainPhase.controlLoop.scanPhase.admissionPhase.restorePhase = restored :=
      (restorePhase_eq _).trans (congrArg (fun v : State => forEach v.work.restore
        (fun t y => match t with
          | .bin b => State.restoreAttempt b y
          | .pass => y.restorePass) { v with work := { v.work with restore := [] } }) admits)
    exact congrArg State.waitingPhase restores
  · intro owes one two three
    have first (h : ¬ Owes s) : one = s := settleRound_idle h
    have second (h : ¬ Owes one) : two = one := settleRound_idle h
    have third (h : ¬ Owes two) : three = two := settleRound_idle h
    have ends : s.settle = three.settleRound.holdPhase := settle_eq s
    refine ⟨fun h => ?_, fun h => ?_, fun h => ?_, ends⟩
    · have h1 := first h
      have h2 := second (h1.symm ▸ h)
      have h3 := third (h2.symm ▸ h1.symm ▸ h)
      rw [ends, settleRound_idle (h3.symm ▸ h2.symm ▸ h1.symm ▸ h), h3, h2, h1]
    · have h2 := second h
      have h3 := third (h2.symm ▸ h)
      rw [ends, settleRound_idle (h3.symm ▸ h2.symm ▸ h), h3, h2]
    · have h3 := third h
      rw [ends, settleRound_idle (h3.symm ▸ h), h3]
  · intro t
    have settled := settle_settles ht
    obtain ⟨link, params, aisles, classes, today, items, returns, lines, floats, resets⟩ := of_standing settled.standing
    obtain ⟨binsStand, cranesStand, stationsStand, liftsStand, zonesStand⟩ := units_of_standing settled.standing
    obtain ⟨bins, cranes, stations, lifts, zones⟩ := closeEvent_standing (s := s) (u := u.settle) (a := a)
    refine ⟨?_, ?_, ?_, fun i h1 h2 => ?_, (closeEvent_params _ _ _).trans params, ?_, ?_, ?_, ?_,
      (closeEvent_returns _ _ _).trans returns, (closeEvent_lines _ _ _).trans lines,
      (closeEvent_floats _ _ _).trans floats, closeEvent_now _ _ _, closeEvent_pending _ _ _,
      closeEvent_work _ _ _, ?_, fun b => ?_, fun k => ?_, fun k => ?_, fun k => ?_, fun k => ?_, fun z h1 h2 => ?_,
      fun k h => ?_, fun k h1 h2 => ?_⟩
    · rw [closeEvent_addresses, link]
    · rw [closeEvent_trafficDown, link]
    · rw [closeEvent_trafficUp, link]
    · rw [closeEvent_counter _ _ _ _ h1 h2, State.counter, link]
      rfl
    · rw [closeEvent_store, aisles]
    · rw [closeEvent_loans, classes]
    · rw [closeEvent_loans, today]
    · rw [closeEvent_loans, items]
    · rw [closeEvent_resets, resets]
    · rw [bins, binsStand]
    · rw [cranes, cranesStand]
    · rw [stations, stationsStand]
    · rw [lifts, liftsStand]
    · rw [zones, zonesStand]
    · exact (zones z).trans (settled.zones z h1 h2)
    · rw [cranes]
      exact settled.flights k h
    · rw [cranes]
      exact settled.cranes k h1 h2

end Sys2Proof.Machine
end

section
/-! PROOF (O54). The course of a shutdown: what a zone's change of state sends and owes, what leaving CLEAR does to stations
and lifts, and STOPPING (R102, R114, R155 to R159, R163). -/

namespace Sys2Proof.Machine

/-! ## A zone changes state -/

/-- From `s` to `t` the record of zone `z` has changed, not its state, and nothing else has. -/
structure Rezoned (s t : State) (z : Nat) : Prop where
  others : ∀ k, k ≠ z → t.zone k = s.zone k
  state : (t.zone z).state = (s.zone z).state
  rest : t = { s with zones := t.zones }
  ordered : t.zones.wf

section
variable {s t : State} {z : Nat}

theorem Rezoned.refl (z : Nat) (h : s.zones.wf) : Rezoned s s z := ⟨fun _ _ => rfl, rfl, rfl, h⟩

theorem Rezoned.modZone (h : Rezoned s t z) (f : Zone → Zone) (hf : ∀ r, (f r).state = r.state) :
    Rezoned s (t.modZone z f) z where
  others k hk := by rw [State.modZone_zone_ne _ _ _ _ hk, h.others k hk]
  state := by rw [State.modZone_zone _ _ _ _ h.ordered, if_pos rfl, hf, h.state]
  rest := congrArg (fun v : State => { v with zones := (t.modZone z f).zones }) h.rest
  ordered := Tab.wf_set _ _ _ _ h.ordered

theorem Rezoned.giveCause (h : Rezoned s t z) (c : ZoneCause) : Rezoned s (t.giveCause z c) z := h.modZone _ fun _ => rfl

theorem Rezoned.driveLevel (h : Rezoned s t z) : t.driveLevel = s.driveLevel := by
  have zones (k : Nat) : (t.zone k).state = (s.zone k).state := by
    by_cases hk : k = z
    · rw [hk, h.state]
    · rw [h.others k hk]
  have mode : t.mode = s.mode := (congrArg State.mode h.rest).trans rfl
  have aisle (a : Nat) : t.aisle a = s.aisle a := (congrArg (fun v : State => v.aisle a) h.rest).trans rfl
  funext a
  simp only [State.driveLevel, mode, aisle, zones]

/-- NOTICE ZONE_STATE is sent and the tests of moved drives come to be owed (R157, R166, R190). -/
theorem Rezoned.goes (h : Rezoned s t z) (f : Zone → Zone) : ZoneGoes s (t.zoneTo z f) z (f (t.zone z)) := by
  have own : (t.modZone z f).zone z = f (t.zone z) := by rw [State.modZone_zone _ _ _ _ h.ordered, if_pos rfl]
  have moves : t.movedDrives (t.modZone z f) =
      (List.range 12).filter fun a => decide ((t.zoneTo z f).driveLevel a ≠ s.driveLevel a) := by
    rw [← h.driveLevel]
    rfl
  have owed (xs : List Nat) : (!xs.isEmpty) = decide (xs ≠ []) := by cases xs <;> rfl
  have sent : t.zoneTo z f = ((t.modZone z f).oweDrives (t.movedDrives (t.modZone z f))).notice
      (.zoneState z (f (t.zone z)).state (f (t.zone z)).cause (f (t.zone z)).fault) := by
    rw [← own]
    rfl
  refine ⟨fun k => ?_, ?_⟩
  · show (t.modZone z f).zone k = _
    rw [State.modZone_zone _ _ _ _ h.ordered]
    split
    · rfl
    · next hk => exact h.others k hk
  · rw [← moves, ← owed]
    obtain ⟨zones, ht⟩ : ∃ zones, t = { s with zones } := ⟨_, h.rest⟩
    refine sent.trans ?_
    subst ht
    rfl

theorem zoneTo_goes (h : s.zones.wf) (f : Zone → Zone) : ZoneGoes s (s.zoneTo z f) z (f (s.zone z)) := (Rezoned.refl z h).goes f

end

/-! ## The courses of a shutdown -/

section
variable {s t : State} {z : Nat} {cause : ZoneCause}

theorem Rezoned.now_eq (h : Rezoned s t z) : t.now = s.now := (congrArg State.now h.rest).trans rfl

theorem Rezoned.mode_eq (h : Rezoned s t z) : t.mode = s.mode := (congrArg State.mode h.rest).trans rfl

theorem Rezoned.givenCause (h : Rezoned s t z) : (t.giveCause z cause).zone z = { t.zone z with cause := some cause } := by
  rw [State.giveCause, State.modZone_zone _ _ _ _ h.ordered, if_pos rfl]

/-- A zone's record as it enters CLOSING at `s` (R161). -/
def Zone.closing (s : State) (x : Zone) : Zone := { x with state := .closing, fault := false, timer := some (s.now + x.shutterLimit) }

/-- A zone's record as it enters STOPPING (R158). -/
def Zone.stopping (x : Zone) : Zone := { x with state := .stopping, timer := none }

theorem Rezoned.closes (h : Rezoned s t z) : ∃ u, ZoneGoes s u z ((t.zone z).closing s) ∧
    t.enterClosing z = State.feedback z u ∧ t.closeFromClear z = State.feedback z (u.leaveClear z) := by
  have goes := h.goes fun r => { r with state := .closing, fault := false, timer := t.after r.shutterLimit }
  have timer : t.after (t.zone z).shutterLimit = some (s.now + (t.zone z).shutterLimit) := by rw [State.after, h.now_eq]
  rw [timer] at goes
  exact ⟨_, goes, rfl, rfl⟩

theorem Rezoned.stops (h : Rezoned s t z) : ∃ u, ZoneGoes s u z (t.zone z).stopping ∧
    t.enterStopping z = u.beginStopping z ∧ t.stopFromClear z = (u.leaveClear z).beginStopping z :=
  ⟨_, h.goes fun r => { r with state := .stopping, timer := none }, rfl, rfl⟩

/-- The courses that a shutdown takes from a zone record `x`, each ending in what `ends` says (R156). -/
def ShutdownRuns (s : State) (z : Nat) (x : Zone) (ends : State → Prop) (cause : ZoneCause) : Prop :=
  let y := { x with cause := some cause }
  (x.state = .clear → s.mode.mode ≠ .quiet →
    ∃ u, ZoneGoes s u z y.stopping ∧ ends ((u.leaveClear z).beginStopping z)) ∧
  (x.state = .clear → s.mode.mode = .quiet →
    ∃ u, ZoneGoes s u z (y.closing s) ∧ ends (State.feedback z (u.leaveClear z))) ∧
  (x.state = .enabling → s.mode.mode ≠ .quiet → ∃ u, ZoneGoes s u z y.stopping ∧ ends (u.beginStopping z)) ∧
  (x.state = .opening ∨ (x.state = .enabling ∧ s.mode.mode = .quiet) →
    ∃ u, ZoneGoes s u z (y.closing s) ∧ ends (State.feedback z u))

theorem Rezoned.shutdown_runs (h : Rezoned s t z) {ends : State → Prop} (he : ends (t.shutdown z cause)) :
    ShutdownRuns s z (t.zone z) ends cause := by
  obtain ⟨c, cGoes, cEnter, cClear⟩ := (h.giveCause cause).closes
  obtain ⟨p, pGoes, pEnter, pClear⟩ := (h.giveCause cause).stops
  rw [h.givenCause] at cGoes pGoes
  have mode (m : Mode → Prop) (hm : m s.mode.mode) : m t.mode.mode := by rwa [h.mode_eq]
  unfold State.shutdown at he
  refine ⟨fun hs hm => ⟨p, pGoes, ?_⟩, fun hs hm => ⟨c, cGoes, ?_⟩, fun hs hm => ⟨p, pGoes, ?_⟩, fun hs => ⟨c, cGoes, ?_⟩⟩
  · rw [hs] at he
    dsimp only at he
    rwa [if_neg (mode (· ≠ .quiet) hm), pClear] at he
  · rw [hs] at he
    dsimp only at he
    rwa [if_pos (mode (· = .quiet) hm), cClear] at he
  · rw [hs] at he
    dsimp only at he
    rwa [if_neg (mode (· ≠ .quiet) hm), pEnter] at he
  · obtain hs | ⟨hs, hm⟩ := hs
    · rw [hs] at he
      dsimp only at he
      rwa [cEnter] at he
    · rw [hs] at he
      dsimp only at he
      rwa [if_pos (mode (· = .quiet) hm), cEnter] at he

theorem shutdown_stays (h : (s.zone z).state = .stopping ∨ (s.zone z).state = .settling ∨ (s.zone z).state = .closing ∨
    (s.zone z).state = .sealed) : s.shutdown z cause = s := by
  unfold State.shutdown
  obtain h | h | h | h := h
  · rw [h]
  · rw [h]
  · rw [h]
  · rw [h]

/-- A zone enters SETTLING; without a brake settle it goes on to CLOSING (R160). -/
theorem enterSettling_goes (h : s.zones.wf) : ∃ u,
    ZoneGoes s u z { s.zone z with state := .settling, timer := some (s.now + (s.zone z).brakeSettle), awaited := [] } ∧
      s.enterSettling z = if (s.zone z).brakeSettle = 0 then u.enterClosing z else u := by
  have goes := zoneTo_goes (z := z) h fun r => { r with state := .settling, timer := s.after r.brakeSettle, awaited := [] }
  have own := goes.1 z
  rw [if_pos rfl] at own
  refine ⟨_, goes, ?_⟩
  unfold State.enterSettling
  dsimp only
  rw [own]

end

/-! ## Cranes faulted on a request -/

section
variable {s : State}

theorem faultCrane_cranesAlone (s : State) (cause : FaultCause) (a : Nat) : CranesAlone s (State.faultCrane cause a s) := by
  unfold State.faultCrane
  split
  · exact .refl s
  · have set := setCraneState_cranesAlone (s.modCrane a fun c => { c with faultCode := none }) a .faulted
    exact .trans (t := s.modCrane a fun c => { c with faultCode := none }) rfl (set.trans rfl)

theorem faultRequest_cranesAlone (s : State) (xs : List Nat) (cause : FaultCause) : CranesAlone s (s.faultRequest xs cause) :=
  forEach_induct (CranesAlone s) _ (fun a u h => h.trans (faultCrane_cranesAlone u cause a)) _ _ (.refl s)

theorem CranesAlone.zones {t : State} (h : CranesAlone s t) : t.zones = s.zones := (congrArg State.zones h).trans rfl

theorem CranesAlone.now {t : State} (h : CranesAlone s t) : t.now = s.now := (congrArg State.now h).trans rfl

theorem CranesAlone.zone {t : State} (h : CranesAlone s t) (z : Nat) : t.zone z = s.zone z := by
  rw [State.zone, h.zones]
  rfl

theorem lateCranes_eq (xs : List Nat) : s.lateCranes xs =
    xs.filter fun a => decide ((s.crane a).state ∈ [CraneState.ready, .busy, .parking]) :=
  List.filter_congr fun a _ => by rw [← Bool.decide_coe (s.crane a).state.unparked, decide_eq_decide, CraneState.unparked_iff]

end

/-! ## SEAL_NOW -/

section
variable {s : State} {z : Nat}

theorem seal_clear (h : s.zones.wf) (hs : (s.zone z).state = .clear) :
    ∃ u, ZoneGoes s u z (Zone.closing s { s.zone z with cause := some .manual }) ∧
      s.seal z = State.feedback z (u.leaveClear z) := by
  have given := (Rezoned.refl z h).giveCause .manual
  obtain ⟨u, goes, -, ends⟩ := given.closes
  rw [(Rezoned.refl z h).givenCause] at goes
  exact ⟨u, goes, by unfold State.seal; rw [hs]; exact ends⟩

theorem seal_moving (h : s.zones.wf) (hs : (s.zone z).state = .opening ∨ (s.zone z).state = .enabling) :
    ∃ u, ZoneGoes s u z (Zone.closing s { s.zone z with cause := some .manual }) ∧ s.seal z = State.feedback z u := by
  have given := (Rezoned.refl z h).giveCause .manual
  obtain ⟨u, goes, ends, -⟩ := given.closes
  rw [(Rezoned.refl z h).givenCause] at goes
  refine ⟨u, goes, ?_⟩
  unfold State.seal
  obtain hs | hs := hs
  · rw [hs]
    exact ends
  · rw [hs]
    exact ends

theorem seal_settling (h : s.zones.wf) (hs : (s.zone z).state = .settling) :
    ∃ u, ZoneGoes s u z ((s.zone z).closing s) ∧ s.seal z = State.feedback z u := by
  obtain ⟨u, goes, ends, -⟩ := (Rezoned.refl z h).closes
  exact ⟨u, goes, by unfold State.seal; rw [hs]; exact ends⟩

theorem seal_stopping (h : s.zones.wf) (hs : (s.zone z).state = .stopping) :
    ∃ u, ZoneGoes (s.faultRequest (s.lateCranes (s.zone z).awaited) .parkLate) u z
        (Zone.closing s { s.zone z with awaited := [] }) ∧ s.seal z = State.feedback z u := by
  have alone := faultRequest_cranesAlone s (s.lateCranes (s.zone z).awaited) .parkLate
  have ordered : (s.faultRequest (s.lateCranes (s.zone z).awaited) .parkLate).zones.wf := by rw [alone.zones]; exact h
  have emptied := (Rezoned.refl z ordered).modZone (fun r => { r with awaited := [] }) fun _ => rfl
  obtain ⟨u, goes, ends, -⟩ := emptied.closes
  rw [State.modZone_zone _ _ _ _ ordered, if_pos rfl, alone.zone, Zone.closing, alone.now] at goes
  exact ⟨u, goes, by unfold State.seal; rw [hs]; exact ends⟩

theorem seal_stays (hs : (s.zone z).state = .closing ∨ (s.zone z).state = .sealed) : s.seal z = s := by
  unfold State.seal
  obtain hs | hs := hs
  · rw [hs]
  · rw [hs]

end

/-! ## The commands -/

section
variable {s : State} {tag : BitVec 16} {z : Fin 8} (hr : s.running)
include hr

theorem zoneShut_ends : exec (.zoneShut tag z) s = .next (s.requestEnds (s.beginEvent.shutdown z .manual)
    (.done tag.toNat 7 (be 1 ((s.beginEvent.shutdown z .manual).settle.zone z).state.code))) := by
  have ends := request_ends (body := fun s => (s.shutdown z .manual, fun t => .done tag.toNat kindCommand (zoneField z t))) hr rfl
  exact ends

theorem zoneShut_stays (h : s.beginEvent.shutdown z .manual = s.beginEvent) :
    exec (.zoneShut tag z) s = .next (s.onlyAnswers (.done tag.toNat 7 (be 1 (s.zone z).state.code))) := by
  have answers := request_answers (body := fun s => (s.shutdown z .manual, fun t => .done tag.toNat kindCommand (zoneField z t)))
    (a := fun t => .done tag.toNat kindCommand (zoneField z t)) hr (by rw [h])
  exact answers

theorem sealNow_ends : exec (.sealNow tag z) s = .next (s.requestEnds (s.beginEvent.seal z)
    (.done tag.toNat 7 (be 1 ((s.beginEvent.seal z).settle.zone z).state.code))) := by
  have ends := request_ends (body := fun s => (s.seal z, fun t => .done tag.toNat kindCommand (zoneField z t))) hr rfl
  exact ends

theorem sealNow_stays (h : s.beginEvent.seal z = s.beginEvent) :
    exec (.sealNow tag z) s = .next (s.onlyAnswers (.done tag.toNat 7 (be 1 (s.zone z).state.code))) := by
  have answers := request_answers (body := fun s => (s.seal z, fun t => .done tag.toNat kindCommand (zoneField z t)))
    (a := fun t => .done tag.toNat kindCommand (zoneField z t)) hr (by rw [h])
  exact answers

theorem alarmDebounce_ends (h : (s.zone z).debounceTimer ≠ none) : exec (.alarmDebounceExpiry z) s =
    .next (s.eventEnds ((s.beginEvent.modZone z fun r => { r with debounceTimer := none }).shutdown z .alarm)) :=
  event_ends hr (if_pos (Option.isSome_iff_ne_none.2 h))

theorem alarmDebounce_idle (h : (s.zone z).debounceTimer = none) : HasNoEffect (.alarmDebounceExpiry z) s :=
  event_idle hr (if_neg (by rw [show s.beginEvent.zone z = s.zone z from rfl, h]; exact nofun))

end

/-! ## A station's zone leaves CLEAR -/

section
variable {s : State} {l : LaneBin} {m : Member}

theorem strandLaneBin_order (hm : s.member l.ref = some m) (k : Nat) :
    (State.strandLaneBin l s).order k = (s.order k).map fun p => if k = l.ref.order then
      { p with members := p.members.modify l.ref.pos fun x =>
        { x with state := if m.state.loses .stranded then .stranded else x.state, held := 0 } } else p := by
  have kept (i : Nat) : (s.setBinState l.bin .stranded).order i = s.order i := State.modBin_order _ _ _ _
  have found : (s.setBinState l.bin .stranded).member l.ref = some m := by rw [State.member, kept]; exact hm
  rw [State.strandLaneBin, releaseHeld_order, loseMember_order (st := .stranded) found k, kept]
  cases s.order k with
  | none => rfl
  | some p => by_cases hk : k = l.ref.order <;> simp [hk, List.modify_modify_eq, Function.comp_def]

theorem strandLaneBin_rest (hm : s.member l.ref = some m) : State.strandLaneBin l s = { s with
    store := { s.store with bins := (s.setBinState l.bin .stranded).store.bins }
    desk := { s.desk with orders := (State.strandLaneBin l s).desk.orders }
    work := { s.work with
      admission := s.work.admission || decide (m.held ≠ 0), drain := s.work.drain || decide (m.held ≠ 0)
      up := if m.state.loses .stranded then s.work.up ++ [.notice (.memberLost l.ref.order l.ref.pos m.bin .stranded)]
        else s.work.up } } := by
  have kept (i : Nat) : (s.setBinState l.bin .stranded).order i = s.order i := State.modBin_order _ _ _ _
  have found : (s.setBinState l.bin .stranded).member l.ref = some m := by rw [State.member, kept]; exact hm
  have stranded : s.setBinState l.bin .stranded =
      { s with store := { s.store with bins := (s.setBinState l.bin .stranded).store.bins } } := by
    rw [State.setBinState, State.modBin_eq]
  have held : (∃ x, ((s.setBinState l.bin .stranded).loseMember l.ref .stranded).member l.ref = some x ∧ x.held ≠ 0) ↔
      m.held ≠ 0 := by
    have lost : ((s.setBinState l.bin .stranded).loseMember l.ref .stranded).member l.ref =
        some { m with state := if m.state.loses .stranded then .stranded else m.state } := by
      rw [State.member, loseMember_order found, kept]
      rw [State.member] at hm
      cases ho : s.order l.ref.order with
      | none => rw [ho] at hm; cases hm
      | some o =>
        rw [ho] at hm
        have listed : o.members[l.ref.pos]? = some m := hm
        simp [listed]
    rw [lost]
    simp
  obtain ⟨orders, lost⟩ : ∃ orders, (s.setBinState l.bin .stranded).loseMember l.ref .stranded = { s with
      store := { s.store with bins := (s.setBinState l.bin .stranded).store.bins }
      desk := { s.desk with orders }
      work := { s.work with
        up := if m.state.loses .stranded then s.work.up ++ [.notice (.memberLost l.ref.order l.ref.pos m.bin .stranded)]
          else s.work.up } } := by
    refine ⟨((s.setBinState l.bin .stranded).loseMember l.ref .stranded).desk.orders, ?_⟩
    have rest := loseMember_rest (st := .stranded) found
    generalize ((s.setBinState l.bin .stranded).loseMember l.ref .stranded).desk.orders = orders at rest
    rw [rest, stranded]
  have rest := releaseHeld_rest_of held
  rw [show ((s.setBinState l.bin .stranded).loseMember l.ref .stranded).releaseHeld l.ref = State.strandLaneBin l s from rfl]
    at rest
  refine rest.trans ?_
  rw [lost]

end

section
variable {s : State} {st : Nat}

/-- A station has lost its window and its lane, and those that wait for a carry at it (R102). -/
def State.cleared (s : State) (st : Nat) : State :=
  let t := s.dropWaiting fun e => decide (e.station = st)
  let t := (t.modStation st fun w => { w with lane := [], owner := none }).oweDrain
  if (s.station st).lane = [] then t else t.oweAdmission

theorem cleared_station (ht : s.Tidy) (k : Nat) :
    (s.cleared st).station k = if k = st then { s.station st with lane := [], owner := none } else s.station k := by
  have emptied := s.modStation_station st k (fun w => { w with lane := [], owner := none }) ht.stations.1
  unfold State.cleared
  dsimp only
  split
  · exact emptied
  · exact emptied

theorem cleared_rest : s.cleared st = { s with
    desk := { s.desk with stations := (s.cleared st).desk.stations }
    pool := { s.pool with waitList := s.pool.waitList.filter fun e => decide (e.station ≠ st) }
    work := { s.work with drain := true, admission := s.work.admission || decide ((s.station st).lane ≠ []) } } := by
  have dropped : (fun e : WaitEntry => !decide (e.station = st)) = fun e => decide (e.station ≠ st) := by
    funext e
    simp
  rw [← dropped]
  unfold State.cleared
  dsimp only
  by_cases h : (s.station st).lane = []
  · rw [if_pos h, decide_eq_false (not_not.2 h), Bool.or_false]
    rfl
  · rw [if_neg h, decide_eq_true h, Bool.or_true]
    rfl

theorem stationShut_eq : State.stationShut st s =
    forEach ((s.station st).lane.map fun l => l.ref.order).dedup (fun n x => x.settleOrder n)
      ((forEach (s.station st).lane State.strandLaneBin (s.cleared st)).oustOwner st (s.station st).owner) := rfl

theorem cleared_tidy (ht : s.Tidy) : (s.cleared st).Tidy := by
  have emptied := (Kept.of_tidy ht).modStation st fun w => { w with lane := [], owner := none }
  unfold State.cleared
  dsimp only
  split
  · exact { emptied.tidy with }
  · exact { emptied.tidy with }

/-- The owner that a shut station has lost goes back to its presentation queue while a member of it lives (R102). -/
def Rejoins (t : State) (owner : Option Nat) (n : Nat) : Prop :=
  owner = some n ∧ ∃ o, t.order n = some o ∧ ∃ m ∈ o.members, m.state ∉ [MemberState.done, .stranded, .failed, .cancelled]

theorem oustOwner_rejoins {t : State} {owner : Option Nat} {n : Nat} (h : Rejoins t owner n) :
    t.oustOwner st owner = t.modStation st fun w => { w with presQueue := w.presQueue ++ [n] } := by
  obtain ⟨rfl, o, ho, m, hm, live⟩ := h
  unfold State.oustOwner
  dsimp only
  rw [ho]
  exact if_pos (List.any_eq_true.2 ⟨m, hm, (MemberState.live_iff _).2 live⟩)

theorem oustOwner_leaves {t : State} {owner : Option Nat} (h : ∀ n, ¬ Rejoins t owner n) : t.oustOwner st owner = t := by
  unfold State.oustOwner
  cases owner with
  | none => rfl
  | some n =>
    dsimp only
    cases ho : t.order n with
    | none => rfl
    | some o =>
      refine if_neg fun hx => ?_
      obtain ⟨m, hm, live⟩ := List.any_eq_true.1 hx
      exact h n ⟨rfl, o, ho, m, hm, (MemberState.live_iff _).1 live⟩

end

/-! ## The lifts of a zone that leaves CLEAR, and STOPPING -/

section
variable {s : State} {z : Nat}

theorem barredByZone_iff (r : Lift) : r.barredByZone = true ↔ r.word ≠ .bar ∧ (r.word = .off → r.carries ≠ []) := by
  unfold Lift.barredByZone
  cases r.word <;> simp

theorem shutLifts_eq : (allLifts.filter fun l => decide ((s.lift l).zone = z) && (s.lift l).barredByZone) =
    (List.range 6).filter fun l => decide ((s.lift l).zone = z ∧ (s.lift l).word ≠ .bar ∧
      ((s.lift l).word = .off → (s.lift l).carries ≠ [])) :=
  List.filter_congr fun l _ => by
    rw [← Bool.decide_coe (s.lift l).barredByZone, ← Bool.decide_and, decide_eq_decide, barredByZone_iff]

theorem liftsShut_free (h : s.work.bars = none) : s.liftsShut z =
    if (allLifts.filter fun l => decide ((s.lift l).zone = z) && (s.lift l).barredByZone) = [] then s
    else s.barLifts (allLifts.filter fun l => decide ((s.lift l).zone = z) && (s.lift l).barredByZone) .zone := by
  unfold State.liftsShut
  rw [h]

theorem liftsShut_held {held : List Nat} (h : s.work.bars = some held) : s.liftsShut z = { s with work := { s.work with
    bars := some (held ++ allLifts.filter fun l => decide ((s.lift l).zone = z) && (s.lift l).barredByZone) } } := by
  unfold State.liftsShut
  rw [h]
  rfl

theorem awaitable_filter (xs : List Nat) : xs.filter s.awaitable =
    xs.filter fun a => decide (s.craneAddress a ≠ none ∧ s.parkContribution a ≠ none) :=
  List.filter_congr fun a _ => by
    rw [← Bool.decide_coe (s.awaitable a), decide_eq_decide]
    simp [State.awaitable, Option.isSome_iff_ne_none]

theorem stoppingTest_other (h : (s.zone z).state ≠ .stopping) : State.stoppingTest z s = s := if_neg h

/-- The cranes that STOPPING parks (R159). -/
def State.stoppingParks (s : State) (z : Nat) : State :=
  s.parkRequest ((s.aislesTouching z).filter fun a => decide ((s.crane a).state = .ready))

theorem stoppingTest_eq (h : (s.zone z).state = .stopping) : State.stoppingTest z s =
    if (s.stoppingParks z).stillAwaited (s.zone z).awaited then s.stoppingParks z
    else (s.stoppingParks z).enterSettling z := by
  have same : (s.stoppingParks z).zone z = s.zone z := (parkRequest_cranesAlone s _).zone z
  rw [State.stoppingTest, if_pos h, ← same]
  rfl

end

/-- Settles O54. -/
theorem shutdownsByZoneState : Obligations.ShutdownsByZoneState := by
  refine ⟨fun s tag z hr ht => ?_, fun s z cause ht => ?_, fun s z => ?_, fun s st ht => ?_, fun s l m ht hm => ?_,
    fun s z ht => ⟨?_, stoppingTest_other, fun hs => ?_⟩⟩
  · intro r closing stopping answered shutdown stays
    have begun : Rezoned s.beginEvent s.beginEvent z := .refl z ht.zones.1
    have wf : s.beginEvent.zones.wf := ht.zones.1
    refine ⟨begun.shutdown_runs (ends := answered (.zoneShut tag z)) (zoneShut_ends hr),
      fun h => zoneShut_stays hr (shutdown_stays (s := s.beginEvent) h), alarmDebounce_idle hr, fun h => ⟨?_, fun hs => ?_⟩,
      fun hs => ?_, fun hs => ?_, fun hs => ?_, fun hs => ?_, fun hs => sealNow_stays hr (seal_stays (s := s.beginEvent) hs)⟩
    · have stopped := begun.modZone (fun r => { r with debounceTimer := none }) fun _ => rfl
      have runs := stopped.shutdown_runs (ends := fun u => exec (.alarmDebounceExpiry z) s = .next (s.eventEnds u))
        (alarmDebounce_ends hr h)
      rw [State.modZone_zone _ _ _ _ wf, if_pos rfl] at runs
      exact runs
    · have own : (s.beginEvent.modZone z fun r => { r with debounceTimer := none }).zone z =
          { s.zone z with debounceTimer := none } := by rw [State.modZone_zone _ _ _ _ wf, if_pos rfl]; rfl
      refine ⟨s.beginEvent.modZone z fun r => { r with debounceTimer := none }, fun k => State.modZone_zone _ _ _ _ wf, rfl, ?_⟩
      rw [alarmDebounce_ends hr h, shutdown_stays (by rw [own]; exact hs), State.eventEnds]
      exact congrArg (fun u => Host.Outcome.next (s.closeEvent u none)) (settle_idle _ rfl)
    · obtain ⟨u, goes, ends⟩ := seal_clear wf hs
      exact ⟨u, goes, ends ▸ sealNow_ends hr⟩
    · obtain ⟨u, goes, ends⟩ := seal_moving wf hs
      exact ⟨u, goes, ends ▸ sealNow_ends hr⟩
    · obtain ⟨u, goes, ends⟩ := seal_settling wf hs
      exact ⟨u, goes, ends ▸ sealNow_ends hr⟩
    · intro late
      obtain ⟨u, goes, ends⟩ := seal_stopping wf hs
      rw [lateCranes_eq] at goes
      exact ⟨u, goes, ends ▸ sealNow_ends hr⟩
  · intro y st closing stopping
    obtain ⟨stops, closes, stopsEnabling, closesMoving⟩ :=
      (Rezoned.refl z ht.zones.1).shutdown_runs (ends := fun u => s.shutdown z cause = u) rfl
    exact ⟨stops, closes, stopsEnabling, closesMoving, shutdown_stays⟩
  · intro within t shuts ls
    have left : s.leaveClear z = t.liftsShut z := rfl
    have lifts : (allLifts.filter fun l => decide ((t.lift l).zone = z) && (t.lift l).barredByZone) = ls := shutLifts_eq
    refine ⟨fun h hl => ?_, fun h hl => ?_, fun held h => ?_⟩
    · rw [left, liftsShut_free h, lifts, if_pos hl]
    · rw [left, liftsShut_free h, lifts, if_neg hl]
    · rw [left, liftsShut_held h, lifts]
  · intro w
    refine ⟨s.cleared st, (forEach w.lane State.strandLaneBin (s.cleared st)).oustOwner st w.owner, cleared_station ht,
      cleared_rest, ?_, stationShut_eq⟩
    intro t rejoins
    have tidy : t.Tidy := ((Kept.of_tidy (cleared_tidy (st := st) ht)).forEach w.lane _ fun l _ h => h.strandLaneBin l).tidy
    refine ⟨oustOwner_leaves, fun n hn => ⟨fun k => ?_, ?_⟩⟩
    · rw [oustOwner_rejoins hn, State.modStation_station _ _ _ _ tidy.stations.1]
    · rw [oustOwner_rejoins hn]
      rfl
  · intro loses
    refine ⟨State.strandLaneBin l s, fun b => ?_, strandLaneBin_order hm, ?_, rfl⟩
    · have bins : (State.strandLaneBin l s).bin b = (s.setBinState l.bin .stranded).bin b :=
        (congrArg (fun v : State => v.bin b) (strandLaneBin_rest hm)).trans rfl
      rw [bins, State.setBinState_bin]
      by_cases hb : b = l.bin
      · simp [hb]
      · simp [hb]
    · have bins : (State.strandLaneBin l s).store.bins = (s.setBinState l.bin .stranded).store.bins :=
        (congrArg (fun v : State => v.store.bins) (strandLaneBin_rest hm)).trans rfl
      rw [bins]
      exact strandLaneBin_rest hm
  · refine ⟨s.modZone z fun r => { r with
      timer := s.after (s.parkDeadline (s.aislesTouching z) (s.zone z).parkAllowance)
      awaited := (s.aislesTouching z).filter s.awaitable }, fun k => ?_, rfl, rfl⟩
    rw [State.modZone_zone _ _ _ _ ht.zones.1, awaitable_filter]
    rfl
  · intro t
    have parks : s.stoppingParks z = t := rfl
    have still : t.stillAwaited (s.zone z).awaited = true ↔
        ∃ a ∈ (s.zone z).awaited, (t.crane a).state ∈ [CraneState.ready, .busy, .parking] := State.stillAwaited_iff t _
    have alone : CranesAlone s t := parkRequest_cranesAlone s _
    refine ⟨fun h => ?_, fun h => ?_⟩
    · rw [stoppingTest_eq hs, parks, if_pos (still.2 h)]
    · have wf : t.zones.wf := by rw [alone.zones]; exact ht.zones.1
      obtain ⟨u, goes, ends⟩ := enterSettling_goes (z := z) wf
      rw [alone.zone, alone.now] at goes
      rw [alone.zone] at ends
      refine ⟨u, goes, ?_⟩
      rw [stoppingTest_eq hs, parks, if_neg fun hx => ?_, ends]
      obtain ⟨a, ha, hp⟩ := still.1 hx
      exact h a ha hp

end Sys2Proof.Machine
end

section
/-! PROOF (O55). ZONE_RESTORE, the timers of a zone, and what becoming CLEAR brings about (R103, R159 to R161, R164 to
R168). -/

namespace Sys2Proof.Machine

/-! ## The commands -/

section
variable {s : State} {tag : BitVec 16} {z : Fin 8}

theorem alarmInput_iff (s : State) (z : Nat) :
    s.alarmInput z = true ↔ (s.line z).selection = .first ∧ s.lineValue z = true := by
  simp [State.alarmInput, State.selectedFirst]

theorem timing_iff (s : State) (z : Nat) (st : ZoneState) :
    s.timing z st = true ↔ (s.zone z).state = st ∧ (s.zone z).timer ≠ none := by
  simp [State.timing, Option.isSome_iff_ne_none]

theorem selectedFirst_iff (s : State) (n : Nat) : s.selectedFirst n = true ↔ (s.line n).selection = .first := by
  simp [State.selectedFirst]

/-- What ZONE_RESTORE does (R164). -/
def zoneRestoreBody (tag : BitVec 16) (z : Fin 8) (s : State) : State × (State → Answer) :=
  if (s.zone z).state ≠ .sealed then (s, fun _ => .refused tag.toNat kindCommand .wrongState)
  else if s.alarmInput z then (s, fun _ => .refused tag.toNat kindCommand .alarmActive)
  else (s.enterOpening z, fun _ => .done tag.toNat kindCommand (be 1 ZoneState.opening.code))

theorem exec_zoneRestore (tag : BitVec 16) (z : Fin 8) (s : State) :
    exec (.zoneRestore tag z) s = s.live (s.request (zoneRestoreBody tag z)) := rfl

section
variable (hr : s.running)
include hr

theorem zoneRestore_wrongState (h : (s.zone z).state ≠ .sealed) :
    exec (.zoneRestore tag z) s = .next (s.onlyAnswers (.refused tag.toNat 7 .wrongState)) := by
  rw [exec_zoneRestore, request_answers (a := fun _ => .refused tag.toNat kindCommand .wrongState) hr (if_pos h)]
  rfl

theorem zoneRestore_alarm (h : (s.zone z).state = .sealed) (ha : s.alarmInput z = true) :
    exec (.zoneRestore tag z) s = .next (s.onlyAnswers (.refused tag.toNat 7 .alarmActive)) := by
  rw [exec_zoneRestore, request_answers (a := fun _ => .refused tag.toNat kindCommand .alarmActive) hr
    ((if_neg (not_not.2 h)).trans (if_pos ha))]
  rfl

theorem zoneRestore_opens (h : (s.zone z).state = .sealed) (ha : ¬ s.alarmInput z = true) : exec (.zoneRestore tag z) s =
    .next (s.requestEnds (s.beginEvent.enterOpening z) (.done tag.toNat 7 [5#8])) := by
  rw [exec_zoneRestore, request_ends (u := s.beginEvent.enterOpening z)
    (a := fun _ => .done tag.toNat kindCommand (be 1 ZoneState.opening.code)) hr
    ((if_neg (not_not.2 h)).trans (if_neg ha))]
  rfl

/-- An event that a timer's running makes, and that is idle without it (R159 to R167). -/
theorem timed_idle {st : ZoneState} {f : State → State} (h : ¬ ((s.zone z).state = st ∧ (s.zone z).timer ≠ none)) :
    s.live (s.event fun s => if s.timing z st then f s else s) = .next (s.closeEvent s.beginEvent none) :=
  event_idle hr (if_neg fun hx => h ((timing_iff s z st).1 hx))

theorem timed_ends {st : ZoneState} {f : State → State} (h : (s.zone z).state = st ∧ (s.zone z).timer ≠ none) :
    s.live (s.event fun s => if s.timing z st then f s else s) = .next (s.eventEnds (f s.beginEvent)) :=
  event_ends hr (if_pos ((timing_iff s z st).2 h))

end

end

/-! ## Becoming CLEAR -/

theorem insertByAdmission_perm (o : Order) (os : List Order) : (insertByAdmission o os).Perm (o :: os) := by
  induction os with
  | nil => exact .refl _
  | cons p ps ih =>
    unfold insertByAdmission
    split
    · exact .refl _
    · exact (ih.cons p).trans (.swap o p ps)

theorem insertByAdmission_sorted {o : Order} {os : List Order} (h : os.Pairwise fun o p => o.admission ≤ p.admission) :
    (insertByAdmission o os).Pairwise fun o p => o.admission ≤ p.admission := by
  induction os with
  | nil => exact List.pairwise_singleton _ _
  | cons p ps ih =>
    obtain ⟨head, tail⟩ := List.pairwise_cons.1 h
    unfold insertByAdmission
    split
    · next hop =>
      refine List.pairwise_cons.2 ⟨fun q hq => ?_, h⟩
      obtain rfl | hq := List.mem_cons.1 hq
      · exact le_of_lt hop
      · exact (le_of_lt hop).trans (head q hq)
    · next hop =>
      refine List.pairwise_cons.2 ⟨fun q hq => ?_, ih tail⟩
      obtain rfl | hq := List.mem_cons.1 ((insertByAdmission_perm o ps).mem_iff.1 hq)
      · omega
      · exact head q hq

section
variable {s : State} {st : Nat}

theorem admittedAt_perm : (s.admittedAt st).Perm
    ((s.desk.orders.map (·.2)).filter fun o => decide (o.station = st ∧ o.state ≠ .waiting)) := by
  have kept : (fun o : Order => decide (o.station = st) && decide (o.state ≠ .waiting)) =
      fun o => decide (o.station = st ∧ o.state ≠ .waiting) := funext fun o => (Bool.decide_and _ _).symm
  unfold State.admittedAt
  rw [kept]
  induction (s.desk.orders.map (·.2)).filter fun o => decide (o.station = st ∧ o.state ≠ .waiting) with
  | nil => exact .refl _
  | cons o os ih => exact (insertByAdmission_perm _ _).trans (ih.cons o)

theorem admittedAt_sorted : (s.admittedAt st).Pairwise fun o p => o.admission ≤ p.admission := by
  unfold State.admittedAt
  induction (s.desk.orders.map (·.2)).filter fun o => decide (o.station = st) && decide (o.state ≠ .waiting) with
  | nil => exact .nil
  | cons o os ih => exact insertByAdmission_sorted ih

/-- The entry of the carry wait list for an AT_FRONT member (R91, R103). -/
def frontEntry (s : State) (st : Nat) (f : MemberRef × Nat) : WaitEntry :=
  { bin := f.2, leg := .up, aisle := s.binAisle f.2, station := st, ref := f.1 }

theorem forEach_toUpLeg (fs : List (MemberRef × Nat)) (s : State) : forEach fs (fun f s => s.toUpLeg f.1 f.2 st) s =
    { s with
      pool := { s.pool with waitList := s.pool.waitList ++ fs.map (frontEntry s st) }
      work := { s.work with scan := s.work.scan || decide (fs ≠ []) } } := by
  induction fs using List.reverseRecOn with
  | nil => simp
  | append_singleton fs f ih =>
    have step : forEach (fs ++ [f]) (fun f s => s.toUpLeg f.1 f.2 st) s =
        (forEach fs (fun f s => s.toUpLeg f.1 f.2 st) s).toUpLeg f.1 f.2 st := List.foldl_append
    have some : decide (fs ++ [f] ≠ []) = true := by simp
    rw [step, ih, some, List.map_append, List.map_singleton, Bool.or_true, ← List.append_assoc]
    rfl

theorem zipIdx_filterMap {α β : Type} (g : α → Nat → Option β) (xs : List α) :
    (xs.zipIdx.filterMap fun p => g p.1 p.2) = (List.range xs.length).filterMap fun i => xs[i]?.bind fun x => g x i := by
  induction xs using List.reverseRecOn with
  | nil => rfl
  | append_singleton xs x ih =>
    have before : ((List.range xs.length).filterMap fun i => (xs ++ [x])[i]?.bind fun x => g x i) =
        (List.range xs.length).filterMap fun i => xs[i]?.bind fun x => g x i :=
      List.filterMap_congr fun i hi => by rw [List.getElem?_append_left (List.mem_range.1 hi)]
    rw [List.zipIdx_append, List.filterMap_append, ih, List.length_append, List.length_singleton, List.range_succ,
      List.filterMap_append, before]
    simp [List.filterMap_cons]

theorem atFront_map (s : State) (st : Nat) (o : Order) : o.atFront.map (frontEntry s st) =
    (List.range o.members.length).filterMap fun i => match o.members[i]? with
      | some m =>
        if m.state = .atFront then
          some { bin := m.bin, leg := .up, aisle := s.binAisle m.bin, station := st, ref := ⟨o.number, i⟩ }
        else none
      | none => none := by
  refine (congrArg (List.map (frontEntry s st)) (zipIdx_filterMap
    (fun (m : Member) i => if m.state = .atFront then some ((⟨o.number, i⟩ : MemberRef), m.bin) else none) o.members)).trans ?_
  rw [List.map_filterMap]
  refine List.filterMap_congr fun i hi => ?_
  cases o.members[i]? with
  | none => rfl
  | some m =>
    by_cases h : m.state = .atFront
    · simp [h, frontEntry]
    · simp [h]

end

/-- The neighbours of a zone that has become CLEAR are told in order (R103, R168). -/
def State.tellClear (u : State) (z : Nat) (touching : List Nat) : State :=
  let t := forEach touching (fun a x => x.dispatchTest a) u
  let v := forEach ((List.range 24).filter fun st => decide ((t.station st).zone = z)) State.stationOpen t
  let w := State.admissionPass { v with work := { v.work with admission := false } }
  { w with work := { w.work with scan := true, restore := w.work.restore ++ [.pass] } }

theorem becomeClear_eq {s : State} {z : Nat} : s.becomeClear z =
    (s.zoneTo z fun r => { r with state := .clear, cause := none, timer := none }).tellClear z
      ((List.range 12).filter fun a => decide (z ∈ (s.aisle a).zones)) := by
  have owes (w : State) : (w.oweScan).oweRestore .pass =
      { w with work := { w.work with scan := true, restore := w.work.restore ++ [.pass] } } := rfl
  have admits (v : State) : v.admitNow = State.admissionPass { v with work := { v.work with admission := false } } := rfl
  have stations (t : State) : t.stationsIn z = (List.range 24).filter fun st => decide ((t.station st).zone = z) := rfl
  have aisles (f : Zone → Zone) : (s.zoneTo z f).aislesTouching z =
      (List.range 12).filter fun a => decide (z ∈ (s.aisle a).zones) := rfl
  unfold State.becomeClear State.tellClear
  dsimp only
  rw [owes, aisles, stations, admits]

/-! ## The ready test -/

section
variable {s : State} {z : Nat}

theorem counted_of_drive {a : Nat} : (s.craneAddress a ≠ none ∧ s.driveLevel a = true ∧ (s.crane a).state ≠ .faulted) ↔
    s.counted a = true := by
  rw [State.counted_iff]
  refine ⟨fun ⟨address, drive, state⟩ => ⟨?_, address, drive, state⟩, fun ⟨_, address, drive, state⟩ => ⟨address, drive, state⟩⟩
  simp only [State.driveLevel, Bool.and_eq_true] at drive
  exact drive.1.1

theorem readyTest_clears (h : (s.zone z).state = .enabling ∧ s.mode.mode ≠ .quiet ∧ s.running)
    (ha : ∀ a, a < 12 → z ∈ (s.aisle a).zones → s.counted a = true → (s.crane a).state = .ready) :
    State.readyTest z s = s.becomeClear z := by
  refine (if_pos h).trans (if_pos (List.all_eq_true.2 fun a hx => ?_))
  obtain ⟨touching, counted⟩ := List.mem_filter.1 hx
  obtain ⟨hl, hz⟩ := List.mem_filter.1 touching
  exact decide_eq_true (ha a (List.mem_range.1 hl) (of_decide_eq_true hz) counted)

theorem readyTest_stays (h : ¬ ((s.zone z).state = .enabling ∧ s.mode.mode ≠ .quiet ∧ s.running ∧
    ∀ a, a < 12 → z ∈ (s.aisle a).zones → s.counted a = true → (s.crane a).state = .ready)) : State.readyTest z s = s := by
  unfold State.readyTest
  split
  · next hc =>
    obtain ⟨enabling, mode, running⟩ := hc
    refine if_neg fun hx => h ⟨enabling, mode, running, fun a hl hz counted => ?_⟩
    refine of_decide_eq_true (List.all_eq_true.1 hx a (List.mem_filter.2 ⟨List.mem_filter.2 ⟨?_, decide_eq_true hz⟩, counted⟩))
    exact List.mem_range.2 hl
  · rfl

end

/-- A shutter's movement ends without its feedback (R161, R165). -/
theorem shutterFault_goes {s : State} {z : Nat} (h : s.zones.wf) (d : ShutterDirection) :
    ZoneGoes (s.notice (.shutterFault z d)) (s.shutterFault z d) z { s.zone z with state := .sealed, fault := true, timer := none } :=
  zoneTo_goes (s := s.notice (.shutterFault z d)) h _

/-- Settles O55. -/
theorem restoreAndZoneTimers : Obligations.RestoreAndZoneTimers := by
  refine ⟨fun s tag z hr ht => ?_, fun s z ht => ?_, fun s st => ?_, fun s z => ?_⟩
  · intro r present refused alarm closing enabling runs ends
    have wf : s.beginEvent.zones.wf := ht.zones.1
    refine ⟨zoneRestore_wrongState hr, fun hs ha => zoneRestore_alarm hr hs ((alarmInput_iff s z).2 ha), fun hs ha => ?_,
      timed_idle hr, fun h => ?_, timed_idle hr, fun h => ?_, timed_idle hr, fun h hp => ?_, fun h hp => ?_, timed_idle hr,
      fun h hp => ?_, fun h hp => ?_, timed_idle hr, fun h => ?_⟩
    · exact ⟨_, zoneTo_goes (s := s.beginEvent) wf _,
        zoneRestore_opens hr hs fun hx => ha ((alarmInput_iff s z).1 hx)⟩
    · intro late
      have alone := faultRequest_cranesAlone s.beginEvent (s.beginEvent.lateCranes (s.beginEvent.zone z).awaited) .parkLate
      have ordered := alone.zones.symm ▸ wf
      obtain ⟨u, goes, settles⟩ := enterSettling_goes (z := z) ordered
      rw [alone.zone, alone.now, lateCranes_eq] at goes
      rw [alone.zone] at settles
      exact ⟨u, goes, settles ▸ timed_ends hr h⟩
    · obtain ⟨u, goes, enters, -⟩ := (Rezoned.refl z wf).closes
      exact ⟨u, goes, enters ▸ timed_ends hr h⟩
    · have plain : ¬ s.beginEvent.selectedFirst (16 + z) = true := fun hx => hp ((selectedFirst_iff s _).1 hx)
      refine ⟨_, zoneTo_goes (s := s.beginEvent) wf fun r => { r with state := .sealed, timer := none },
        (timed_ends hr h).trans ?_⟩
      rw [if_neg plain]
    · have fed : s.beginEvent.selectedFirst (16 + z) = true := (selectedFirst_iff s _).2 hp
      refine ⟨_, shutterFault_goes wf .close, (timed_ends hr h).trans ?_⟩
      rw [if_pos fed]
    · have plain : ¬ s.beginEvent.selectedFirst (24 + z) = true := fun hx => hp ((selectedFirst_iff s _).1 hx)
      refine ⟨_, zoneTo_goes (s := s.beginEvent) wf fun r =>
        { r with state := .enabling, timer := s.beginEvent.after r.readyLimit }, (timed_ends hr h).trans ?_⟩
      rw [if_neg plain]
      rfl
    · have fed : s.beginEvent.selectedFirst (24 + z) = true := (selectedFirst_iff s _).2 hp
      refine ⟨_, shutterFault_goes wf .opening, (timed_ends hr h).trans ?_⟩
      rw [if_pos fed]
    · intro touching
      refine ⟨fun hm => (timed_ends hr h).trans ?_, fun hm => (timed_ends hr h).trans ?_⟩
      · have awake : ¬ s.beginEvent.mode.mode = .quiet := hm
        unfold State.faultUnready
        dsimp only
        rw [if_neg awake]
        rfl
      · have asleep : s.beginEvent.mode.mode = .quiet := hm
        have free : ((s.beginEvent.aislesTouching z).filter fun a =>
            (s.beginEvent.aisle a).zones.all fun y => (s.beginEvent.zone y).state.releasesCranes) =
            touching.filter fun a => decide (∀ y ∈ (s.aisle a).zones, (s.zone y).state = .clear ∨ (s.zone y).state = .enabling) :=
          List.filter_congr fun a _ => by
            rw [← Bool.decide_coe (List.all _ _), decide_eq_decide, List.all_eq_true]
            refine forall_congr' fun y => forall_congr' fun _ => ?_
            show (s.zone y).state.releasesCranes = true ↔ _
            cases (s.zone y).state <;> simp [ZoneState.releasesCranes]
        unfold State.faultUnready
        dsimp only
        rw [if_pos asleep, free]
  · exact ⟨_, zoneTo_goes ht.zones.1 fun r => { r with state := .clear, cause := none, timer := none }, becomeClear_eq⟩
  · refine ⟨s.admittedAt st, _, admittedAt_perm, admittedAt_sorted, rfl, ?_⟩
    have fronts : ((s.admittedAt st).flatMap Order.atFront).map (frontEntry s st) = _ :=
      List.map_flatMap.trans (congrArg (List.flatMap · (s.admittedAt st)) (funext (atFront_map s st)))
    have some : decide ((s.admittedAt st).flatMap Order.atFront ≠ []) =
        decide (((s.admittedAt st).flatMap Order.atFront).map (frontEntry s st) ≠ []) := by simp
    unfold State.stationOpen State.windowPass
    dsimp only
    rw [forEach_toUpLeg, some, fronts]
    rfl
  · intro counted clears
    have each (hc : clears) : ∀ a, a < 12 → z ∈ (s.aisle a).zones → s.counted a = true → (s.crane a).state = .ready := by
      obtain ⟨-, -, -, ready⟩ := hc
      intro a hl hz hc
      obtain ⟨address, drive, state⟩ := counted_of_drive.2 hc
      exact ready a ⟨hl, hz, address, drive, state⟩
    refine ⟨fun h => ?_, fun h => ?_, fun ht => ?_⟩
    · have ready := each h
      obtain ⟨enabling, mode, running, -⟩ := h
      exact readyTest_clears ⟨enabling, mode, running⟩ ready
    · refine readyTest_stays fun ⟨enabling, mode, running, ready⟩ => h ⟨enabling, mode, running, fun a ha => ?_⟩
      obtain ⟨hl, hz, address, drive, state⟩ := ha
      exact ready a hl hz (counted_of_drive.1 ⟨address, drive, state⟩)
    · obtain ⟨u, goes, enters, -⟩ := (Rezoned.refl z ht.zones.1).closes
      exact ⟨u, goes, enters⟩

end Sys2Proof.Machine
end

section
/-! PROOF (O56). The functions of the lines, their values, and what follows a change at a local line (R155, R161, R165, R166,
R175 to R181). -/

namespace Sys2Proof.Machine

/-! ## Functions and values -/

theorem lineFunction_first_zones {z : Nat} (h : z < 8) :
    lineFunction z .first = .zoneAlarm z ∧ lineFunction (8 + z) .first = .shutterClose z ∧
      lineFunction (16 + z) .first = .shutterClosed z ∧ lineFunction (24 + z) .first = .shutterOpen z := by
  refine ⟨if_pos h, ?_, ?_, ?_⟩
  · simp only [lineFunction, if_neg (show ¬ 8 + z < 8 by omega), if_pos (show 8 + z < 16 by omega), Nat.add_sub_cancel_left]
  · simp only [lineFunction, if_neg (show ¬ 16 + z < 8 by omega), if_neg (show ¬ 16 + z < 16 by omega),
      if_pos (show 16 + z < 24 by omega), Nat.add_sub_cancel_left]
  · simp only [lineFunction, if_neg (show ¬ 24 + z < 8 by omega), if_neg (show ¬ 24 + z < 16 by omega),
      if_neg (show ¬ 24 + z < 24 by omega), if_pos (show 24 + z < 32 by omega), Nat.add_sub_cancel_left]

theorem lineFunction_second_zones {z : Nat} (h : z < 8) :
    lineFunction z .second = .callKey ∧ lineFunction (8 + z) .second = .beacon ∧
      lineFunction (16 + z) .second = .callKey ∧ lineFunction (24 + z) .second = .callKey := by
  refine ⟨if_pos h, ?_, ?_, ?_⟩
  · simp only [lineFunction, if_neg (show ¬ 8 + z < 8 by omega), if_pos (show 8 + z < 16 by omega)]
  · simp only [lineFunction, if_neg (show ¬ 16 + z < 8 by omega), if_neg (show ¬ 16 + z < 16 by omega),
      if_pos (show 16 + z < 32 by omega)]
  · simp only [lineFunction, if_neg (show ¬ 24 + z < 8 by omega), if_neg (show ¬ 24 + z < 16 by omega),
      if_pos (show 24 + z < 32 by omega)]

theorem lineFunction_aisles {a : Nat} (h : a < 12) :
    lineFunction (32 + a) .first = .driveEnable a ∧ lineFunction (32 + a) .second = .beacon := by
  refine ⟨?_, ?_⟩
  · simp only [lineFunction, if_neg (show ¬ 32 + a < 8 by omega), if_neg (show ¬ 32 + a < 16 by omega),
      if_neg (show ¬ 32 + a < 24 by omega), if_neg (show ¬ 32 + a < 32 by omega), if_pos (show 32 + a < 44 by omega),
      Nat.add_sub_cancel_left]
  · simp only [lineFunction, if_neg (show ¬ 32 + a < 8 by omega), if_neg (show ¬ 32 + a < 16 by omega),
      if_neg (show ¬ 32 + a < 32 by omega), if_pos (show 32 + a < 44 by omega)]

theorem lineFunction_spare {k : Nat} : lineFunction (44 + k) .first = .beacon ∧ lineFunction (44 + k) .second = .callKey := by
  refine ⟨?_, ?_⟩
  · simp only [lineFunction, if_neg (show ¬ 44 + k < 8 by omega), if_neg (show ¬ 44 + k < 16 by omega),
      if_neg (show ¬ 44 + k < 24 by omega), if_neg (show ¬ 44 + k < 32 by omega), if_neg (show ¬ 44 + k < 44 by omega)]
  · simp only [lineFunction, if_neg (show ¬ 44 + k < 8 by omega), if_neg (show ¬ 44 + k < 16 by omega),
      if_neg (show ¬ 44 + k < 32 by omega), if_neg (show ¬ 44 + k < 44 by omega)]

theorem LineFunction.input_iff (f : LineFunction) : f.input = true ↔ f = .generalIn ∨ f = .callKey ∨
    ∃ z, f = .zoneAlarm z ∨ f = .shutterClosed z ∨ f = .shutterOpen z := by
  cases f <;> simp [LineFunction.input]

theorem LineFunction.fire_iff (f : LineFunction) : f.fire = true ↔ ∃ k, f = .zoneAlarm k ∨ f = .shutterClose k ∨
    f = .shutterClosed k ∨ f = .shutterOpen k ∨ f = .driveEnable k := by
  cases f <;> simp [LineFunction.fire]

section
variable {s : State} {n : Nat}

theorem keyPressed_iff : s.keyPressed n = true ↔ s.function n = .callKey ∧ s.lineValue n = true := by
  simp [State.keyPressed]

theorem Polarity.apply_iff (p : Polarity) (level : Bool) : p.apply level = true ↔ (p = .activeHigh ↔ level = true) := by
  cases p <;> cases level <;> decide

theorem lineValue_input (h : (s.function n).input = true) :
    s.lineValue n = true ↔ ((s.line n).polarity = .activeHigh ↔ (s.line n).pin = true) := by
  rw [State.lineValue, if_pos h, Polarity.apply_iff]

theorem lineValue_output (h : (s.function n).input = false) : s.lineValue n = s.driven n := if_neg (by simp [h])

/-- A line's value is read off its record and the kept levels. -/
theorem lineValue_congr {t : State} (ho : t.outputs = s.outputs) (hs : (t.line n).selection = (s.line n).selection)
    (hp : (t.line n).polarity = (s.line n).polarity) (hn : (t.line n).pin = (s.line n).pin)
    (hv : (t.line n).output = (s.line n).output) : t.function n = s.function n ∧ t.lineValue n = s.lineValue n := by
  have function : t.function n = s.function n := congrArg (lineFunction n) hs
  refine ⟨function, ?_⟩
  simp only [State.lineValue, State.driven, function, ho, hp, hn, hv]

end

/-! ## Sampling -/

section
variable {s : State} {n : Nat}

/-- The pin of a line floats: it is unwired, in a group without a pull (R177). -/
abbrev State.pinFloats (s : State) (n : Nat) : Prop := (s.line n).wiring = .unwired ∧ s.pull (n / 4) = .none

/-- The level found at the pin of an input line (R177). -/
def State.sampled (s : State) (n : Nat) : Bool :=
  match (s.line n).wiring with
  | .high => true
  | .low => false
  | .unwired =>
    match s.pull (n / 4) with
    | .up => true
    | .down => false
    | .none => Config.floatingPin s.floats

theorem samplePin_output (h : (s.function n).input = false) : s.samplePin n = s := if_neg (by simp [h])

theorem samplePin_input (h : (s.function n).input = true) : s.samplePin n =
    { s.modLine n (fun r => { r with pin := s.sampled n }) with
      floats := if s.pinFloats n then s.floats + 1 else s.floats } := by
  unfold State.samplePin State.sampled State.pinFloats
  rw [if_pos h]
  cases hw : (s.line n).wiring with
  | high => rfl
  | low => rfl
  | unwired =>
    cases hp : s.pull (n / 4) with
    | up => rfl
    | down => rfl
    | none => rfl

end

/-! ## Call keys -/

section
variable {s : State} {n : Nat} {before : Bool}

/-- The call-key timer of a line after a change (R181). -/
def State.keySettled (s : State) (n : Nat) (before : Bool) : Option Nat :=
  if s.keyPressed n = true then if before = true then (s.line n).keyTimer else some (s.now + 50) else none

theorem settleKey_line (hw : s.lines.lines.wf) (k : Nat) : (s.settleKey n before).line k =
    if k = n then { s.line n with keyTimer := s.keySettled n before } else s.line k := by
  have kept (h : s.keySettled n before = (s.line n).keyTimer) : s.line k =
      if k = n then { s.line n with keyTimer := s.keySettled n before } else s.line k := by
    rw [h]
    split
    · next hk => rw [hk]
    · rfl
  unfold State.settleKey
  split
  · next hp =>
    split
    · next hb => exact kept (by rw [State.keySettled, if_pos hp, if_pos hb])
    · next hb =>
      rw [State.modLine_line _ _ _ _ hw, State.keySettled, if_pos hp, if_neg hb]
      rfl
  · next hp =>
    split
    · rw [State.modLine_line _ _ _ _ hw, State.keySettled, if_neg hp]
    · next ht => exact kept (by rw [State.keySettled, if_neg hp]; exact (Option.not_isSome_iff_eq_none.1 ht).symm)

theorem settleKey_rest : s.settleKey n before =
    { s with lines := { s.lines with lines := (s.settleKey n before).lines.lines } } := by
  unfold State.settleKey
  split
  · split <;> rfl
  · split <;> rfl

theorem settleKey_idle (h : if s.keyPressed n = true then before = true else (s.line n).keyTimer = none) :
    s.settleKey n before = s := by
  unfold State.settleKey
  split at h
  · next hp => rw [if_pos hp, if_pos h]
  · next hp =>
    rw [if_neg hp]
    exact if_neg (by simp [h])

/-- A call key's timer is read by no function and no value. -/
theorem settleKey_values (hw : s.lines.lines.wf) (k : Nat) : (s.settleKey n before).function k = s.function k ∧
    (s.settleKey n before).lineValue k = s.lineValue k ∧
    ((s.settleKey n before).line k).selection = (s.line k).selection := by
  have line := settleKey_line (n := n) (before := before) hw k
  have outputs : (s.settleKey n before).outputs = s.outputs := (congrArg State.outputs settleKey_rest).trans rfl
  have same : ((s.settleKey n before).line k).selection = (s.line k).selection ∧
      ((s.settleKey n before).line k).polarity = (s.line k).polarity ∧
      ((s.settleKey n before).line k).pin = (s.line k).pin ∧ ((s.settleKey n before).line k).output = (s.line k).output := by
    rw [line]
    split
    · next hk =>
      rw [hk]
      exact ⟨rfl, rfl, rfl, rfl⟩
    · exact ⟨rfl, rfl, rfl, rfl⟩
  obtain ⟨selection, polarity, pin, output⟩ := same
  obtain ⟨function, value⟩ := lineValue_congr outputs selection polarity pin output
  exact ⟨function, value, selection⟩

end

/-! ## Alarms -/

section
variable {s : State} {z : Nat}

theorem handAlarm_same (h : (s.zone z).alarm = s.alarmInput z) : State.handAlarm z s = s := if_pos h

theorem handAlarm_falls (ha : (s.zone z).alarm = true) (hl : s.alarmInput z = false) :
    State.handAlarm z s = s.modZone z fun r => { r with alarm := false, debounceTimer := none } := by
  unfold State.handAlarm
  dsimp only
  rw [if_neg (by simp [ha, hl]), if_neg (by simp [hl])]

theorem handAlarm_waits (ha : (s.zone z).alarm = false) (hl : s.alarmInput z = true) (hd : (s.zone z).debounce ≠ 0) :
    State.handAlarm z s = s.modZone z fun r => { r with alarm := true, debounceTimer := s.after r.debounce } := by
  unfold State.handAlarm
  dsimp only
  rw [if_neg (by simp [ha, hl]), if_pos hl, if_neg hd]

theorem handAlarm_shuts (ha : (s.zone z).alarm = false) (hl : s.alarmInput z = true) (hd : (s.zone z).debounce = 0) :
    State.handAlarm z s = (s.modZone z fun r => { r with alarm := true, debounceTimer := none }).shutdown z .alarm := by
  unfold State.handAlarm
  dsimp only
  rw [if_neg (by simp [ha, hl]), if_pos hl, if_pos hd]

end

/-! ## A change at a line -/

section
variable {s : State} {n : Nat} {before : Bool}

theorem lineChanged_alarm (h : n < 8) : s.lineChanged n before = State.handAlarm n (s.settleKey n before) := if_pos h

section
variable (hw : s.lines.lines.wf)
include hw

theorem lineChanged_closed (h1 : 16 ≤ n) (h2 : n < 24) (hs : (s.line n).selection = .first) :
    s.lineChanged n before = State.feedback (n - 16) (s.settleKey n before) := by
  have first : (s.settleKey n before).selectedFirst n = true := by
    rw [selectedFirst_iff, (settleKey_values hw n).2.2, hs]
  unfold State.lineChanged
  dsimp only
  rw [if_neg (by omega), if_pos ⟨h1, h2, first⟩]

theorem lineChanged_open (h1 : 24 ≤ n) (h2 : n < 32) (hs : (s.line n).selection = .first) :
    s.lineChanged n before = State.feedback (n - 24) (s.settleKey n before) := by
  have first : (s.settleKey n before).selectedFirst n = true := by
    rw [selectedFirst_iff, (settleKey_values hw n).2.2, hs]
  unfold State.lineChanged
  dsimp only
  rw [if_neg (by omega), if_neg (by omega), if_pos ⟨h1, h2, first⟩]

theorem lineChanged_other (h : 8 ≤ n) (hs : ¬ (16 ≤ n ∧ n < 32 ∧ (s.line n).selection = .first)) :
    s.lineChanged n before = s.settleKey n before := by
  have first (hf : (s.settleKey n before).selectedFirst n = true) : (s.line n).selection = .first := by
    rw [selectedFirst_iff, (settleKey_values hw n).2.2] at hf
    exact hf
  unfold State.lineChanged
  dsimp only
  rw [if_neg (by omega), if_neg fun ⟨h1, h2, hf⟩ => hs ⟨h1, by omega, first hf⟩,
    if_neg fun ⟨h1, h2, hf⟩ => hs ⟨by omega, h2, first hf⟩]

end

theorem closedSeen_iff (s : State) (z : Nat) :
    s.closedSeen z = true ↔ (s.line (16 + z)).selection = .first ∧ s.lineValue (16 + z) = true := by
  simp [State.closedSeen, State.selectedFirst]

theorem openSeen_iff (s : State) (z : Nat) :
    s.openSeen z = true ↔ (s.line (24 + z)).selection = .first ∧ s.lineValue (24 + z) = true := by
  simp [State.openSeen, State.selectedFirst]

end

section
variable {s : State} {z : Nat}

theorem feedback_closes (h : (s.zone z).state = .closing) (hs : s.closedSeen z = true) :
    State.feedback z s = s.zoneTo z fun r => { r with state := .sealed, timer := none } := by
  unfold State.feedback
  rw [h]
  exact if_pos hs

theorem feedback_opens (h : (s.zone z).state = .opening) (hs : s.openSeen z = true) :
    State.feedback z s = s.enterEnabling z := by
  unfold State.feedback
  rw [h]
  exact if_pos hs

theorem feedback_waits (h1 : ¬ ((s.zone z).state = .closing ∧ s.closedSeen z = true))
    (h2 : ¬ ((s.zone z).state = .opening ∧ s.openSeen z = true)) : State.feedback z s = s := by
  unfold State.feedback
  split
  · next h => exact if_neg fun hx => h1 ⟨h, hx⟩
  · next h => exact if_neg fun hx => h2 ⟨h, hx⟩
  · rfl

end

/-- Settles O56. -/
theorem linesTakeTheirInputs : Obligations.LinesTakeTheirInputs := by
  refine ⟨?_, fun f => ⟨f.input_iff, f.fire_iff⟩, fun s n => ?_, fun s n w ht => ?_, fun s n before ht => ?_,
    fun s z ht => ?_, fun s n hr ht => ?_⟩
  · intro first second
    refine ⟨fun n => ⟨rfl, rfl⟩, fun z hz => ?_, fun a ha => lineFunction_aisles ha, fun k hk => lineFunction_spare⟩
    obtain ⟨f0, f1, f2, f3⟩ := lineFunction_first_zones hz
    obtain ⟨s0, s1, s2, s3⟩ := lineFunction_second_zones hz
    exact ⟨f0, f1, f2, f3, s0, s1, s2, s3⟩
  · intro l f value
    have output {g : LineFunction} (h : f = g) (hg : g.input = false) : value = s.driven n :=
      lineValue_output (by rw [show s.function n = g from h]; exact hg)
    have driven {g : LineFunction} (h : f = g) : s.function n = g := h
    refine ⟨rfl, keyPressed_iff, fun h => lineValue_input h, fun h => ?_, fun z h => ?_, fun a h => ?_, fun h => ?_⟩
    · rw [output h rfl, State.driven, driven h]
    · rw [output h rfl, State.driven, driven h]
      exact decide_eq_true_iff
    · rw [output h rfl, State.driven, driven h]
      exact decide_eq_true_iff
    · rw [output h rfl, State.driven, driven h]
  · intro c l floats level
    have wired := s.modLine_line n
    refine ⟨fun hr => ⟨s.setWiring n w, fun k => wired k _ ht.lines.1, rfl, if_neg hr⟩, fun hr => ?_⟩
    have wire (k : Nat) : (s.beginEvent.setWiring n w).line k = if k = n then { l with wiring := w } else s.line k :=
      wired k (fun r => { r with wiring := w }) ht.lines.1
    have own : (s.beginEvent.setWiring n w).line n = { l with wiring := w } := by rw [wire, if_pos rfl]
    obtain ⟨function, value⟩ := lineValue_congr (s := s) (t := s.beginEvent.setWiring n w) (n := n) rfl (by rw [own])
      (by rw [own]) (by rw [own]) (by rw [own])
    have key : (s.beginEvent.setWiring n w).keyPressed n = s.keyPressed n := by
      rw [State.keyPressed, State.keyPressed, function, value]
    have sampled : (s.beginEvent.setWiring n w).sampled n = level := by
      unfold State.sampled
      rw [own]
      rfl
    have floating : (s.beginEvent.setWiring n w).pinFloats n ↔ floats := by
      unfold State.pinFloats
      rw [own]
      rfl
    refine ⟨(s.beginEvent.setWiring n w).samplePin n, fun k => ?_, ?_, ?_⟩
    · cases hi : (s.function n).input with
      | false => rw [samplePin_output (by rw [function, hi]), wire]; rfl
      | true =>
        rw [samplePin_input (by rw [function, hi]), sampled]
        refine (State.modLine_line _ n k (fun r => { r with pin := level })
          (Tab.wf_set _ _ _ _ ht.lines.1)).trans ?_
        rw [own, wire]
        split <;> rfl
    · cases hi : (s.function n).input with
      | false => rw [samplePin_output (by rw [function, hi])]; rfl
      | true =>
        rw [samplePin_input (by rw [function, hi])]
        simp only [floating, true_and]
        rfl
    · rw [← key]
      exact if_pos hr
  · intro l r pressed level
    have hw := ht.lines.1
    have settled : s.keySettled n before =
        if ¬ pressed then none else if before = true then l.keyTimer else some (s.now + 50) := by
      unfold State.keySettled
      by_cases h : pressed
      · rw [if_pos (keyPressed_iff.2 h), if_neg (not_not.2 h)]
      · rw [if_neg fun hx => h (keyPressed_iff.1 hx), if_pos h]
    have zone (k : Nat) : (s.settleKey n before).zone k = s.zone k :=
      (congrArg (fun v : State => v.zone k) settleKey_rest).trans rfl
    have now : (s.settleKey n before).now = s.now := (congrArg State.now settleKey_rest).trans rfl
    have wf : (s.settleKey n before).zones.wf := by
      rw [settleKey_rest]
      exact ht.zones.1
    have rezoned (f : Zone → Zone) (k : Nat) :
        ((s.settleKey n before).modZone n f).zone k = if k = n then f r else s.zone k := by
      rw [State.modZone_zone _ _ _ _ wf, zone, zone]
    have input : (s.settleKey n before).alarmInput n = true ↔ level := by
      rw [alarmInput_iff, (settleKey_values hw n).2.1, (settleKey_values hw n).2.2]
    refine ⟨s.settleKey n before, fun k => ?_, settleKey_rest, fun h => ?_,
      ⟨fun hn hl => ?_, fun hn ha hl => ?_, fun hn ha hl hd => ?_, fun hn ha hl hd => ?_⟩,
      fun h1 h2 hs => lineChanged_closed hw h1 h2 hs, fun h1 h2 hs => lineChanged_open hw h1 h2 hs,
      fun h1 hs => lineChanged_other hw h1 hs⟩
    · rw [← settled]
      exact settleKey_line hw k
    · refine settleKey_idle ?_
      by_cases hp : pressed
      · rw [if_pos hp] at h
        rwa [if_pos (keyPressed_iff.2 hp)]
      · rw [if_neg hp] at h
        rwa [if_neg fun hx => hp (keyPressed_iff.1 hx)]
    · rw [lineChanged_alarm hn, handAlarm_same]
      rw [zone, Bool.eq_iff_iff, input]
      exact hl
    · exact ⟨_, rezoned fun r => { r with alarm := false, debounceTimer := none }, rfl, (lineChanged_alarm hn).trans
        (handAlarm_falls (by rw [zone]; exact ha) (Bool.eq_false_iff.2 fun hx => hl (input.1 hx)))⟩
    · have timer : (s.settleKey n before).after r.debounce = some (s.now + r.debounce) := by rw [State.after, now]
      have runs := rezoned fun r => { r with alarm := true, debounceTimer := (s.settleKey n before).after r.debounce }
      rw [timer] at runs
      exact ⟨_, runs, rfl, (lineChanged_alarm hn).trans
        (handAlarm_waits (by rw [zone]; exact ha) (input.2 hl) (by rw [zone]; exact hd))⟩
    · exact ⟨_, rezoned fun r => { r with alarm := true, debounceTimer := none }, rfl, (lineChanged_alarm hn).trans
        (handAlarm_shuts (by rw [zone]; exact ha) (input.2 hl) (by rw [zone]; exact hd))⟩
  · intro r seen
    refine ⟨fun h hs => ?_, fun h hs => ?_, fun h1 h2 => ?_⟩
    · exact ⟨_, zoneTo_goes ht.zones.1 _, feedback_closes h ((closedSeen_iff s z).2 hs)⟩
    · exact ⟨_, zoneTo_goes ht.zones.1 fun r => { r with state := .enabling, timer := s.after r.readyLimit },
        feedback_opens h ((openSeen_iff s z).2 hs)⟩
    · exact feedback_waits (fun ⟨h, hs⟩ => h1 ⟨h, (closedSeen_iff s z).1 hs⟩) fun ⟨h, hs⟩ => h2 ⟨h, (openSeen_iff s z).1 hs⟩
  · intro c
    refine ⟨fun h => event_idle hr (if_neg (by rw [show s.beginEvent.line n = s.line n from rfl, h]; exact nofun)), fun h => ?_⟩
    have expires := event_ends (body := fun s => if (s.line n).keyTimer.isSome then
        let t := s.modLine n fun r => { r with keyTimer := none }
        if t.params.callKeyInhibit then t else t.notice (.callKey n)
      else s) hr (if_pos (Option.isSome_iff_ne_none.2 h))
    have line (k : Nat) := s.modLine_line n k (fun r => { r with keyTimer := none }) ht.lines.1
    by_cases hi : s.params.callKeyInhibit = true
    · refine ⟨s.beginEvent.modLine n fun r => { r with keyTimer := none }, line, ?_, ?_⟩
      · rw [if_pos hi]
        rfl
      · refine expires.trans ?_
        rw [State.eventEnds, if_pos (show (s.beginEvent.modLine n fun r => { r with keyTimer := none }).params.callKeyInhibit =
          true from hi)]
        exact congrArg (fun u => Host.Outcome.next (s.closeEvent u none)) (settle_idle _ rfl)
    · refine ⟨(s.beginEvent.modLine n fun r => { r with keyTimer := none }).notice (.callKey n), line, ?_, ?_⟩
      · rw [if_neg hi]
        rfl
      · refine expires.trans ?_
        rw [State.eventEnds, if_neg (show ¬ (s.beginEvent.modLine n fun r => { r with keyTimer := none }).params.callKeyInhibit =
          true from hi)]
        exact congrArg (fun u => Host.Outcome.next (s.closeEvent u none)) (settle_idle _ rfl)

end Sys2Proof.Machine
end

section
/-! PROOF (O30). LINE WRITE and PULL WRITE of one entry (R111, R177, R178). -/

namespace Sys2Proof.Machine

/-! ## WRITEs that may shut zones -/

section
variable {α : Type} {s u : State} {tag : BitVec 16} {size i : Nat} {apply : Nat → α → State → Judged} {e : α} {r : Reason}

/-- No lift held back, none barred. -/
theorem barHeld_held (h : s.work.bars = none) : s.holdBars.barHeld = s := by
  have none : (allLifts.filter fun l => decide (l ∈ ([] : List Nat))) = [] := by simp
  unfold State.barHeld State.holdBars
  dsimp only [State.modWork]
  rw [none, if_pos rfl, ← h]

theorem writeBarring_refused (hr : s.running) (hi : i < size) (h : apply i e s.beginEvent.holdBars = .inr r) :
    s.writeBarring tag size apply i [e] = .next (s.onlyAnswers (noneApplied tag r)) := by
  refine request_answers (a := fun _ => noneApplied tag r) hr ?_
  rw [writeEntries, if_neg (Nat.not_le.2 hi), h]
  exact Prod.ext (barHeld_held rfl) (funext fun _ => answer_noneApplied _ _ _)

theorem writeBarring_ends (hr : s.running) (hi : i < size) (h : apply i e s.beginEvent.holdBars = .inl (u, [])) :
    s.writeBarring tag size apply i [e] = .next (s.requestEnds u.barHeld (oneApplied tag i [])) := by
  refine request_ends (a := fun _ => oneApplied tag i []) hr ?_
  rw [writeEntries, if_neg (Nat.not_le.2 hi), h]
  simp only [writeEntries, List.append_nil]
  exact Prod.ext rfl (funext fun _ => answer_oneApplied (by decide))

theorem writeBarring_answers (hr : s.running) (hi : i < size)
    (h : apply i e s.beginEvent.holdBars = .inl (s.beginEvent.holdBars, [])) :
    s.writeBarring tag size apply i [e] = .next (s.onlyAnswers (oneApplied tag i [])) := by
  refine request_answers (a := fun _ => oneApplied tag i []) hr ?_
  rw [writeEntries, if_neg (Nat.not_le.2 hi), h]
  simp only [writeEntries, List.append_nil]
  exact Prod.ext (barHeld_held rfl) (funext fun _ => answer_oneApplied (by decide))

end

/-! ## LINE -/

section
variable {s : State} {n : Nat} {e : LineEntry} {sel : Selection} {pol : Polarity} {out : Bool}

/-- The selection, the polarity and the output that an entry in range names (R175, R176). -/
theorem lineCodes_some (h : ¬ (3 < e.selection ∨ 1 < e.polarity ∨ 1 < e.output)) :
    selectionOf e.selection = some (if e.selection = 0 then .generalIn else if e.selection = 1 then .generalOut
      else if e.selection = 2 then .first else .second) ∧
    polarityOf e.polarity = some (if e.polarity = 0 then .activeHigh else .activeLow) ∧
    levelOf e.output = some (decide (e.output = 0)) := by
  obtain ⟨hs, hp, ho⟩ : e.selection ≤ 3 ∧ e.polarity ≤ 1 ∧ e.output ≤ 1 := by omega
  refine ⟨?_, ?_, ?_⟩
  · interval_cases e.selection <;> rfl
  · interval_cases e.polarity <;> rfl
  · interval_cases e.output <;> rfl

theorem lineCodes_none (h : 3 < e.selection ∨ 1 < e.polarity ∨ 1 < e.output) :
    selectionOf e.selection = none ∨ polarityOf e.polarity = none ∨ levelOf e.output = none := by
  obtain h | h | h := h
  · obtain ⟨k, hk⟩ : ∃ k, e.selection = k + 4 := ⟨_, (Nat.sub_add_cancel h).symm⟩
    exact .inl (by rw [hk]; rfl)
  · obtain ⟨k, hk⟩ : ∃ k, e.polarity = k + 2 := ⟨_, (Nat.sub_add_cancel h).symm⟩
    exact .inr (.inl (by rw [hk]; rfl))
  · obtain ⟨k, hk⟩ : ∃ k, e.output = k + 2 := ⟨_, (Nat.sub_add_cancel h).symm⟩
    exact .inr (.inr (by rw [hk]; rfl))

theorem judgeLine_malformed (h : 3 < e.selection ∨ 1 < e.polarity ∨ 1 < e.output) :
    judgeLine n e s = .inr .valueRange := by
  unfold judgeLine
  obtain h | h | h := lineCodes_none h
  · rw [h]
  · rw [h]
    cases selectionOf e.selection <;> rfl
  · rw [h]
    cases selectionOf e.selection <;> cases polarityOf e.polarity <;> rfl

theorem judgeLine_formed (hs : selectionOf e.selection = some sel) (hp : polarityOf e.polarity = some pol)
    (ho : levelOf e.output = some out) : judgeLine n e s =
      if s.lineBusy n sel pol then .inr .zoneBusy else .inl (s.applyLine n sel pol out, []) := by
  unfold judgeLine
  rw [hs, hp, ho]

/-- The unit that a function names is CLEAR, or it names none (R178). -/
def FireUnitClear (s : State) (f : LineFunction) : Prop :=
  match f with
  | .zoneAlarm z => (s.zone z).state = .clear
  | .shutterClose z => (s.zone z).state = .clear
  | .shutterClosed z => (s.zone z).state = .clear
  | .shutterOpen z => (s.zone z).state = .clear
  | .driveEnable a => ∀ z ∈ (s.aisle a).zones, (s.zone z).state = .clear
  | .generalIn => True
  | .generalOut => True
  | .callKey => True
  | .beacon => True

theorem fireUnitClear_iff (f : LineFunction) : s.fireUnitClear f = true ↔ FireUnitClear s f := by
  cases f <;> simp [State.fireUnitClear, FireUnitClear, State.zoneClear, State.aisleClear]

theorem lineBusy_iff : s.lineBusy n sel pol = true ↔
    ((s.function n).fire = true ∨ (lineFunction n sel).fire = true) ∧
    (s.function n ≠ lineFunction n sel ∨ pol ≠ (s.line n).polarity) ∧
    ¬ (s.mode.mode = .quiet ∧ FireUnitClear s (s.function n) ∧ FireUnitClear s (lineFunction n sel)) := by
  simp only [State.lineBusy, Bool.and_eq_true, Bool.or_eq_true, decide_eq_true_eq, Bool.not_eq_true', ← Bool.not_eq_true,
    fireUnitClear_iff, and_assoc]

end

/-! ## PULL -/

section
variable {s : State} {g v : Nat}

theorem pullOf_some (h : v ≤ 2) : pullOf v = some (if v = 0 then .none else if v = 1 then .up else .down) := by
  interval_cases v <;> rfl

theorem pullOf_none (h : 2 < v) : pullOf v = none := by
  obtain ⟨k, hk⟩ : ∃ k, v = k + 3 := ⟨_, (Nat.sub_add_cancel h).symm⟩
  rw [hk]
  rfl

/-- A line of the group carries a fire input of the zone (R177). -/
def FireInput (s : State) (g z : Nat) : Prop := ∃ n, 4 * g ≤ n ∧ n < 4 * g + 4 ∧
  (s.function n = .zoneAlarm z ∨ s.function n = .shutterClosed z ∨ s.function n = .shutterOpen z)

theorem mem_groupLines {n : Nat} : n ∈ groupLines g ↔ 4 * g ≤ n ∧ n < 4 * g + 4 := by
  simp only [groupLines, List.mem_cons, List.not_mem_nil, or_false]
  omega

theorem fireInputZone_iff (f : LineFunction) (z : Nat) :
    f.fireInputZone = some z ↔ f = .zoneAlarm z ∨ f = .shutterClosed z ∨ f = .shutterOpen z := by
  cases f <;> simp [LineFunction.fireInputZone]

theorem mem_fireInputs {z : Nat} :
    z ∈ ((groupLines g).filterMap fun n => (s.function n).fireInputZone) ↔ FireInput s g z := by
  simp only [List.mem_filterMap, mem_groupLines, fireInputZone_iff, FireInput, and_assoc]

theorem pullBusy_iff : s.pullBusy g = true ↔
    (∃ z, FireInput s g z) ∧ ¬ (s.mode.mode = .quiet ∧ ∀ z, FireInput s g z → (s.zone z).state = .clear) := by
  have some : ((groupLines g).filterMap fun n => (s.function n).fireInputZone) ≠ [] ↔ ∃ z, FireInput s g z := by
    simp only [← mem_fireInputs]
    exact ⟨List.exists_mem_of_ne_nil _, fun ⟨z, hz⟩ => List.ne_nil_of_mem hz⟩
  have clear : (((groupLines g).filterMap fun n => (s.function n).fireInputZone).all s.zoneClear) = true ↔
      ∀ z, FireInput s g z → (s.zone z).state = .clear := by
    simp only [List.all_eq_true, mem_fireInputs, State.zoneClear, decide_eq_true_eq]
  simp only [State.pullBusy, Bool.and_eq_true, Bool.not_eq_true', ← Bool.not_eq_true, clear, decide_eq_true_eq,
    List.isEmpty_iff, some]

end

/-- Settles O30. -/
theorem lineAndPullWrite : Obligations.LineAndPullWrite := by
  refine ⟨fun s tag i e hr ht hi => ?_, fun s tag i v hr ht hi => ?_, fun s n ht => ?_⟩
  · intro n refused malformed sel pol before after clear busy
    have line (k : Nat) := s.modLine_line n k
      (fun r => { r with selection := sel, polarity := pol, output := decide (e.output = 0) }) ht.lines.1
    refine ⟨fun h => writeBarring_refused hr hi (judgeLine_malformed h), fun h hb => ?_, fun h hb => ?_⟩
    · obtain ⟨hs, hp, ho⟩ := lineCodes_some h
      refine writeBarring_refused hr hi ((judgeLine_formed hs hp ho).trans (if_pos ?_))
      exact lineBusy_iff.2 hb
    · obtain ⟨hs, hp, ho⟩ := lineCodes_some h
      refine ⟨s.beginEvent.holdBars.modLine n fun r =>
        { r with selection := sel, polarity := pol, output := decide (e.output = 0) }, line, rfl, ?_⟩
      refine writeBarring_ends hr hi ((judgeLine_formed hs hp ho).trans ((if_neg ?_).trans ?_))
      · exact fun hx => hb (lineBusy_iff.1 hx)
      · rfl
  · intro g refused p fireInput busy
    have pull (k : Nat) := s.setPull_pull g k p ht.pulls.1
    have formed (h : v ≤ 2) : judgePull g v s.beginEvent.holdBars =
        if p = s.pull g then .inl (s.beginEvent.holdBars, [])
        else if s.beginEvent.holdBars.pullBusy g then .inr .zoneBusy
        else .inl (forEach (groupLines g) State.repull (s.beginEvent.holdBars.setPull g p), []) := by
      unfold judgePull
      rw [pullOf_some h]
      rfl
    refine ⟨fun h => ?_, fun h hp => ?_, fun h hp hb => ?_, fun h hp hb => ?_⟩
    · refine writeBarring_refused hr hi ?_
      unfold judgePull
      rw [pullOf_none h]
    · exact writeBarring_answers hr hi ((formed h).trans (if_pos hp))
    · exact writeBarring_refused hr hi ((formed h).trans ((if_neg hp).trans (if_pos (pullBusy_iff.2 hb))))
    · exact ⟨s.beginEvent.holdBars.setPull g p, pull, rfl, writeBarring_ends hr hi
        ((formed h).trans ((if_neg hp).trans (if_neg fun hx => hb (pullBusy_iff.1 hx))))⟩
  · intro floats level
    refine ⟨samplePin_output, fun h => ⟨s.samplePin n, fun k => ?_, ?_, rfl⟩⟩
    · rw [samplePin_input h]
      exact s.modLine_line n k (fun r => { r with pin := level }) ht.lines.1
    · rw [samplePin_input h]
      rfl

end Sys2Proof.Machine
end

section
/-! PROOF (O58). RESTART, and the beginning of every reset (R7, R183, R191 to R193). -/

namespace Sys2Proof.Machine

/-! ## RESTART -/

section
variable {s : State} {tag : BitVec 16}

/-- The ANSWER to RESTART as it is queued (R191). -/
abbrev restartAnswer (tag : BitVec 16) : Queued := (Answer.done tag.toNat 7).queued

/-- RESTART hands over its ANSWER and nothing else (R191). -/
theorem answerRestart_eq (hr : s.running) :
    s.answerRestart tag = State.handUp (restartAnswer tag) { s with work := Work.empty } := by
  have outputs : outputsAfter s s.beginEvent = s.outputs := if_pos ⟨rfl, rfl, rfl, hr⟩
  have resets : { s.resets with phase := .running } = s.resets := by rw [← show s.resets.phase = .running from hr]
  have leaves : s.eventLeaves s.beginEvent = { s with work := Work.empty } := by
    unfold State.eventLeaves
    rw [outputs]
    show { s with work := Work.empty, resets := { s.resets with phase := .running } } = _
    rw [resets]
  have closes : s.answerRestart tag = s.closeEvent s.beginEvent.settle (some (.done tag.toNat 7)) := rfl
  rw [closes, settle_beginEvent, State.closeEvent, leaves]
  rfl

theorem restart_suspends (hr : s.running) (h : s.ports.uQueue.length < 64 ∨ (dropNewest s.ports.uQueue).isSome = true) :
    exec (.restart tag) s = .next (State.handUp (restartAnswer tag) { s with work := Work.empty }).suspend := by
  rw [← answerRestart_eq hr]
  exact (if_pos hr).trans (congrArg Host.Outcome.next (if_pos h))

theorem restart_resets (hr : s.running) (h : ¬ (s.ports.uQueue.length < 64 ∨ (dropNewest s.ports.uQueue).isSome = true)) :
    exec (.restart tag) s =
      exec .commandReset (State.handUp (restartAnswer tag) { s with work := Work.empty }).suspend := by
  rw [← answerRestart_eq hr]
  exact (if_pos hr).trans (congrArg Host.Outcome.next (if_neg h))

/-- A telegram handed to a U send queue that discards one (R7). -/
theorem handUp_full {x : Queued} {q : List Queued} (h : enqueue s.ports.uQueue x = (q, true)) :
    State.handUp x s = (s.modPorts fun p => { p with uQueue := q }).raise 10 := by
  show (s.modPorts fun p => { p with uQueue := (enqueue s.ports.uQueue x).1 }).raiseIf (enqueue s.ports.uQueue x).2 10 = _
  rw [h]
  rfl

/-- Suspending leaves what was counted (R191). -/
theorem counted_suspend (h : s.link.counters.wf) (i : Nat) : Counted s.suspend (s.raise i).suspend i := by
  obtain ⟨-, others, own⟩ := counted_raise h i
  exact ⟨rfl, others, own⟩

theorem enqueue_displaces {before after_ : List Queued} {last x : Queued} (hn : (before ++ last :: after_).length = 64)
    (hx : x.cls.discardable = false) (hl : last.cls.discardable = true) (ha : ∀ q ∈ after_, q.cls.discardable = false) :
    enqueue (before ++ last :: after_) x = (before ++ after_ ++ [x], true) := by
  unfold enqueue
  rw [if_neg (by rw [hn]; exact Nat.lt_irrefl 64), hx, dropNewest_append hl ha]
  rfl

theorem enqueue_kept_only {q : List Queued} {x : Queued} (hn : q.length = 64) (hx : x.cls.discardable = false)
    (hq : ∀ y ∈ q, y.cls.discardable = false) : enqueue q x = (q, true) := by
  unfold enqueue
  rw [if_neg (by rw [hn]; exact Nat.lt_irrefl 64), hx, dropNewest_none hq]
  rfl

end

/-! ## The beginning of a reset -/

section
variable {s : State}

/-- A reset period has begun, Reset Control's record being `r` (R24, R183, R192). -/
def State.begun (s : State) (r : ResetControl) : State :=
  { s.untimed with
    ports := { uQueue := [], dQueue := [], noticeSeq := s.ports.noticeSeq, uLine := none, dLine := none }
    resets := r, outputs := { s.outputs with drives := [] } }

theorem count_raised (n : Nat) : min 255 (n + 1) = if n < 255 then n + 1 else 255 := by
  split <;> omega

theorem commandReset_begins (h : s.resets.phase = .restarting) : exec .commandReset s = .next (s.begun { s.resets with
    phase := .resetting, ending := some (s.now + 10)
    record := { s.resets.record with
      command := true, count := if s.resets.record.count < 255 then s.resets.record.count + 1 else 255 } }) := by
  rw [← count_raised]
  show execCommandReset s = _
  unfold execCommandReset
  rw [h]
  rfl

theorem commandReset_waits (h : s.resets.phase ≠ .restarting) : exec .commandReset s = .next s := by
  show execCommandReset s = _
  unfold execCommandReset
  cases hp : s.resets.phase with
  | restarting => exact absurd hp h
  | running => rfl
  | resetting => rfl
  | unpowered => rfl

theorem pinReset_unpowered (hl : s.resets.lineAsserted = false) (h : s.resets.phase = .unpowered) :
    exec .pinReset s = .next { s with resets := { s.resets with lineAsserted := true } } := by
  show execPinReset s = _
  unfold execPinReset
  rw [if_neg (by simp [hl]), h]
  rfl

theorem pinReset_begins (hl : s.resets.lineAsserted = false) (h : s.resets.phase ≠ .unpowered) :
    exec .pinReset s = .next (s.begun
      { phase := .resetting, lineAsserted := true, ending := none
        record := { s.resets.record with
          pin := true, count := if s.resets.record.count < 255 then s.resets.record.count + 1 else 255 } }) := by
  rw [← count_raised]
  show execPinReset s = _
  unfold execPinReset
  rw [if_neg (by simp [hl])]
  cases hp : s.resets.phase with
  | unpowered => exact absurd hp h
  | running => rfl
  | restarting => rfl
  | resetting => rfl

end

/-! ## The supply, and timers given up -/

section
variable {s : State}

theorem blank_line (ht : s.Tidy) (n : Nat) : s.blank.line n = { Line.powerOn with wiring := (s.line n).wiring } :=
  Tab.get_mapSet s.lines.lines Line.powerOn Line.repowered n ht.lines.1 rfl

theorem find_mapVals (t : Tab Order) (f : Order → Order) (hf : ∀ o, (f o).number = o.number) (n : Nat) :
    (((t.mapVals f).find? fun p => decide (p.2.number = n)).map (·.2)) =
      ((t.find? fun p => decide (p.2.number = n)).map (·.2)).map f := by
  unfold Tab.mapVals
  rw [List.find?_map, Option.map_map, Option.map_map]
  simp only [Function.comp_def, hf]

theorem untimed_order (n : Nat) : s.untimed.order n = (s.order n).map fun o => { o with gatherTimer := none } :=
  find_mapVals s.desk.orders (fun o => { o with gatherTimer := none }) (fun _ => rfl) n

end

/-- Settles O58. -/
theorem resetsBegin : Obligations.ResetsBegin := by
  refine ⟨fun s tag hr hq => ?_, fun s tag hr ht hq => ?_, fun s => ?_, fun s ht => ?_, fun s ht => ?_⟩
  · have room := handUp_room (restartAnswer tag) { s with work := Work.empty } hq
    exact (restart_suspends hr (.inl hq)).trans (congrArg (fun u : State => Host.Outcome.next u.suspend) room)
  · intro discardable
    have kept {q : Queued} (h : ¬ discardable q) : q.cls.discardable = false :=
      Bool.eq_false_iff.2 fun hx => h ((QueueClass.discardable_iff _).1 hx)
    refine ⟨fun before last after_ hu hl ha => ?_, fun hk => ?_⟩
    · have displaced : enqueue s.ports.uQueue (restartAnswer tag) = (before ++ after_ ++ [restartAnswer tag], true) := by
        rw [hu]
        exact enqueue_displaces (hu ▸ hq) rfl ((QueueClass.discardable_iff _).2 hl) fun q h => kept (ha q h)
      have some : (dropNewest s.ports.uQueue).isSome = true := by
        rw [hu, dropNewest_append ((QueueClass.discardable_iff _).2 hl) fun q h => kept (ha q h)]
        rfl
      refine ⟨_, ?_, (restart_suspends hr (.inr some)).trans
        (congrArg (fun u : State => Host.Outcome.next u.suspend) (handUp_full displaced))⟩
      exact counted_suspend (s := { s with
        work := Work.empty, ports := { s.ports with uQueue := before ++ after_ ++ [restartAnswer tag] } }) ht.counters.1 10
    · have full : enqueue s.ports.uQueue (restartAnswer tag) = (s.ports.uQueue, true) :=
        enqueue_kept_only hq rfl fun q h => kept (hk q h)
      have none : ¬ (s.ports.uQueue.length < 64 ∨ (dropNewest s.ports.uQueue).isSome = true) := by
        rw [dropNewest_none fun q h => kept (hk q h), hq]
        simp
      refine ⟨_, ?_, (restart_resets hr none).trans
        (congrArg (fun u : State => exec .commandReset u.suspend) (handUp_full full))⟩
      exact counted_suspend (s := { s with work := Work.empty }) ht.counters.1 10
  · exact ⟨commandReset_waits, commandReset_begins, fun h => if_pos h, pinReset_unpowered, pinReset_begins,
      fun h => if_neg (by simp [h]), fun h => if_pos h⟩
  · exact ⟨s.blank, blank_line ht, rfl, rfl, rfl⟩
  · refine ⟨fun a => ?_, untimed_order, fun l => ?_, fun z => untimed_zone ht z, fun n => ?_, rfl, rfl, rfl⟩
    · exact Tab.get_mapSet s.dispatch.cranes Crane.idle Crane.untimed a ht.cranes.1 rfl
    · exact Tab.get_mapSet s.pool.lifts Lift.powerOn Lift.untimed l ht.lifts.1 rfl
    · exact Tab.get_mapSet s.lines.lines Line.powerOn _ n ht.lines.1 rfl

end Sys2Proof.Machine
end

section
/-! PROOF (O59). The end of a reset period: no zone becomes CLEAR in the event that ends it (R172). -/

namespace Sys2Proof.Machine

/-- The part does not run yet, and a zone that is CLEAR was CLEAR in `s₀`. -/
structure Unclear (s₀ s : State) : Prop where
  phase : s.resets.phase ≠ .running
  zones (z : Nat) : (s.zone z).state = .clear → (s₀.zone z).state = .clear

namespace Unclear

variable {s₀ s t : State}

/-! ## Updates -/

theorem update (h : Unclear s₀ s) (hz : t.zones = s.zones := by rfl) (hr : t.resets.phase = s.resets.phase := by rfl) :
    Unclear s₀ t :=
  ⟨hr ▸ h.phase, fun z hc => h.zones z (by rwa [State.zone, hz] at hc)⟩

theorem modZone (h : Unclear s₀ s) (z : Nat) (f : Zone → Zone)
    (hf : (f (s.zone z)).state = .clear → (s.zone z).state = .clear) : Unclear s₀ (s.modZone z f) := by
  refine ⟨h.phase, fun k hc => ?_⟩
  by_cases hk : k = z
  · subst hk
    by_cases clear : (f (s.zone k)).state = .clear
    · exact h.zones k (hf clear)
    · have stored : (s.modZone k f).zones = s.zones.put k (f (s.zone k)) :=
        if_neg fun e => clear (congrArg Zone.state e)
      have put : (s.modZone k f).zone k = f (s.zone k) := by
        rw [State.zone, stored, Tab.get, Tab.find_put, if_pos rfl, Option.getD_some]
      exact absurd (put ▸ hc) clear
  · have other : (s.modZone z f).zone k = s.zone k := Tab.get_set_ne _ _ _ _ _ hk
    exact h.zones k (other ▸ hc)

theorem forEach {α : Type} (h : Unclear s₀ s) (xs : List α) (f : α → State → State)
    (hf : ∀ x s, Unclear s₀ s → Unclear s₀ (f x s)) : Unclear s₀ (Machine.forEach xs f s) :=
  forEach_induct (Unclear s₀) f hf xs s h

theorem repeatTimes (h : Unclear s₀ s) (n : Nat) (f : State → State) (hf : ∀ s, Unclear s₀ s → Unclear s₀ (f s)) :
    Unclear s₀ (Machine.repeatTimes f n s) := repeatTimes_induct (Unclear s₀) f hf n s h

theorem sendUnit (h : Unclear s₀ s) (a : Option Nat) (k : Nat) (b : List Byte) (c : QueueClass) :
    Unclear s₀ (s.sendUnit a k b c) := by
  rw [State.sendUnit_eq]
  exact h.update

theorem modBin (h : Unclear s₀ s) (b : Nat) (f : Bin → Bin) : Unclear s₀ (s.modBin b f) := by
  rw [State.modBin_eq]
  exact h.update

theorem setBinState (h : Unclear s₀ s) (b : Nat) (st : BinState) : Unclear s₀ (s.setBinState b st) := h.modBin b _

/-! ## Crane jobs, the windows and the admissions -/

theorem chooseClass (h : Unclear s₀ s) (a : Nat) {k : JobClass} {t : State} (ht : s.chooseClass a = some (k, t)) :
    Unclear s₀ t := by
  unfold State.chooseClass at ht
  split at ht
  · simp only [Option.map_eq_some_iff, Prod.mk.injEq] at ht
    obtain ⟨_, _, _, rfl⟩ := ht
    exact h
  · split at ht
    · cases ht
      exact h.update
    · split at ht
      · simp only [Option.map_eq_some_iff, Prod.mk.injEq] at ht
        obtain ⟨_, _, _, rfl⟩ := ht
        exact h.update
      · cases ht

theorem tellDispatched (h : Unclear s₀ s) (j : Job) : Unclear s₀ (s.tellDispatched j) := by
  unfold State.tellDispatched
  split
  · split
    · exact h.update
    · exact h
  · exact h

theorem dispatchJob (h : Unclear s₀ s) (a : Nat) (j : Job) (p : Point) : Unclear s₀ (s.dispatchJob a j p) := by
  unfold State.dispatchJob
  exact (((update (t := (State.modCrane _ a _).oweControl) h).setBinState _ _).tellDispatched j).sendUnit _ _ _ _

theorem dispatchTest (h : Unclear s₀ s) (a : Nat) : Unclear s₀ (s.dispatchTest a) := by
  unfold State.dispatchTest
  split
  · split
    · next hc =>
      split
      · exact (update (t := State.modCrane _ a _) (h.chooseClass a hc)).dispatchJob a _ _
      · exact h
    · exact h
  · exact h

theorem dispatchTests (h : Unclear s₀ s) (xs : List Nat) : Unclear s₀ (Machine.forEach xs (fun a s => s.dispatchTest a) s) :=
  h.forEach _ _ fun a _ h => h.dispatchTest a

theorem requestFetch (h : Unclear s₀ s) (r : MemberRef) (b : Nat) : Unclear s₀ (s.requestFetch r b) := by
  unfold State.requestFetch State.appendJob
  exact (update (t := State.modCrane _ _ _) ((update (t := (s.useHeld r).setMember r _) h).setBinState b _)).dispatchTest _

theorem admitMember (h : Unclear s₀ s) (r : MemberRef) : Unclear s₀ (State.admitMember r s) := by
  unfold State.admitMember
  split
  · split
    · exact h.requestFetch r _
    · exact h
  · exact h

theorem admissionStep (h : Unclear s₀ s) (st : Nat) : Unclear s₀ (State.admissionStep st s) := by
  unfold State.admissionStep
  split
  · exact h
  · split
    · split
      · exact (update h).forEach _ _ fun r _ h => h.admitMember r
      · exact h
    · exact h

theorem admissionPass (h : Unclear s₀ s) : Unclear s₀ s.admissionPass :=
  h.forEach _ _ fun st _ h => h.repeatTimes _ _ fun _ h => h.admissionStep st

theorem leaveFront (h : Unclear s₀ s) (a b : Nat) : Unclear s₀ (s.leaveFront a b) := by
  unfold State.leaveFront
  split
  · exact (update (t := s.modCrane a _) h).dispatchTest a
  · exact h

theorem leaveLane (h : Unclear s₀ s) (st b : Nat) : Unclear s₀ (s.leaveLane st b) := h.update

theorem modMember (h : Unclear s₀ s) (r : MemberRef) (f : Member → Member) : Unclear s₀ (s.modMember r f) := h.update

/-! ## Carries and restore orders -/

theorem assign (h : Unclear s₀ s) (e : WaitEntry) (l : Nat) : Unclear s₀ (s.assign e l) := by
  have listed (c : Carry) : Unclear s₀ (((s.dropWaiting fun x => decide (x.ref = e.ref)).modPool fun p =>
      { p with carryTag := tagUp s.pool.carryTag, pointer := (s.lift l).word.nextPointer }).modLift l fun r =>
      { r with carries := r.carries ++ [c] }) := h.update
  have sent (c : Carry) := (listed c).sendUnit (s.liftAddress l)
  unfold State.assign
  dsimp only
  split
  · split
    · exact ((sent _ _ _ _).leaveFront _ _).modMember _ _
    · exact (sent _ _ _ _).leaveFront _ _
  · exact (sent _ _ _ _).leaveLane _ _

theorem scan (h : Unclear s₀ s) : Unclear s₀ s.scan := h.forEach _ _ fun e u h => by
  unfold State.scanEntry
  split
  · exact h.assign e _
  · exact h

theorem placeOrder (h : Unclear s₀ s) (i : Nat) (o : Order) : Unclear s₀ (s.placeOrder i o) := h.update

theorem modDesk (h : Unclear s₀ s) (f : OrderUnit → OrderUnit) : Unclear s₀ (s.modDesk f) := h.update

theorem createRestore (h : Unclear s₀ s) (b st i : Nat) : Unclear s₀ (s.createRestore b st i) :=
  (((h.modDesk _).modBin b _).placeOrder i _).admissionPass

theorem restoreAttempt (h : Unclear s₀ s) (b : Nat) : Unclear s₀ (State.restoreAttempt b s) := by
  unfold State.restoreAttempt
  split
  · split
    · split
      · exact h.createRestore b _ _
      · exact h
    · exact h
  · exact h

theorem restorePass (h : Unclear s₀ s) : Unclear s₀ s.restorePass := h.forEach _ _ fun b _ h => h.restoreAttempt b

theorem restoreTest (h : Unclear s₀ s) (t : RestoreTest) : Unclear s₀ (State.restoreTest t s) := by
  cases t with
  | bin b => exact h.restoreAttempt b
  | pass => exact h.restorePass

/-! ## Zones -/

theorem parkCrane (h : Unclear s₀ s) (a : Nat) : Unclear s₀ (State.parkCrane a s) := by
  have parking : Unclear s₀ (s.setCraneState a .parking) := by
    unfold State.setCraneState
    split
    · exact h
    · exact h.update
  unfold State.parkCrane
  split
  · split
    · exact parking.sendUnit _ _ _ _
    · exact parking.sendUnit _ _ _ _
    · exact h
  · exact h

theorem parkRequest (h : Unclear s₀ s) (xs : List Nat) : Unclear s₀ (s.parkRequest xs) :=
  h.forEach _ _ fun a _ h => h.parkCrane a

theorem zoneTo (h : Unclear s₀ s) (z : Nat) (f : Zone → Zone) (hf : (f (s.zone z)).state ≠ .clear) :
    Unclear s₀ (s.zoneTo z f) := (h.modZone z f fun hc => absurd hc hf).update

theorem enterEnabling (h : Unclear s₀ s) (z : Nat) : Unclear s₀ (s.enterEnabling z) := by
  have enabling := h.zoneTo z (fun r => { r with state := .enabling, timer := s.after r.readyLimit }) (by simp)
  exact enabling.update

theorem feedback (h : Unclear s₀ s) (z : Nat) : Unclear s₀ (State.feedback z s) := by
  unfold State.feedback
  split
  · split
    · exact h.zoneTo z _ (by simp)
    · exact h
  · split
    · exact h.enterEnabling z
    · exact h
  · exact h

theorem enterClosing (h : Unclear s₀ s) (z : Nat) : Unclear s₀ (s.enterClosing z) := by
  unfold State.enterClosing
  exact (h.zoneTo z _ (by simp)).feedback z

theorem enterSettling (h : Unclear s₀ s) (z : Nat) : Unclear s₀ (s.enterSettling z) := by
  unfold State.enterSettling
  dsimp only
  split
  · exact (h.zoneTo z _ (by simp)).enterClosing z
  · exact h.zoneTo z _ (by simp)

theorem enterStopping (h : Unclear s₀ s) (z : Nat) : Unclear s₀ (s.enterStopping z) := by
  have stopping := h.zoneTo z (fun r => { r with state := .stopping, timer := none }) (by simp)
  exact update ((stopping.modZone z _ id).parkRequest _)

theorem stoppingTest (h : Unclear s₀ s) (z : Nat) : Unclear s₀ (State.stoppingTest z s) := by
  unfold State.stoppingTest
  split
  · dsimp only
    split
    · exact h.parkRequest _
    · exact (h.parkRequest _).enterSettling z
  · exact h

/-- No ready test is made before the part runs (R172). -/
theorem readyTest (h : Unclear s₀ s) (z : Nat) : Unclear s₀ (State.readyTest z s) := by
  unfold State.readyTest
  split
  · next hr => exact absurd hr.2.2 h.phase
  · exact h

/-! ## Modes and the tests at the end of the event -/

theorem modeActs (h : Unclear s₀ s) (m : Mode) : Unclear s₀ (s.modeActs m) := by
  have ready := h.forEach allZones State.readyTest fun z _ h => h.readyTest z
  unfold State.modeActs
  dsimp only
  split
  · exact (ready.dispatchTests _).admissionPass.restorePass
  · split
    · exact ready.dispatchTests _
    · exact ready

theorem changeMode (h : Unclear s₀ s) (m : Mode) (cause : ModeCause) : Unclear s₀ (s.changeMode m cause) := by
  rw [changeMode_eq]
  refine update (modeActs ?_ m)
  unfold State.modeSet
  split
  · exact h.update
  · exact h.update

theorem drainTest (h : Unclear s₀ s) : Unclear s₀ s.drainTest := by
  unfold State.drainTest
  split
  · unfold State.beginParkWait
    exact update (parkRequest (update (t := s.modMode _) h) _)
  · exact h

theorem parkWaitTest (h : Unclear s₀ s) : Unclear s₀ s.parkWaitTest := by
  unfold State.parkWaitTest
  split
  · dsimp only
    split
    · exact h.parkRequest _
    · exact (h.parkRequest _).changeMode _ _
  · exact h

theorem wakeTest (h : Unclear s₀ s) : Unclear s₀ s.wakeTest := by
  unfold State.wakeTest
  split
  · split
    · exact h.changeMode _ _
    · exact h
  · exact h

theorem handWaiting (h : Unclear s₀ s) : Unclear s₀ s.handWaiting := by
  unfold State.handWaiting State.thresholdTest
  split
  · split
    · exact changeMode (update h) _ _
    · split
      · exact changeMode (update h) _ _
      · exact h.update
  · exact h.update

theorem controlRound (h : Unclear s₀ s) : Unclear s₀ s.controlRound := by
  unfold State.controlRound
  dsimp only
  have tested := (update (t := s.modWork fun w => { w with control := false, zoneTests := [], modeTest := false }) h).forEach
    s.work.zonesOwed State.zoneTests fun z _ h => (h.stoppingTest z).readyTest z
  split
  · exact tested.parkWaitTest.wakeTest
  · exact tested

theorem holdTest (h : Unclear s₀ s) : Unclear s₀ s.holdTest := by
  unfold State.holdTest
  split
  · split
    · exact h
    · exact h.update
  · split
    · exact h.update
    · exact h

theorem settleRound (h : Unclear s₀ s) : Unclear s₀ s.settleRound := by
  have drained : Unclear s₀ s.drainPhase := by
    unfold State.drainPhase
    split
    · exact drainTest (update h)
    · exact h
  have looped : Unclear s₀ s.drainPhase.controlLoop := drained.repeatTimes 24 State.controlRound fun _ h => h.controlRound
  have scanned : Unclear s₀ s.drainPhase.controlLoop.scanPhase := by
    unfold State.scanPhase
    split
    · exact scan (update looped)
    · exact looped
  have admitted : Unclear s₀ s.drainPhase.controlLoop.scanPhase.admissionPhase := by
    unfold State.admissionPhase
    split
    · exact admissionPass (update scanned)
    · exact scanned
  have restored : Unclear s₀ s.drainPhase.controlLoop.scanPhase.admissionPhase.restorePhase :=
    (update admitted).forEach _ _ fun t _ h => h.restoreTest t
  unfold State.settleRound State.waitingPhase
  split
  · exact handWaiting (update restored)
  · exact restored

theorem settle (h : Unclear s₀ s) : Unclear s₀ s.settle := by
  have rounds := h.repeatTimes 4 State.settleRound fun _ h => h.settleRound
  unfold State.settle State.holdPhase
  split
  · exact rounds.holdTest
  · exact rounds

end Unclear

end Sys2Proof.Machine
end

section
/-! PROOF (O59). The end of a reset period: the blocks settle, the lines are sampled, the zones resume and the mode becomes
WAKING (R24, R42, R81, R106, R122, R137, R152, R172, R183, R192, R193). -/

namespace Sys2Proof.Machine

theorem forEach_range_succ {σ : Type} (f : Nat → σ → σ) (n : Nat) (s : σ) :
    forEach (List.range (n + 1)) f s = f n (forEach (List.range n) f s) := by
  rw [forEach, List.range_succ, List.foldl_append]
  rfl

/-! ## The blocks settle -/

section
variable {s : State}

theorem sendMember_afterReset {l : Nat} (h : (s.lift l).word = .off) : memberTelegrams s l =
    toUnit (s.liftAddress l) 26 [0#8, 0#8] .kept := by
  rw [memberTelegrams, h]
  rfl

/-- The cranes once the first `n` have been reset, their counts kept (R81). -/
structure CranesReset (s : State) (n : Nat) (t : State) : Prop where
  crane (k : Nat) : t.crane k = if k < n then (s.crane k).afterReset (s.aisle k) else s.crane k
  ordered : t.dispatch.cranes.wf
  rest : t = { s with dispatch := { s.dispatch with cranes := t.dispatch.cranes } }

theorem cranesReset_range (h : s.dispatch.cranes.wf) (n : Nat) :
    CranesReset s n (forEach (List.range n) (fun a s => s.modCrane a (Crane.afterReset (s.aisle a))) s) := by
  induction n with
  | zero => exact ⟨fun _ => rfl, h, rfl⟩
  | succ n ih =>
    rw [forEach_range_succ]
    obtain ⟨crane, ordered, rest⟩ := ih
    generalize forEach (List.range n) (fun a s => s.modCrane a (Crane.afterReset (s.aisle a))) s = t at crane ordered rest
    have aisle : t.aisle n = s.aisle n := (congrArg (fun v : State => v.aisle n) rest).trans rfl
    have here : t.crane n = s.crane n := (crane n).trans (if_neg (Nat.lt_irrefl n))
    refine ⟨fun k => ?_, Tab.wf_set _ _ _ _ ordered, ?_⟩
    · rw [State.modCrane_crane _ _ _ _ ordered, crane k, here, aisle]
      by_cases hk : k = n
      · rw [if_pos hk, if_pos (by omega), hk]
      · simp only [hk, if_false, show k < n + 1 ↔ k < n by omega]
    · obtain ⟨cranes, ht⟩ : ∃ cranes, t = { s with dispatch := { s.dispatch with cranes } } := ⟨_, rest⟩
      rw [ht]
      rfl

/-- The stations once the first `n` have been reset (R106). -/
structure StationsReset (s : State) (n : Nat) (t : State) : Prop where
  station (k : Nat) : t.station k = if k < n then (s.station k).afterReset else s.station k
  ordered : t.desk.stations.wf
  rest : t = { s with desk := { s.desk with stations := t.desk.stations } }

theorem stationsReset_range (h : s.desk.stations.wf) (n : Nat) :
    StationsReset s n (forEach (List.range n) (fun st s => s.modStation st Station.afterReset) s) := by
  induction n with
  | zero => exact ⟨fun _ => rfl, h, rfl⟩
  | succ n ih =>
    rw [forEach_range_succ]
    obtain ⟨station, ordered, rest⟩ := ih
    generalize forEach (List.range n) (fun st s => s.modStation st Station.afterReset) s = t at station ordered rest
    have here : t.station n = s.station n := (station n).trans (if_neg (Nat.lt_irrefl n))
    refine ⟨fun k => ?_, Tab.wf_set _ _ _ _ ordered, ?_⟩
    · rw [State.modStation_station _ _ _ _ ordered, station k, here]
      by_cases hk : k = n
      · rw [if_pos hk, if_pos (by omega), hk]
      · simp only [hk, if_false, show k < n + 1 ↔ k < n by omega]
    · obtain ⟨stations, ht⟩ : ∃ stations, t = { s with desk := { s.desk with stations } } := ⟨_, rest⟩
      rw [ht]
      rfl

theorem forEachLift_rest (f : Nat → Lift → Lift) (ls : List Nat) (s : State) : ∃ lifts,
    forEach ls (fun l s => s.modLift l (f l)) s = { s with pool := { s.pool with lifts } } :=
  forEach_induct (fun t => ∃ lifts, t = { s with pool := { s.pool with lifts } }) _
    (fun _ _ ⟨_, h⟩ => ⟨_, by rw [h]; rfl⟩) ls s ⟨_, rfl⟩

/-- What the blocks have settled, table by table (R24, R42, R81, R106, R122, R137, R152). -/
theorem settleBlocks_tables (s : State) (ht : s.Tidy) : ∃ cranes stations lifts,
    s.settleBlocks = { s.settledTables with
      dispatch := { s.settledTables.dispatch with cranes }
      desk := { s.settledTables.desk with stations }
      pool := { s.settledTables.pool with lifts }
      work := { s.work with
        down := s.work.down ++ (List.range 6).flatMap fun l => toUnit (s.liftAddress l) 26 [0#8, 0#8] .kept } } ∧
    (∀ a, a < 12 → cranes.get Crane.idle a = (s.crane a).afterReset (s.aisle a)) ∧
    (∀ st, st < 24 → stations.get Station.powerOn st = (s.station st).afterReset) ∧
    (∀ l, l < 6 → lifts.get Lift.powerOn l = (s.lift l).afterReset) := by
  have tidy := tidy_settledTables ht
  have cranes : CranesReset s.settledTables 12 (forEach allAisles (fun a s => s.modCrane a (Crane.afterReset (s.aisle a)))
    s.settledTables) := cranesReset_range tidy.cranes.1 12
  have stations : StationsReset _ 24 s.resetUnits := stationsReset_range (cranes.rest ▸ tidy.stations.1) 24
  have lift {l : Nat} (hl : l < 6) : (forEach allLifts (fun l t => t.modLift l Lift.afterReset) s.resetUnits).lift l =
      (s.resetUnits.lift l).afterReset := forEachLift_all (tidy_resetUnits ht) (fun _ => Lift.afterReset) hl
  obtain ⟨lifts, liftsRest⟩ := forEachLift_rest (fun _ => Lift.afterReset) allLifts s.resetUnits
  have settled : s.settleBlocks = forEach allLifts (fun l s => s.sendMember l)
      (forEach allLifts (fun l t => t.modLift l Lift.afterReset) s.resetUnits) := rfl
  rw [settled, forEach_sendMember]
  obtain ⟨cs, hc⟩ : ∃ cs, forEach allAisles (fun a s => s.modCrane a (Crane.afterReset (s.aisle a))) s.settledTables =
      { s.settledTables with dispatch := { s.settledTables.dispatch with cranes := cs } } := ⟨_, cranes.rest⟩
  rw [hc] at cranes stations
  obtain ⟨ss, hs⟩ : ∃ ss, s.resetUnits = { s.settledTables with
      dispatch := { s.settledTables.dispatch with cranes := cs }
      desk := { s.settledTables.desk with stations := ss } } := ⟨_, stations.rest⟩
  have telegrams : allLifts.flatMap (memberTelegrams
      (forEach allLifts (fun l t => t.modLift l Lift.afterReset) s.resetUnits)) =
      (List.range 6).flatMap fun l => toUnit (s.liftAddress l) 26 [0#8, 0#8] .kept := by
    refine List.flatMap_congr fun l hl => ?_
    have off := congrArg Lift.word (lift (List.mem_range.1 hl))
    rw [sendMember_afterReset off, liftsRest, hs]
    rfl
  rw [telegrams]
  rw [liftsRest] at lift ⊢
  rw [hs] at stations lift ⊢
  exact ⟨cs, ss, lifts, rfl, fun a ha => (cranes.crane a).trans (if_pos ha),
    fun st hst => (stations.station st).trans (if_pos hst), fun l hl => lift hl⟩

end

/-! ## The lines are sampled -/

section
variable {s : State}

/-- The lines before the `n`th whose pins float. -/
def State.floated (s : State) (n : Nat) : Nat :=
  (List.range n).countP fun k => decide ((s.function k).input = true ∧ s.pinFloats k)

/-- The pin of a line after a reset, those before it having been sampled (R183). -/
def State.resampled (s : State) (n : Nat) : Bool :=
  if (s.function n).input = true then { s with floats := s.floats + s.floated n }.sampled n else (s.line n).pin

theorem floated_succ (n : Nat) : s.floated (n + 1) =
    s.floated n + if (s.function n).input = true ∧ s.pinFloats n then 1 else 0 := by
  simp [State.floated, List.range_succ]

/-- The lines once the first `n` have been sampled. -/
structure Sampled (s : State) (n : Nat) (t : State) : Prop where
  line (k : Nat) : t.line k = if k < n then { s.line k with pin := s.resampled k } else s.line k
  ordered : t.lines.lines.wf
  rest : t = { s with lines := { s.lines with lines := t.lines.lines }, floats := s.floats + s.floated n }

theorem Sampled.function {n : Nat} {t : State} (h : Sampled s n t) (k : Nat) : t.function k = s.function k := by
  rw [State.function, h.line k]
  split <;> rfl

theorem Sampled.succ {n : Nat} {t : State} (h : Sampled s n t) : Sampled s (n + 1) (t.samplePin n) := by
  obtain ⟨line, ordered, rest⟩ := h
  have function : t.function n = s.function n := Sampled.function ⟨line, ordered, rest⟩ n
  have here : t.line n = s.line n := (line n).trans (if_neg (Nat.lt_irrefl n))
  have pull : t.pull (n / 4) = s.pull (n / 4) := (congrArg (fun v : State => v.pull (n / 4)) rest).trans rfl
  have floats : t.floats = s.floats + s.floated n := (congrArg State.floats rest).trans rfl
  by_cases input : (s.function n).input = true
  · have level : t.sampled n = s.resampled n := by
      rw [State.resampled, if_pos input, State.sampled, State.sampled, here, pull, floats]
      rfl
    have floating : t.pinFloats n ↔ s.pinFloats n := by rw [State.pinFloats, here, pull]
    rw [samplePin_input (function ▸ input)]
    refine ⟨fun k => ?_, Tab.wf_set _ _ _ _ ordered, ?_⟩
    · refine (State.modLine_line t n k (fun r => { r with pin := t.sampled n }) ordered).trans ?_
      rw [line k, here, level]
      by_cases hk : k = n
      · rw [if_pos hk, if_pos (by omega), hk]
      · simp only [hk, if_false, show k < n + 1 ↔ k < n by omega]
    · obtain ⟨lines, ht⟩ : ∃ lines, t = { s with lines := { s.lines with lines }, floats := s.floats + s.floated n } :=
        ⟨_, rest⟩
      have count : (if t.pinFloats n then t.floats + 1 else t.floats) = s.floats + s.floated (n + 1) := by
        rw [floated_succ, floats]
        simp only [input, floating, true_and]
        split <;> omega
      rw [count]
      subst ht
      rfl
  · rw [samplePin_output (by simpa [function] using input)]
    have pin : s.resampled n = (s.line n).pin := if_neg input
    have count : s.floated (n + 1) = s.floated n := by rw [floated_succ, if_neg fun h => input h.1, Nat.add_zero]
    refine ⟨fun k => ?_, ordered, count ▸ rest⟩
    rw [line k]
    by_cases hk : k = n
    · rw [if_neg (by omega), if_pos (by omega), hk, pin]
    · simp only [show k < n + 1 ↔ k < n by omega]

theorem sampled_range (h : s.lines.lines.wf) (n : Nat) : Sampled s n (forEach (List.range n) (fun n s => s.samplePin n) s) := by
  induction n with
  | zero => exact ⟨fun _ => rfl, h, rfl⟩
  | succ n ih =>
    rw [forEach_range_succ]
    exact ih.succ

/-! ## The call keys start afresh -/

theorem settleKey_ordered (h : s.lines.lines.wf) (n : Nat) (before : Bool) : (s.settleKey n before).lines.lines.wf := by
  unfold State.settleKey
  split
  · split
    · exact h
    · exact Tab.wf_set _ _ _ _ h
  · split
    · exact Tab.wf_set _ _ _ _ h
    · exact h

/-- The lines once the keys of the first `n` have started afresh. -/
structure Resumed (s : State) (n : Nat) (t : State) : Prop where
  line (k : Nat) : t.line k = if k < n then { s.line k with keyTimer := s.keySettled k false } else s.line k
  ordered : t.lines.lines.wf
  rest : t = { s with lines := { s.lines with lines := t.lines.lines } }

theorem Resumed.values {n : Nat} {t : State} (h : Resumed s n t) (k : Nat) :
    t.function k = s.function k ∧ t.lineValue k = s.lineValue k := by
  have outputs : t.outputs = s.outputs := (congrArg State.outputs h.rest).trans rfl
  have same : (t.line k).selection = (s.line k).selection ∧ (t.line k).polarity = (s.line k).polarity ∧
      (t.line k).pin = (s.line k).pin ∧ (t.line k).output = (s.line k).output := by
    rw [h.line]
    split
    · exact ⟨rfl, rfl, rfl, rfl⟩
    · exact ⟨rfl, rfl, rfl, rfl⟩
  obtain ⟨selection, polarity, pin, output⟩ := same
  exact lineValue_congr outputs selection polarity pin output

theorem Resumed.succ {n : Nat} {t : State} (h : Resumed s n t) : Resumed s (n + 1) (State.resumeKey n t) := by
  obtain ⟨function, value⟩ := h.values n
  have now : t.now = s.now := (congrArg State.now h.rest).trans rfl
  have here : t.line n = s.line n := (h.line n).trans (if_neg (Nat.lt_irrefl n))
  have timer : t.keySettled n false = s.keySettled n false := by
    rw [State.keySettled, State.keySettled, State.keyPressed, State.keyPressed, function, value, now, here]
  refine ⟨fun k => ?_, ?_, ?_⟩
  · refine (settleKey_line h.ordered k).trans ?_
    rw [h.line k, here, timer]
    by_cases hk : k = n
    · rw [if_pos hk, if_pos (by omega), hk]
    · simp only [hk, if_false, show k < n + 1 ↔ k < n by omega]
  · exact settleKey_ordered h.ordered n false
  · obtain ⟨lines, ht⟩ : ∃ lines, t = { s with lines := { s.lines with lines } } := ⟨_, h.rest⟩
    refine settleKey_rest.trans ?_
    rw [ht]
    rfl

theorem resumed_range (h : s.lines.lines.wf) (n : Nat) : Resumed s n (forEach (List.range n) State.resumeKey s) := by
  induction n with
  | zero => exact ⟨fun _ => rfl, h, rfl⟩
  | succ n ih =>
    rw [forEach_range_succ]
    exact ih.succ

end

/-! ## The event that ends a reset period -/

namespace Unclear

variable {s₀ s : State}

theorem settleBlocks (h : Unclear s₀ s) : Unclear s₀ s.settleBlocks := by
  have cranes := (h.update (t := s.settledTables)).forEach allAisles
    (fun a s => s.modCrane a (Crane.afterReset (s.aisle a))) fun _ _ h => h.update
  have lifts := (cranes.forEach allStations (fun st s => s.modStation st Station.afterReset) fun _ _ h => h.update).forEach
    allLifts (fun l s => s.modLift l Lift.afterReset) fun _ _ h => h.update
  exact lifts.forEach allLifts (fun l s => s.sendMember l) fun _ _ h => h.sendUnit _ _ _ _

theorem samplePin (h : Unclear s₀ s) (n : Nat) : Unclear s₀ (s.samplePin n) := by
  by_cases input : (s.function n).input = true
  · rw [samplePin_input input]
    exact h.update
  · rwa [samplePin_output (by simpa using input)]

theorem resumeKey (h : Unclear s₀ s) (n : Nat) : Unclear s₀ (State.resumeKey n s) := by
  unfold State.resumeKey
  rw [settleKey_rest]
  exact h.update

theorem notice (h : Unclear s₀ s) (n : Notice) : Unclear s₀ (s.notice n) := h.update

theorem resumeAlarm (h : Unclear s₀ s) (z : Nat) : Unclear s₀ (State.resumeAlarm z s) := h.modZone z _ id

theorem resumeZone (h : Unclear s₀ s) (z : Nat) : Unclear s₀ (State.resumeZone z s) := by
  have timed : Unclear s₀ (State.feedback z (s.modZone z fun r => { r with fault := false, timer := s.after r.shutterLimit })) :=
    (h.modZone z _ id).feedback z
  unfold State.resumeZone
  split
  · exact h
  · exact h
  · exact h.enterClosing z
  · exact h.enterClosing z
  · exact timed
  · exact timed
  · have caused : Unclear s₀ (s.giveCause z .manual) := h.modZone z _ id
    exact (caused.enterStopping z).stoppingTest z

theorem resume (h : Unclear s₀ s) : Unclear s₀ s.resume := by
  have lines := (h.settleBlocks.forEach allLines (fun n s => s.samplePin n) fun n _ h => h.samplePin n).forEach allLines
    State.resumeKey fun n _ h => h.resumeKey n
  unfold State.resume
  dsimp only
  refine changeMode ?_ _ _
  exact ((lines.notice _).forEach allZones State.resumeAlarm fun z _ h => h.resumeAlarm z).forEach allZones State.resumeZone
    fun z _ h => h.resumeZone z

end Unclear

section
variable {s : State}

theorem resetPeriodEnd_ends (hp : s.resets.phase = .resetting) (he : s.resets.ending ≠ none) :
    exec .resetPeriodEnd s = .next s.resumeEvent := by
  obtain ⟨n, hn⟩ := Option.ne_none_iff_exists'.1 he
  change execResetPeriodEnd s = _
  rw [execResetPeriodEnd, hp, hn]

theorem resetPeriodEnd_idle (h : s.resets.phase ≠ .resetting ∨ s.resets.ending = none) :
    exec .resetPeriodEnd s = .next s := by
  change execResetPeriodEnd s = _
  unfold execResetPeriodEnd
  split
  · next hp hn => simp [hp, hn] at h
  · rfl

/-- The state in which the input lines have been sampled and the keys have started afresh (R183). -/
def State.linesTaken (s : State) : State :=
  forEach allLines State.resumeKey (forEach allLines (fun n s => s.samplePin n) s.settleBlocks)

/-- Then RESET_DONE stands as the first NOTICE (R193). -/
def State.resetTold (s : State) : State := s.linesTaken.notice (.resetDone s.linesTaken.resets.record)

theorem resume_eq : s.resume = (forEach allZones State.resumeZone
    (forEach allZones State.resumeAlarm s.resetTold)).changeMode .waking .reset := by
  unfold State.resume State.resetTold State.linesTaken
  rfl

/-- The level found at the pin of an input line after a reset (R177, R183). -/
def State.levelFound (s : State) (n : Nat) : Bool := { s with floats := s.floats + s.floated n }.sampled n

theorem linesTaken_values (ht : s.Tidy) :
    let u := s.linesTaken
    (∀ n, u.line n = if n < 48 then
      { s.line n with
        pin := if (s.function n).input = true then s.levelFound n else (s.line n).pin
        keyTimer := if s.function n = .callKey ∧ u.lineValue n = true then some (s.now + 50) else none }
      else s.line n) ∧
    u = { s.settleBlocks with
      lines := { s.lines with lines := u.lines.lines }, floats := s.floats + s.floated 48 } := by
  obtain ⟨cranes, stations, lifts, blocks, -⟩ := settleBlocks_tables s ht
  have tidy : s.settleBlocks.Tidy := tidy_settleBlocks ht
  have pins : Sampled s.settleBlocks 48 (forEach allLines (fun n s => s.samplePin n) s.settleBlocks) :=
    sampled_range tidy.lines.1 48
  have keys : Resumed (forEach allLines (fun n s => s.samplePin n) s.settleBlocks) 48 s.linesTaken :=
    resumed_range pins.ordered 48
  generalize forEach allLines (fun n s => s.samplePin n) s.settleBlocks = t at pins keys
  have lines : s.settleBlocks.lines = s.lines := by rw [blocks]; rfl
  have line (n : Nat) : s.settleBlocks.line n = s.line n := by rw [State.line, lines]; rfl
  have pin (n : Nat) : s.settleBlocks.resampled n =
      if (s.function n).input = true then s.levelFound n else (s.line n).pin := by rw [blocks]; rfl
  have count : s.settleBlocks.floats + s.settleBlocks.floated 48 = s.floats + s.floated 48 := by rw [blocks]; rfl
  have now : t.now = s.now := by rw [pins.rest, blocks]; rfl
  refine ⟨fun n => ?_, ?_⟩
  · obtain ⟨function, value⟩ := keys.values n
    have same : s.settleBlocks.function n = s.function n := by rw [State.function, line]; rfl
    have timer : t.keySettled n false =
        if s.function n = .callKey ∧ s.linesTaken.lineValue n = true then some (s.now + 50) else none := by
      rw [State.keySettled, now, value]
      simp only [keyPressed_iff, pins.function n, same, Bool.false_eq_true, if_false]
    rw [keys.line n, pins.line n, line, pin, timer]
    split
    · rfl
    · rfl
  · refine keys.rest.trans ?_
    rw [← count]
    obtain ⟨w, ht⟩ : ∃ w, t = { s.settleBlocks with
      lines := { s.settleBlocks.lines with lines := w }
      floats := s.settleBlocks.floats + s.settleBlocks.floated 48 } := ⟨_, pins.rest⟩
    rw [ht, lines]

end

/-! ## The zones resume -/

/-- In `u` zone `z` alone has become `x`. -/
def ZoneBecomes (s : State) (z : Nat) (x : Zone) (u : State) : Prop :=
  (∀ k, u.zone k = if k = z then x else s.zone k) ∧ u = { s with zones := u.zones }

section
variable {s : State} {z : Nat}

theorem modZone_becomes (h : s.zones.wf) (f : Zone → Zone) : ZoneBecomes s z (f (s.zone z)) (s.modZone z f) :=
  ⟨fun k => State.modZone_zone s z k f h, rfl⟩

theorem resumeAlarm_becomes (h : s.zones.wf) : ZoneBecomes s z
    { s.zone z with
      alarm := decide ((s.line z).selection = .first ∧ s.lineValue z = true), awaited := []
      debounceTimer := if (s.line z).selection = .first ∧ s.lineValue z = true then some (s.now + (s.zone z).debounce)
        else none } (State.resumeAlarm z s) := by
  have level : s.alarmInput z = decide ((s.line z).selection = .first ∧ s.lineValue z = true) := by
    rw [Bool.eq_iff_iff, alarmInput_iff, decide_eq_true_iff]
  unfold State.resumeAlarm
  rw [level]
  simp only [decide_eq_true_eq]
  exact modZone_becomes h _

theorem resumeZone_rests (h : (s.zone z).state = .clear ∨ (s.zone z).state = .sealed) : State.resumeZone z s = s := by
  unfold State.resumeZone
  obtain h | h := h
  · rw [h]
  · rw [h]

theorem resumeZone_stopping (h : (s.zone z).state = .stopping ∨ (s.zone z).state = .settling) :
    State.resumeZone z s = s.enterClosing z := by
  unfold State.resumeZone
  obtain h | h := h
  · rw [h]
  · rw [h]

theorem resumeZone_moving (h : (s.zone z).state = .closing ∨ (s.zone z).state = .opening) :
    State.resumeZone z s = State.feedback z (s.modZone z fun r => { r with fault := false, timer := s.after r.shutterLimit }) := by
  unfold State.resumeZone
  obtain h | h := h
  · rw [h]
  · rw [h]

theorem resumeZone_enabling (h : (s.zone z).state = .enabling) :
    State.resumeZone z s = State.stoppingTest z ((s.giveCause z .manual).enterStopping z) := by
  unfold State.resumeZone
  rw [h]

end

theorem Bin.afterReset_state (items : Tab Item) (b : Nat) (r : Bin) : (r.afterReset items b).state =
    if r.state = .reserved then .stored else if r.state = .out ∨ r.state = .moving then .adrift else r.state := by
  unfold Bin.afterReset
  cases h : r.state <;> simp

/-- RESET_DONE is the first NOTICE of the event (R193). -/
theorem told_eq {b v : State} {lines : LineBlock} {floats : Nat} (record : ResetRecord) (h : v = { b with lines, floats })
    (up : b.work.up = []) : v.notice (.resetDone record) =
      { b with lines, floats, work := { b.work with up := [.notice (.resetDone record)] } } := by
  have sent : b.work.up ++ [UpMsg.notice (.resetDone record)] = [.notice (.resetDone record)] := by rw [up]; rfl
  rw [h, ← sent]
  rfl

theorem changeMode_sets (s : State) (m : Mode) (cause : ModeCause) : (s.changeMode m cause).mode.mode = m := by
  rw [changeMode_mode]
  rfl

theorem changeMode_tells (s : State) (m : Mode) (cause : ModeCause) :
    (s.changeMode m cause).work.up.getLast? = some (.notice (.modeState m cause)) := by
  rw [changeMode_up, List.getLast?_concat]

theorem closeEvent_frame (s u : State) (a : Option Answer) : (s.closeEvent u a).running ∧
    (s.closeEvent u a).pending = s.pending ∧ (s.closeEvent u a).now = s.now ∧ (s.closeEvent u a).work = Work.empty :=
  ⟨by rw [State.running, closeEvent_resets], closeEvent_pending s u a, closeEvent_now s u a, closeEvent_work s u a⟩

theorem resumeEvent_frame (s : State) : s.resumeEvent.running ∧ s.resumeEvent.pending = s.pending ∧
    s.resumeEvent.now = s.now ∧ s.resumeEvent.work = Work.empty := by
  unfold State.resumeEvent State.event
  exact closeEvent_frame _ _ none

theorem resumeEvent_zone (s : State) (z : Nat) : s.resumeEvent.zone z =
    (State.resume (s.modPorts fun _ => { uQueue := [], dQueue := [], noticeSeq := 0, uLine := none, dLine := none }).beginEvent
      ).settle.zone z := by
  unfold State.resumeEvent State.event
  rw [State.zone, closeEvent_zones]
  rfl

theorem resumeEvent_eq (s : State) : let ports : Ports := { uQueue := [], dQueue := [], noticeSeq := 0, uLine := none, dLine := none }
    s.resumeEvent = State.eventEnds { s with ports } (State.resume { s with ports, work := Work.empty }) := by
  unfold State.resumeEvent State.event State.eventEnds
  rfl

/-- The part runs again, and no zone has become CLEAR (R172, R192). -/
theorem resetPeriodEnd_leaves {s t : State} (hp : s.resets.phase = .resetting) (he : s.resets.ending ≠ none)
    (h : t = s.resumeEvent) : exec .resetPeriodEnd s = .next t ∧ t.running ∧ t.pending = s.pending ∧ t.now = s.now ∧
      t.work = Work.empty ∧ ∀ z, (t.zone z).state = .clear → (s.zone z).state = .clear := by
  rw [h]
  obtain ⟨running, pending, now, work⟩ := resumeEvent_frame s
  refine ⟨resetPeriodEnd_ends hp he, running, pending, now, work, fun z hz => ?_⟩
  have unclear : Unclear s
      (s.modPorts fun _ => { uQueue := [], dQueue := [], noticeSeq := 0, uLine := none, dLine := none }).beginEvent :=
    ⟨fun hr => absurd (hp.symm.trans hr) (by decide), fun _ h => h⟩
  rw [resumeEvent_zone] at hz
  exact unclear.resume.settle.zones z hz

/-- What the blocks have settled besides the units' records. -/
theorem settleBlocks_rest {s t : State} (ht : s.Tidy) (h : t = s.settleBlocks) :
    t.loans = { s.loans with items := retainedItems s.loans.items } ∧ t.dispatch.jobTag = 0 ∧ t.desk.orders = [] ∧
    t.desk.restoreNumber = 32768 ∧
    t.desk.holding = false ∧ t.desk.holdTimer = none ∧ t.pool.pointer = 0 ∧ t.pool.carryTag = 0 ∧ t.pool.waitList = [] ∧
    t.returns = { s.returns with minuteTimer := some (s.now + 60000) } ∧ t.link = s.link ∧ t.params = s.params ∧
    t.store.aisles = s.store.aisles ∧ t.zones = s.zones ∧ t.lines = s.lines ∧ t.outputs = s.outputs ∧
    t.ports = { s.ports with uQueue := [], dQueue := [], noticeSeq := 0 } ∧
    t.mode = { s.mode with
      phase := none, timer := none, awaited := [], lastStaging := s.returns.staging.length, lastWaiting := 0 } ∧
    t.work = { s.work with
      down := s.work.down ++ (List.range 6).flatMap fun l => toUnit (s.liftAddress l) 26 [0#8, 0#8] .kept } := by
  obtain ⟨cranes, stations, lifts, blocks, -⟩ := settleBlocks_tables s ht
  rw [h, blocks]
  exact ⟨rfl, rfl, rfl, rfl, rfl, rfl, rfl, rfl, rfl, rfl, rfl, rfl, rfl, rfl, rfl, rfl, rfl, rfl, rfl⟩

/-- Settles O59. -/
theorem resetPeriodSettlesTheBlocks : Obligations.ResetPeriodSettlesTheBlocks := by
  refine ⟨fun s => resetPeriodEnd_idle, fun s hp he => ?_, fun s ht hw => ?_, fun s z ht => ?_, fun s ht => ?_⟩
  · exact resetPeriodEnd_leaves hp he (resumeEvent_eq s).symm
  · intro wires floats level
    obtain ⟨line, rest⟩ := linesTaken_values ht
    obtain ⟨cranes, stations, lifts, blocks, -⟩ := settleBlocks_tables s ht
    have resumes := resume_eq (s := s)
    rw [State.resetTold] at resumes
    generalize s.linesTaken = v at line rest resumes
    refine ⟨v.notice (.resetDone v.resets.record), line, ?_, resumes, ?_, ?_⟩
    · have record : v.resets.record = s.resets.record := by rw [rest, blocks]; rfl
      have up : s.settleBlocks.work.up = [] := by rw [blocks, hw]; rfl
      rw [record]
      exact told_eq _ rest up
    · rw [resumes, changeMode_sets]
    · rw [resumes, changeMode_tells]
  · intro r becomes asserted moves
    have refl := Rezoned.refl z ht.zones.1
    refine ⟨resumeAlarm_becomes ht.zones.1, resumeZone_rests, fun h => ?_, fun h => ?_, fun h => ?_⟩
    · obtain ⟨u, goes, closes, -⟩ := refl.closes
      exact ⟨u, goes, (resumeZone_stopping h).trans closes⟩
    · exact ⟨_, modZone_becomes ht.zones.1 fun r => { r with fault := false, timer := s.after r.shutterLimit },
        resumeZone_moving h⟩
    · obtain ⟨u, goes, stops, -⟩ := (refl.giveCause .manual).stops
      rw [refl.givenCause] at goes
      exact ⟨u, goes, (resumeZone_enabling h).trans (congrArg (State.stoppingTest z) stops)⟩
  · intro t items
    obtain ⟨cranes, stations, lifts, blocks, crane, station, lift⟩ := settleBlocks_tables s ht
    have bin (b : Nat) : t.bin b = s.settledTables.bin b :=
      (congrArg (fun v : State => v.bin b) blocks).trans rfl
    refine ⟨fun b => ?_, fun a ha => ?_, fun st hst => ?_, fun l hl => ?_, ?_⟩
    · rw [bin, settledTables_bin]
      refine congrArg (fun f => (s.bin b).map f) (funext fun r => ?_)
      rw [← Bin.afterReset_state (retainedItems s.loans.items) b r]
      rfl
    · exact (congrArg (fun v : State => v.crane a) blocks).trans (crane a ha)
    · exact (congrArg (fun v : State => v.station st) blocks).trans (station st hst)
    · exact (congrArg (fun v : State => v.lift l) blocks).trans (lift l hl)
    · exact settleBlocks_rest ht rfl

end Sys2Proof.Machine
end

section
/-! PROOF (O31). READ: its bounds, and the bytes of every table (R15, R19, R23, R193). -/

namespace Sys2Proof.Machine

/-! ## The bytes of parts of an entry -/

theorem bytes_zeros (n : Nat) : Fields.bytes (List.replicate n (1, 0)) = List.replicate n 0#8 := by
  induction n with
  | zero => rfl
  | succ n ih => rw [List.replicate_succ, Fields.bytes_cons, ih]; rfl

theorem be_zero (n : Nat) : be n 0 = List.replicate n 0#8 := by
  induction n with
  | zero => rfl
  | succ n ih => rw [be, ih, Nat.zero_div]; rfl

theorem bytes_ifPresent_some (n : Nat) (fs : Fields) : Fields.bytes (ifPresent n (some fs)) = be 1 0 ++ fs.bytes := rfl

theorem bytes_ifPresent_none (n : Nat) : Fields.bytes (ifPresent n none) = be 1 1 ++ be n 0 := by
  rw [ifPresent, Fields.bytes_cons, bytes_zeros, be_zero]

/-- A field that may be absent. -/
theorem bytes_optional (w : Nat) (o : Option Nat) : Fields.bytes (ifPresent w (o.map fun v => [(w, v)])) = optional w o := by
  cases o with
  | none => exact bytes_ifPresent_none w
  | some v =>
    refine (bytes_ifPresent_some w [(w, v)]).trans ?_
    rw [Fields.bytes_cons, Fields.bytes_nil, List.append_nil]
    rfl

theorem bytes_flatten (items : List Fields) : Fields.bytes items.flatten = (items.map Fields.bytes).flatten := by
  induction items with
  | nil => rfl
  | cons x xs ih => rw [List.flatten_cons, Fields.bytes_append, ih, List.map_cons, List.flatten_cons]

theorem bytes_listOf (most n : Nat) (items : List Fields) :
    Fields.bytes (listOf most n items) = padded most n (items.map Fields.bytes) := by
  rw [listOf, Fields.bytes_cons, Fields.bytes_append, bytes_flatten, bytes_zeros, padded, List.length_map,
    List.append_assoc]
  rfl

/-! The same from the bytes to the fields, by which an entry's bytes are gathered field by field. -/

theorem be_bytes (w n : Nat) : be w n = Fields.bytes [(w, n)] := by simp

theorem optional_bytes (w : Nat) (o : Option Nat) : optional w o = Fields.bytes (ifPresent w (o.map fun v => [(w, v)])) :=
  (bytes_optional w o).symm

theorem padded_bytes {α : Type} (most n : Nat) (xs : List α) (g : α → Fields) :
    padded most n (xs.map fun x => (g x).bytes) = Fields.bytes (listOf most n (xs.map g)) := by
  rw [bytes_listOf, List.map_map]
  rfl

/-! ## The entries that fit -/

theorem fitEntries_eq (es : List (List Byte)) (room : Nat) : ∃ k, fitEntries room es = es.take k ∧ k ≤ es.length ∧
    (es.take k).flatten.length ≤ room ∧
    (k = es.length ∨ ∃ e, es[k]? = some e ∧ room - (es.take k).flatten.length < e.length) := by
  induction es generalizing room with
  | nil => exact ⟨0, rfl, Nat.le_refl _, Nat.zero_le _, .inl rfl⟩
  | cons e es ih =>
    by_cases fits : e.length ≤ room
    · obtain ⟨k, taken, hk, hroom, stops⟩ := ih (room - e.length)
      refine ⟨k + 1, ?_, Nat.succ_le_succ hk, ?_, stops.imp (congrArg (· + 1)) ?_⟩
      · rw [fitEntries, if_pos fits, taken, List.take_succ_cons]
      · rw [List.take_succ_cons, List.flatten_cons, List.length_append]
        omega
      · rintro ⟨x, hx, hl⟩
        refine ⟨x, hx, ?_⟩
        rw [List.take_succ_cons, List.flatten_cons, List.length_append]
        omega
    · refine ⟨0, if_neg fits, Nat.zero_le _, Nat.zero_le _, .inr ⟨e, rfl, ?_⟩⟩
      simpa using fits

section
variable {s : State}

theorem tableSize_none (k : Nat) : s.tableSize k = none ↔ k = 0 ∨ 18 < k := by
  refine ⟨fun h => ?_, fun h => ?_⟩
  · by_contra hk
    have low : 1 ≤ k := by omega
    have high : k ≤ 18 := by omega
    interval_cases k <;> simp [State.tableSize] at h
  · unfold State.tableSize
    split
    case h_19 => rfl
    all_goals omega

/-- The entries that a READ carries. -/
def State.carried (s : State) (table first k : Nat) : List (List Byte) :=
  (List.range k).map fun i => s.entryBytes table (first + i)

/-- How many entries fit, and what they leave (R19). -/
theorem wanted_fits {table first count size : Nat} (hf : first < size) : ∃ k,
    fitEntries readRoom (s.wanted table first count size) = s.carried table first k ∧ k ≤ count ∧ first + k ≤ size ∧
    (s.carried table first k).flatten.length ≤ 233 ∧
    (k = count ∨ first + k = size ∨
      233 - (s.carried table first k).flatten.length < (s.entryBytes table (first + k)).length) := by
  obtain ⟨k, taken, hk, hroom, stops⟩ := fitEntries_eq (s.wanted table first count size) readRoom
  have length : (s.wanted table first count size).length = min count (size - first) := by simp [State.wanted]
  rw [length] at hk stops
  have leading : (s.wanted table first count size).take k = s.carried table first k := by
    rw [State.wanted, ← List.map_take, List.take_range, Nat.min_eq_left hk]
    rfl
  rw [leading] at taken hroom stops
  refine ⟨k, taken, by omega, by omega, hroom, ?_⟩
  obtain stops | ⟨e, he, hl⟩ := stops
  · omega
  · have next : e = s.entryBytes table (first + k) := by
      obtain ⟨hlt, get⟩ := List.getElem?_eq_some_iff.1 he
      rw [← get]
      simp [State.wanted]
    exact .inr (.inr (next ▸ hl))

end


/-! ## The entries of the tables -/

section
variable {s : State}

/-- The fields of a slot (section 2.5). -/
def slotFields (t : Slot) : Fields := [(1, t.aisle), (1, t.face.code), (1, t.level), (1, t.column)]

theorem slotBytes_eq (t : Slot) : t.bytes = Fields.bytes (slotFields t) := by
  simp only [Slot.bytes, be_bytes, ← Fields.bytes_append, List.cons_append, List.nil_append, slotFields]

theorem Bin.bytes_eq (r : Bin) : r.bytes = be 1 0 ++ Fields.bytes (slotFields r.home ++ [(1, r.state.code)] ++
    ifPresent 4 (r.target.map slotFields) ++ [(1, r.staged), (1, if r.pending then 0 else 1), (3, r.itemRefs)]) := by
  have target : Fields.bytes (ifPresent 4 (r.target.map slotFields)) = be 1 (presenceCode r.target.isSome) ++
      (r.target.map Slot.bytes).getD (be 4 0) := by
    cases r.target with
    | none => exact bytes_ifPresent_none 4
    | some t => exact congrArg (be 1 0 ++ ·) (slotBytes_eq t).symm
  rw [Fields.bytes_append, Fields.bytes_append, Fields.bytes_append, target, ← slotBytes_eq]
  unfold Bin.bytes
  cases r.target with
  | none => simp [presenceCode, flagCode]
  | some t => simp [presenceCode, flagCode]

theorem binBytes_eq (b : Nat) : s.binBytes b = Fields.bytes (ifPresent 15 ((s.bin b).map fun r =>
    slotFields r.home ++ [(1, r.state.code)] ++ ifPresent 4 (r.target.map slotFields) ++
      [(1, r.staged), (1, if r.pending then 0 else 1), (3, r.itemRefs)])) := by
  unfold State.binBytes
  cases s.bin b with
  | none => rw [Option.map_none, bytes_ifPresent_none, be_zero]; rfl
  | some r => exact r.bytes_eq

theorem aisleBytes_eq (r : Aisle) : r.bytes = Fields.bytes [(1, r.levels), (1, r.columns), (2, r.frontOffset),
    (2, r.columnPitch), (2, r.levelPitch), (1, if r.leftMirrored then 1 else 0), (1, if r.rightMirrored then 1 else 0),
    (1, r.frontLevel), (1, r.infeedLevel), (1, r.frontSize), (1, r.infeedSize), (1, r.parkColumn), (1, r.parkLevel),
    (2, r.travelVmax), (2, r.travelAccel), (2, r.hoistVmax), (2, r.hoistAccel), (2, r.handling), (1, r.lowerZone),
    (1, r.upperZone), (1, r.split), (1, r.mode.code), (1, r.patronWeight), (1, r.restoreWeight), (1, r.houseWeight)] := by
  unfold Aisle.bytes mirrorCode
  simp only [be_bytes, ← Fields.bytes_append, List.cons_append, List.nil_append]

/-- The fields of a crane's job in flight (R80). -/
def flightFields (f : Flight) : Fields :=
  [(1, f.job.kind.code), (1, f.job.cls.code), (2, f.job.bin), (2, f.tag), (3, f.estimate), (3, f.deadline),
    (1, if f.late then 0 else 1)]

theorem flightBytes_eq (f : Option Flight) : flightBytes f = Fields.bytes (ifPresent 13 (f.map flightFields)) := by
  cases f with
  | none => exact (bytes_ifPresent_none 13).symm
  | some f =>
    rw [Option.map_some, bytes_ifPresent_some]
    simp [flightBytes, flightFields, presenceCode, flagCode]

theorem placeBytes_eq (p : Option Place) (point : Point → Fields) (hp : ∀ p : Point, p.bytes = (point p).bytes) :
    placeBytes p = Fields.bytes (ifPresent 4 (p.map fun p => point p.point) ++
      ifPresent 2 (p.map fun p => [(2, p.load.getD 65535)])) := by
  rw [Fields.bytes_append]
  cases p with
  | none =>
    rw [Option.map_none, Option.map_none, bytes_ifPresent_none, bytes_ifPresent_none]
    simp [placeBytes, presenceCode]
  | some p =>
    have load : loadBytes p.load = be 2 (p.load.getD 65535) := by cases p.load <;> rfl
    rw [Option.map_some, Option.map_some, bytes_ifPresent_some, bytes_ifPresent_some, ← hp]
    simp [placeBytes, presenceCode, load]

theorem craneBytes_eq (a : Nat) (point : Point → Fields) (hp : ∀ p : Point, p.bytes = (point p).bytes) :
    let x := s.crane a
    s.craneBytes a = Fields.bytes ([(1, x.state.code)] ++ ifPresent 4 (x.place.map fun p => point p.point) ++
      ifPresent 2 (x.place.map fun p => [(2, p.load.getD 65535)]) ++ ifPresent 13 (x.flight.map flightFields) ++
      ifPresent 1 (x.faultCode.map fun c => [(1, c)]) ++
      [(2, x.patronQueue.length), (2, x.restoreQueue.length), (2, x.houseQueue.length), (1, x.patronCredit),
        (1, x.restoreCredit), (1, x.houseCredit), (1, x.front.length), (1, x.infeed.length),
        (2, 512 - s.recordsTaken), (4, x.unmatched), (4, x.rejected), (4, x.refusedRecoveries)]) := by
  have free : s.freeCount = 512 - s.recordsTaken := rfl
  unfold State.craneBytes
  simp only [placeBytes_eq _ point hp, flightBytes_eq, optional_bytes, free, be_bytes, ← Fields.bytes_append,
    List.append_assoc, List.cons_append, List.nil_append]

theorem stationBytes_eq (st : Nat) :
    let w := s.station st
    s.stationBytes st = Fields.bytes ([(1, w.kind.code), (1, w.zone), (1, w.laneSize), (3, w.slack), (2, w.orderQueue.length)] ++
      listOf 8 3 (w.lane.map fun l => [(2, l.bin), (1, l.mark.code)]) ++ [(1, w.reservations)] ++
      ifPresent 2 ((w.lane.find? fun l => decide (l.mark = .window)).map fun l => [(2, l.bin)]) ++
      ifPresent 2 (w.owner.map fun n => [(2, n)]) ++ [(2, w.presQueue.length), (4, w.unmatched)]) := by
  unfold State.stationBytes Station.window
  simp only [optional_bytes, be_bytes, ← Fields.bytes_append, padded_bytes, Option.map_map, Function.comp_def,
    List.append_assoc, List.cons_append, List.nil_append]

theorem orderBytes_eq (i : Nat) : s.orderBytes i = Fields.bytes (ifPresent 54 ((s.desk.orders.find i).map fun o =>
      [(2, o.number), (1, o.kind.code), (1, o.station), (4, o.patron), (1, o.state.code), (1, if o.gathered then 0 else 1)] ++
      ifPresent 3 (o.gatherLimit.map fun g => [(3, g)]) ++ ifPresent 4 (o.gatherStart.map fun g => [(4, g)]) ++
      [(1, o.taken), (1, o.notTaken)] ++
      listOf 8 4 (o.members.map fun m => [(2, m.bin), (1, m.state.code), (1, m.items.length)]))) := by
  unfold State.orderBytes
  cases s.desk.orders.find i with
  | none => rw [Option.map_none, bytes_ifPresent_none, be_zero]; rfl
  | some o =>
    rw [Option.map_some, bytes_ifPresent_some]
    unfold Order.bytes flagCode
    simp only [optional_bytes, be_bytes, ← Fields.bytes_append, padded_bytes, List.append_assoc, List.cons_append,
      List.nil_append]
    rfl

theorem liftBytes_eq (l : Nat) :
    let r := s.lift l
    s.liftBytes l = Fields.bytes ([(1, r.zone), (3, r.mask.toNat), (1, r.carriers), (3, r.carryLimit), (2, r.answerLimit)] ++
      ifPresent 1 ((s.liftAddress l).map fun a => [(1, a)]) ++ [(1, r.word.code)] ++
      ifPresent 1 (r.word.seq.map fun q => [(1, q)]) ++
      listOf 4 6 (r.carries.map fun c => [(2, c.tag), (2, c.bin), (1, c.leg.code), (1, if c.late then 0 else 1)]) ++
      [(4, r.unmatched), (1, s.pool.pointer), (2, s.pool.waitList.length)]) := by
  have carry (c : Carry) : c.bytes = Fields.bytes [(2, c.tag), (2, c.bin), (1, c.leg.code), (1, if c.late then 0 else 1)] := by
    simp only [Carry.bytes, flagCode, be_bytes, ← Fields.bytes_append, List.cons_append, List.nil_append]
  have carries : (s.lift l).carries.map Carry.bytes = (s.lift l).carries.map fun c =>
      Fields.bytes [(2, c.tag), (2, c.bin), (1, c.leg.code), (1, if c.late then 0 else 1)] :=
    List.map_congr_left fun c _ => carry c
  unfold State.liftBytes
  simp only [carries, optional_bytes, be_bytes, ← Fields.bytes_append, padded_bytes, List.append_assoc, List.cons_append,
    List.nil_append]

theorem itemBytes_eq {i t : Nat} {e : Item} (h : s.loans.items[i]? = some (t, e)) :
    s.itemBytes i = Fields.bytes [(1, 0), (6, t), (2, e.bin), (1, e.category), (1, e.state.word.code),
      (2, e.state.orderNumber), (2, (e.state.loan.map (·.lendDay)).getD 0), (2, (e.state.loan.map (·.dueDay)).getD 0),
      (1, (e.state.loan.map (·.renewals)).getD 0), (2, e.state.scanDay)] := by
  have loan : loanBytes e.state.loan = Fields.bytes [(2, (e.state.loan.map (·.lendDay)).getD 0),
      (2, (e.state.loan.map (·.dueDay)).getD 0), (1, (e.state.loan.map (·.renewals)).getD 0)] := by
    cases e.state.loan with
    | none => rfl
    | some l => simp [loanBytes]
  unfold State.itemBytes
  rw [h]
  simp only [Item.bytes, loan, presenceCode, be_bytes, ← Fields.bytes_append, List.cons_append, List.nil_append]
  rfl

theorem stagingBytes_eq {i : Nat} {e : StageEntry} (h : s.returns.staging[i]? = some e) :
    s.stagingBytes i = Fields.bytes [(6, e.item), (2, e.bin), (2, e.scanDay), (2, e.age)] := by
  unfold State.stagingBytes
  rw [h]
  simp only [be_bytes, ← Fields.bytes_append, List.cons_append, List.nil_append]

theorem leftBytes_eq (w : Nat) (t : Option Nat) : s.leftBytes w t =
    Fields.bytes (ifPresent w (t.map fun e => [(w, e - s.now)])) := by
  rw [State.leftBytes, optional_bytes, Option.map_map]
  rfl

theorem lineField_eq (n : Nat) : s.lineField n =
    Fields.bytes (ifPresent 1 (if (s.line n).selection = .first then some [(1, n)] else none)) := by
  unfold State.lineField
  by_cases h : (s.line n).selection = .first
  · rw [if_pos ((selectedFirst_iff s n).2 h), if_pos h]
    rfl
  · rw [if_neg fun hs => h ((selectedFirst_iff s n).1 hs), if_neg h]
    rfl

theorem zoneBytes_eq (z : Nat) :
    let r := s.zone z
    let lineField (n : Nat) : Fields := ifPresent 1 (if (s.line n).selection = .first then some [(1, n)] else none)
    s.zoneBytes z = Fields.bytes (lineField z ++ lineField (8 + z) ++ lineField (16 + z) ++ lineField (24 + z) ++
      [(2, r.debounce), (2, r.parkAllowance), (2, r.brakeSettle), (3, r.shutterLimit), (3, r.readyLimit),
        (1, r.state.code)] ++ ifPresent 1 (r.cause.map fun c => [(1, c.code)]) ++
      [(1, if r.fault then 0 else 1),
        (1, if decide ((s.line z).selection = .first ∧ s.lineValue z = true) then 0 else 1),
        (1, if r.debounceTimer.isSome then 0 else 1)] ++ ifPresent 3 (r.timer.map fun e => [(3, e - s.now)])) := by
  have alarm : s.alarmInput z = decide ((s.line z).selection = .first ∧ s.lineValue z = true) := by
    rw [Bool.eq_iff_iff, alarmInput_iff, decide_eq_true_iff]
  unfold State.zoneBytes flagCode levelCode timerCode
  simp only [lineField_eq, leftBytes_eq, alarm, optional_bytes, be_bytes, ← Fields.bytes_append, Option.map_map,
    Function.comp_def, List.append_assoc, List.cons_append, List.nil_append]

theorem modeBytes_eq :
    let m := s.mode
    s.modeBytes = Fields.bytes ([(1, m.mode.code)] ++ ifPresent 1 (m.phase.map fun p => [(1, p.code)]) ++
      ifPresent 3 (m.timer.map fun e => [(3, e - s.now)]) ++
      [(1, (m.awaited.filter fun a => decide ((s.crane a).state ∈ [CraneState.ready, .busy, .parking])).length),
        (2, m.lastStaging), (2, m.lastWaiting)]) := by
  unfold State.modeBytes
  simp only [lateCranes_eq, leftBytes_eq, optional_bytes, be_bytes, ← Fields.bytes_append, Option.map_map,
    Function.comp_def, List.append_assoc, List.cons_append, List.nil_append]

theorem addrBytes_eq (e : AddrEntry) (fields : AddrEntry → Fields)
    (hn : fields .none = [(1, 0), (1, 1), (1, 0), (1, 1), (1, 0)])
    (hc : ∀ a, fields (.crane a) = [(1, 1), (1, 0), (1, a), (1, 1), (1, 0)])
    (hl : ∀ l, fields (.lift l) = [(1, 2), (1, 0), (1, l), (1, 1), (1, 0)])
    (hs : ∀ st, fields (.station st) = [(1, 3), (1, 0), (1, st), (1, 1), (1, 0)])
    (hd : ∀ z, fields (.device z) = [(1, 4), (1, 1), (1, 0), (1, 0), (1, z)]) : e.bytes = (fields e).bytes := by
  cases e with
  | none => rw [hn]; rfl
  | crane a => rw [hc]; simp [AddrEntry.bytes, optional, presenceCode]
  | lift l => rw [hl]; simp [AddrEntry.bytes, optional, presenceCode]
  | station st => rw [hs]; simp [AddrEntry.bytes, optional, presenceCode]
  | device z => rw [hd]; simp [AddrEntry.bytes, optional, presenceCode]

theorem setting_listed {p : Params} {i v : Nat} (h : [p.watermark, p.holdTime, p.holdRepeat, p.moveMargin, p.moveAllowance,
    p.termEnd, p.restoreThreshold, p.restoreAge, p.stagingWake, p.orderWake, p.wakeReadyLimit,
    if p.callKeyInhibit then 1 else 0][i]? = some v) : p.setting i = v := by
  obtain ⟨hi, -⟩ := List.getElem?_eq_some_iff.1 h
  rw [List.length_cons] at hi
  simp only [List.length_cons, List.length_nil] at hi
  interval_cases i <;> exact Option.some.inj h

theorem classBytes_eq (r : ClassRecord) : r.bytes = Fields.bytes [(1, r.cls.code), (2, r.period), (1, r.renewLimit)] := by
  simp only [ClassRecord.bytes, be_bytes, ← Fields.bytes_append, List.cons_append, List.nil_append]

theorem resetBytes_eq (r : ResetRecord) : r.bytes = Fields.bytes [(1, if r.power then 0 else 1), (1, if r.pin then 0 else 1),
    (1, if r.command then 0 else 1), (1, r.count)] := by
  simp only [ResetRecord.bytes, flagCode, be_bytes, ← Fields.bytes_append, List.cons_append, List.nil_append]

theorem lineBytes_eq (n : Nat) {driven : Bool} (h : s.driven n = driven) :
    let l := s.line n
    let input := (s.function n).input
    let active (b : Bool) : Bool := if l.polarity = .activeHigh then b else !b
    let high : Bool := if input then l.pin else active driven
    let value : Bool := if input then active l.pin else driven
    s.lineBytes n = Fields.bytes [(1, l.selection.code), (1, l.polarity.code), (1, if l.output then 0 else 1),
      (1, (s.function n).code), (1, if input then 0 else 1), (1, if high then 0 else 1),
      (1, if value && decide ¬ (s.function n = .callKey ∧ s.params.callKeyInhibit = true) then 0 else 1),
      (1, if l.keyTimer.isSome then 0 else 1)] := by
  have apply (b : Bool) : (s.line n).polarity.apply b = if (s.line n).polarity = .activeHigh then b else !b := by
    cases (s.line n).polarity <;> rfl
  have shown : s.shownValue n = (s.lineValue n && decide ¬ (s.function n = .callKey ∧ s.params.callKeyInhibit = true)) := by
    unfold State.shownValue
    rw [decide_not, Bool.decide_and, Bool.decide_eq_true]
  unfold State.lineBytes State.pinLevel levelCode timerCode
  rw [shown]
  unfold State.lineValue
  rw [h]
  simp only [apply, be_bytes, ← Fields.bytes_append, List.cons_append, List.nil_append]

end

/-! ## The event of a READ -/

section
variable {s : State} {tag first : BitVec 16} {table count : BitVec 8}

theorem exec_read : exec (.read tag table first count) s =
    s.live (s.request fun s => s.takeRead tag.toNat table.toNat first.toNat count.toNat) := rfl

theorem exec_resetRead : exec (.resetRead tag first count) s = exec (.read tag 18 first count) s := rfl

theorem read_refused {r : Reason} (hr : s.running) (h : s.judgeRead table.toNat first.toNat count.toNat = .inr r) :
    exec (.read tag table first count) s =
      .next (s.onlyAnswers (.refused tag.toNat 6 r (be 1 table.toNat ++ be 2 first.toNat ++ be 1 0))) := by
  have body : State.takeRead s.beginEvent tag.toNat table.toNat first.toNat count.toNat =
      (s.beginEvent, fun _ => .refused tag.toNat 6 r (be 1 table.toNat ++ be 2 first.toNat ++ be 1 0)) := by
    have judged : s.beginEvent.judgeRead table.toNat first.toNat count.toNat = .inr r := h
    rw [State.takeRead, judged, readFields, List.flatten_nil, List.append_nil]
    rfl
  rw [exec_read, request_answers hr body]

theorem judgeRead_unknown (h : s.tableSize table.toNat = none) :
    s.judgeRead table.toNat first.toNat count.toNat = .inr .unknownTable := by rw [State.judgeRead, h]

theorem judgeRead_known {n : Nat} (h : s.tableSize table.toNat = some n) : s.judgeRead table.toNat first.toNat count.toNat =
    if count.toNat = 0 then .inr .valueRange else if n ≤ first.toNat then .inr .indexRange else .inl n := by
  rw [State.judgeRead, h]

/-- The state that a READ leaves but for its ANSWER: of the RESET table the flags are cleared (R193). -/
def State.read (s : State) (table : BitVec 8) : State :=
  { s with
    work := Work.empty
    resets :=
      if table = 18 then
        { s.resets with record := { s.resets.record with power := false, pin := false, command := false } }
      else s.resets }

theorem read_answers {n : Nat} (hr : s.running) (hs : s.tableSize table.toNat = some n) (hc : count.toNat ≠ 0)
    (hf : first.toNat < n) : exec (.read tag table first count) s =
      .next (s.closeEvent (s.read table) (some (s.readAnswer tag.toNat table.toNat first.toNat count.toNat n))) := by
  have body : State.takeRead s.beginEvent tag.toNat table.toNat first.toNat count.toNat =
      (s.read table, fun _ => s.readAnswer tag.toNat table.toNat first.toNat count.toNat n) := by
    have judged : s.beginEvent.judgeRead table.toNat first.toNat count.toNat = .inl n := by
      refine (judgeRead_known hs).trans ?_
      rw [if_neg hc, if_neg (by omega)]
    rw [State.takeRead, judged, State.read]
    by_cases reset : table = 18
    · subst reset
      rfl
    · have other : ¬ table.toNat = 18 := fun h => reset (BitVec.eq_of_toNat_eq h)
      simp only [if_neg other, if_neg reset]
      rfl
  have settled : (s.read table).settle = s.read table := settle_idle _ rfl
  rw [exec_read, request_ends hr body, State.requestEnds, settled]

theorem readAnswer_eq {n k : Nat} (h : fitEntries readRoom (s.wanted table.toNat first.toNat count.toNat n) =
    s.carried table.toNat first.toNat k) (hf : first.toNat < n) :
    s.readAnswer tag.toNat table.toNat first.toNat count.toNat n =
      { tag := tag.toNat, kind := 6
        outcome := if k = count.toNat then .done else .partially
        reason := if k = count.toNat then none else if first.toNat + k = n then some .indexRange else some .tooLarge
        fields := be 1 table.toNat ++ be 2 first.toNat ++ be 1 k ++ (s.carried table.toNat first.toNat k).flatten } := by
  have length : (s.carried table.toNat first.toNat k).length = k := by rw [State.carried, List.length_map, List.length_range]
  have ends : k = n - first.toNat ↔ first.toNat + k = n := by omega
  unfold State.readAnswer readFields
  rw [h]
  dsimp only
  rw [length]
  by_cases all : k = count.toNat
  · rw [if_pos all, if_pos all, if_pos all]
    rfl
  · by_cases last : first.toNat + k = n
    · rw [if_neg all, if_pos (ends.2 last), if_neg all, if_neg all, if_pos last]
      rfl
    · rw [if_neg all, if_neg fun h => last (ends.1 h), if_neg all, if_neg all, if_neg last]
      rfl

end

/-- A READ of the whole RESET table carries its record (R193). -/
theorem read_resetRecord {s : State} {tag : BitVec 16} (hr : s.running) : exec (.read tag 18 0 1) s =
    .next (s.closeEvent (s.read 18) (some (.done tag.toNat 6 ([18#8, 0#8, 0#8, 1#8] ++ s.resets.record.bytes)))) := by
  have length : s.resets.record.bytes.length = 4 := by rw [resetBytes_eq, Fields.bytes_length]; rfl
  have wanted : s.wanted 18 0 1 1 = s.carried 18 0 1 := rfl
  have taken : fitEntries readRoom (s.wanted 18 0 1 1) = s.carried 18 0 1 := by
    rw [wanted]
    have fits : s.resets.record.bytes.length ≤ readRoom := by rw [length]; decide
    exact if_pos fits
  have carried : (s.carried 18 0 1).flatten = s.resets.record.bytes := List.append_nil _
  rw [read_answers (n := 1) hr rfl (by decide) (by decide)]
  refine congrArg (fun a => Host.Outcome.next (s.closeEvent (s.read 18) (some a))) ?_
  refine (readAnswer_eq (k := 1) (table := 18) (first := 0) (count := 1) taken (by decide)).trans ?_
  rw [← carried]
  rfl

/-- Settles O31. -/
theorem readReturnsEntries : Obligations.ReadReturnsEntries := by
  refine ⟨fun _ _ _ => rfl, fun s tag first table count hr => ?_, fun s i => ?_, ?_⟩
  · intro size head refused
    refine ⟨rfl, rfl, rfl, tableSize_none _, fun h => read_refused hr (judgeRead_unknown h), fun n h hc => ?_,
      fun n h hc hf => ?_, fun n h hc hf => ?_, exec_resetRead, fun hf hc => ?_⟩
    · exact read_refused hr (by rw [judgeRead_known h, if_pos hc])
    · exact read_refused hr (by rw [judgeRead_known h, if_neg hc, if_pos hf])
    · obtain ⟨k, taken, hk, hn, room, stops⟩ := wanted_fits (s := s) (table := table.toNat) (count := count.toNat) hf
      refine ⟨k, s.read table, hk, hn, room, stops, ?_, rfl⟩
      rw [read_answers hr h hc hf, readAnswer_eq taken hf]
      rfl
    · subst hf hc
      exact exec_resetRead.trans (read_resetRecord hr)
  · intro carries flag slot point timer
    have places (p : Point) : p.bytes = (point p).bytes := by
      cases p with
      | slot f l c =>
        simp only [Point.bytes, be_bytes, ← Fields.bytes_append, List.cons_append, List.nil_append]
        rfl
      | front => rfl
      | infeed => rfl
      | park => rfl
      | crane => rfl
    refine ⟨?_, be_bytes _ _, be_bytes _ _, ?_, aisleBytes_eq _, binBytes_eq i, craneBytes_eq i point places,
      stationBytes_eq i, orderBytes_eq i, liftBytes_eq i, fun t e h => ?_, ?_, fun e h => stagingBytes_eq h,
      zoneBytes_eq i, ?_, be_bytes _ _, modeBytes_eq, resetBytes_eq _⟩
    · exact addrBytes_eq (s.addr i) (fun e => match e with
        | .none => [(1, 0), (1, 1), (1, 0), (1, 1), (1, 0)]
        | .crane a => [(1, 1), (1, 0), (1, a), (1, 1), (1, 0)]
        | .lift l => [(1, 2), (1, 0), (1, l), (1, 1), (1, 0)]
        | .station st => [(1, 3), (1, 0), (1, st), (1, 1), (1, 0)]
        | .device z => [(1, 4), (1, 1), (1, 0), (1, 0), (1, z)]) rfl (fun _ => rfl) (fun _ => rfl) (fun _ => rfl) fun _ => rfl
    · intro p v h
      exact (be_bytes _ _).trans (by rw [setting_listed h])
    · refine (itemBytes_eq h).trans ?_
      cases e.state <;> rfl
    · exact classBytes_eq _
    · intro l input active driven high value
      have drives : s.driven i = driven := by
        unfold State.driven driven
        cases s.function i <;> rfl
      exact lineBytes_eq i drives
  · exact ⟨rfl, rfl, rfl, rfl, rfl, rfl, rfl, rfl, rfl, rfl, rfl, rfl, fun _ => rfl, rfl, rfl, rfl, rfl, rfl, rfl, rfl,
      fun _ => rfl, rfl, rfl, rfl⟩

end Sys2Proof.Machine
end
